-- ==== Sys2Proof/Word.lean ====
section
/-! DEFINITION. The word types of the machine and their plainest arithmetic (spec/00_scope.md R3, R4). -/

namespace Sys2Proof

/-- A register of a fibre's window (spec/03 R49). -/
abbrev Word := BitVec 32
/-- An address pair, a 64-bit value, an identifier (spec/00 R4). -/
abbrev DWord := BitVec 64
/-- One byte of storage. -/
abbrev Byte := BitVec 8

/-- Bits hi to lo of a natural number, as a natural number (`bits(x, hi, lo)` of spec/03 R63). -/
def natBits (x hi lo : Nat) : Nat := (x >>> lo) % 2 ^ (hi + 1 - lo)

/-- Ceiling division. -/
def ceilDiv (a b : Nat) : Nat := (a + b - 1) / b

/-- The first `n` byte values of a number, lowest first: multi-byte fields are little-endian (spec/00 R4). -/
def natBytes : Nat → Nat → List Byte
  | 0, _ => []
  | n + 1, x => BitVec.ofNat 8 x :: natBytes n (x / 256)

/-- The number that a little-endian list of bytes holds (spec/00 R4). -/
def bytesNat : List Byte → Nat
  | [] => 0
  | b :: bs => b.toNat + 256 * bytesNat bs

end Sys2Proof
end

