-- ==== Sys2Proof/Machine/Alu.lean ====
section
/-! DEFINITION. Integer arithmetic on words (spec/04 R65 to R74). A type argument `n` is true for `.n32`, false for `.s32`. -/

namespace Sys2Proof

/-- `T(x)` of R65. -/
def intT (n : Bool) (x : Word) : Int := if n then x.toNat else x.toInt
/-- A 32-bit pattern of an integer. -/
def wrap32 (x : Int) : Word := BitVec.ofInt 32 x
/-- A 64-bit pattern of an integer. -/
def wrap64 (x : Int) : DWord := BitVec.ofInt 64 x
/-- `clampT` of R65. -/
def clampT (n : Bool) (x : Int) : Word :=
  let lo : Int := if n then 0 else -2 ^ 31
  let hi : Int := if n then 2 ^ 32 - 1 else 2 ^ 31 - 1
  wrap32 (if x < lo then lo else if hi < x then hi else x)

/-! The two-source operations of R67. -/
def aluAdd (_ : Bool) (a b : Word) : Word := a + b
def aluSub (_ : Bool) (a b : Word) : Word := a - b
def aluAddSat (n : Bool) (a b : Word) : Word := clampT n (intT n a + intT n b)
def aluSubSat (n : Bool) (a b : Word) : Word := clampT n (intT n a - intT n b)
def aluMul (_ : Bool) (a b : Word) : Word := a * b
def aluMulhi (n : Bool) (a b : Word) : Word := (wrap64 (intT n a * intT n b)).extractLsb' 32 32
def aluMin (n : Bool) (a b : Word) : Word := if intT n b < intT n a then b else a
def aluMax (n : Bool) (a b : Word) : Word := if intT n a < intT n b then b else a
def aluAnd (_ : Bool) (a b : Word) : Word := a &&& b
def aluOr (_ : Bool) (a b : Word) : Word := a ||| b
def aluXor (_ : Bool) (a b : Word) : Word := a ^^^ b
def aluAndn (_ : Bool) (a b : Word) : Word := a &&& ~~~b
/-- Shifts take the whole 32-bit amount (R67). -/
def aluShl (_ : Bool) (a b : Word) : Word := if 32 ≤ b.toNat then 0 else a <<< b.toNat
def aluShr (_ : Bool) (a b : Word) : Word := if 32 ≤ b.toNat then 0 else a >>> b.toNat
def aluSar (_ : Bool) (a b : Word) : Word := a.sshiftRight (min b.toNat 31)
def aluRot (_ : Bool) (a b : Word) : Word := a.rotateLeft (b.toNat % 32)

/-! The one-source operations of R68. -/
def aluMov (a : Word) : Word := a
def aluAbs (a : Word) : Word := wrap32 a.toInt.natAbs
def aluNeg (a : Word) : Word := -a
def aluNot (a : Word) : Word := ~~~a
def aluPopc (a : Word) : Word := BitVec.ofNat 32 ((List.range 32).countP (fun i => a.getLsbD i))
def aluClz (a : Word) : Word := BitVec.ofNat 32 (if a == 0 then 32 else 31 - a.toNat.log2)
def aluCtz (a : Word) : Word := BitVec.ofNat 32 (((List.range 32).find? (fun i => a.getLsbD i)).getD 32)
def aluBrev (a : Word) : Word :=
  BitVec.ofNat 32 ((List.range 32).foldl (fun r i => r + if a.getLsbD i then 2 ^ (31 - i) else 0) 0)

/-- `mulw`, `madw` (R70). -/
def aluMulw (n : Bool) (a b : Word) (c : DWord) : DWord := wrap64 (intT n a * intT n b + c.toNat)
/-- `mad` (R70). -/
def aluMad (a b c : Word) : Word := a * b + c
/-- `bfx` (R71). -/
def aluBfx (n : Bool) (pos len : Nat) (a : Word) : Word :=
  let x := a.toNat / 2 ^ pos % 2 ^ len
  if n || x < 2 ^ (len - 1) then BitVec.ofNat 32 x else wrap32 ((x : Int) - 2 ^ len)
/-- `bfi` (R71). -/
def aluBfi (pos len : Nat) (a b : Word) : Word :=
  let m : Word := BitVec.ofNat 32 ((2 ^ len - 1) * 2 ^ pos)
  (a &&& ~~~m) ||| ((b <<< pos) &&& m)
/-- `bsel` (R72). -/
def aluBsel (a b c : Word) : Word := (a &&& b) ||| (~~~a &&& c)
/-- `lea64` (R74). -/
def aluLea64 (n : Bool) (s : Nat) (a : DWord) (b : Word) : DWord := wrap64 (a.toNat + intT n b * 2 ^ s)

end Sys2Proof
end

