-- ==== Sys2Proof/Machine/Num.lean ====
section
/-! DEFINITION. Number formats, exact values and rounding (spec/05 R88 to R102). -/

namespace Sys2Proof

/-- What the codes above the finite values mean: IEEE infinities and NaNs (also E5M2), the single NaN of E4M3, or nothing
(E3M2, E2M3, E2M1) (R88, R92). -/
inductive FmtKind where
  | ieee | e4m3 | sat
deriving DecidableEq, Repr

/-- A floating-point format: exponent and fraction widths and bias (R88, R92). -/
structure Fmt where
  ebits : Nat
  mbits : Nat
  bias : Nat
  kind : FmtKind
deriving DecidableEq, Repr

def Fmt.f64 : Fmt := ⟨11, 52, 1023, .ieee⟩
def Fmt.f32 : Fmt := ⟨8, 23, 127, .ieee⟩
def Fmt.f16 : Fmt := ⟨5, 10, 15, .ieee⟩
def Fmt.bf16 : Fmt := ⟨8, 7, 127, .ieee⟩
def Fmt.e4m3 : Fmt := ⟨4, 3, 7, .e4m3⟩
def Fmt.e5m2 : Fmt := ⟨5, 2, 15, .ieee⟩
def Fmt.e3m2 : Fmt := ⟨3, 2, 3, .sat⟩
def Fmt.e2m3 : Fmt := ⟨2, 3, 1, .sat⟩
def Fmt.e2m1 : Fmt := ⟨2, 1, 1, .sat⟩

/-- Bits of a code. -/
def Fmt.width (f : Fmt) : Nat := 1 + f.ebits + f.mbits
/-- The sign bit's weight. -/
def Fmt.signBit (f : Fmt) : Nat := 2 ^ (f.ebits + f.mbits)
/-- The code of the largest finite magnitude (R88, R92). -/
def Fmt.maxMag (f : Fmt) : Nat :=
  match f.kind with
  | .ieee => (2 ^ f.ebits - 1) * 2 ^ f.mbits - 1
  | .e4m3 => f.signBit - 2
  | .sat => f.signBit - 1
/-- The code of +infinity in a format that has one. -/
def Fmt.infMag (f : Fmt) : Nat := (2 ^ f.ebits - 1) * 2 ^ f.mbits
/-- The code of 1.0. -/
def Fmt.one (f : Fmt) : Nat := f.bias * 2 ^ f.mbits
/-- The code a NaN result takes (R90, R97): the canonical quiet NaN; 0x7F in E4M3; +0 where the format has no NaN. -/
def Fmt.nan (f : Fmt) : Nat :=
  match f.kind with
  | .ieee => f.infMag + 2 ^ (f.mbits - 1)
  | .e4m3 => f.signBit - 1
  | .sat => 0

/-- An exact value: NaN, an infinity, or a signed fraction `n / d` (a zero has a sign). -/
inductive FVal where
  | nan
  | inf (neg : Bool)
  | fin (neg : Bool) (n d : Nat)
deriving DecidableEq, Repr

/-- Rounding modes (R97, R109). -/
inductive Mode where
  | rne | rtz | rdn | rup | sr
deriving DecidableEq, Repr

/-- A mode field (R109, R120). -/
def modeOfField : Nat → Mode
  | 0 => .rne | 1 => .rtz | 2 => .rdn | 3 => .rup | _ => .sr

/-- `2 ^ e` as a fraction's numerator and denominator. -/
def pow2 (e : Int) : Nat × Nat := if 0 ≤ e then (2 ^ e.toNat, 1) else (1, 2 ^ (-e).toNat)

/-- The value of a code (R88, R92); bits above the format's width are ignored. -/
def Fmt.dec (f : Fmt) (code : Nat) : FVal :=
  let c := code % 2 ^ f.width
  let neg := c / f.signBit == 1
  let mag := c % f.signBit
  if f.maxMag < mag then
    (if f.kind = .ieee ∧ mag = f.infMag then .inf neg else .nan)
  else
    let e := mag / 2 ^ f.mbits
    let fr := mag % 2 ^ f.mbits
    let sig := if e == 0 then fr else fr + 2 ^ f.mbits
    let p := pow2 ((max e 1 : Int) - f.bias - f.mbits)
    .fin neg (sig * p.1) p.2

/-- floor(log2 (n / d)) for n > 0. -/
def floorLog2 (n d : Nat) : Int :=
  let e : Int := (n.log2 : Int) - d.log2
  let p := pow2 e
  if d * p.1 ≤ n * p.2 then e else e - 1

/-- Whether a magnitude with remainder `r / d` above the lower neighbour `q` moves to the upper one (R97, R98). -/
def roundUp (m : Mode) (neg : Bool) (q r d draw : Nat) : Bool :=
  match m with
  | .rne => d < 2 * r || (2 * r == d && q % 2 == 1)
  | .rtz => false
  | .rdn => neg && r != 0
  | .rup => !neg && r != 0
  | .sr => r != 0 && draw < 65536 * r / d

/-- The magnitude code a finite nonzero `n / d` rounds to, before the overflow check: exponent range unbounded above, the
format's subnormal spacing below its smallest normal (R97). -/
def Fmt.roundMag (f : Fmt) (m : Mode) (neg : Bool) (n d draw : Nat) : Nat :=
  let be : Int := max (floorLog2 n d + f.bias) 1
  let p := pow2 (be - f.bias - f.mbits)
  let num := n * p.2
  let den := d * p.1
  let q := num / den
  let q' := if roundUp m neg q (num % den) den draw then q + 1 else q
  (be - 1).toNat * 2 ^ f.mbits + q'

/-- The magnitude a result takes that overflows (R97). -/
def Fmt.overflow (f : Fmt) (m : Mode) (neg : Bool) : Nat :=
  match f.kind with
  | .ieee =>
    match m with
    | .rne | .sr => f.infMag
    | .rtz => f.maxMag
    | .rdn => if neg then f.infMag else f.maxMag
    | .rup => if neg then f.maxMag else f.infMag
  | _ => f.maxMag

/-- A code with its sign. -/
def Fmt.signed (f : Fmt) (neg : Bool) (mag : Nat) : Nat := if neg then f.signBit + mag else mag

/-- `rnd(x, F, m, s)` (R97): the code of an exact value in a format; `draw` is the 16-bit value R of R98 under `.sr`. -/
def Fmt.rnd (f : Fmt) (m : Mode) (draw : Nat) (x : FVal) : Nat :=
  match x with
  | .nan => f.nan
  | .inf neg =>
    match f.kind with
    | .ieee => f.signed neg f.infMag
    | .e4m3 => f.signed neg f.nan
    | .sat => f.signed neg f.maxMag
  | .fin neg n d =>
    if n == 0 then f.signed neg 0
    else
      let mag := f.roundMag m neg n d draw
      f.signed neg (if f.maxMag < mag then f.overflow m neg else mag)

/-- Round to nearest even (R99). -/
def Fmt.rne (f : Fmt) (x : FVal) : Nat := f.rnd .rne 0 x

/-- The draw R of R98 for element `i` of lane `l` under a 32-bit seed. -/
def srDraw (seed lane i : Nat) : Nat :=
  let h0 := (seed ^^^ (lane * 0x9E3779B9) ^^^ (i * 0x85EBCA6B)) % 2 ^ 32
  let h1 := (h0 ^^^ (h0 >>> 16)) * 0x7FEB352D % 2 ^ 32
  let h2 := (h1 ^^^ (h1 >>> 15)) * 0x846CA68B % 2 ^ 32
  (h2 ^^^ (h2 >>> 16)) % 2 ^ 16

/-- The signed numerator over the denominator. -/
def signedInt (neg : Bool) (n : Nat) : Int := if neg then -(n : Int) else n

/-- A signed fraction as a value; an exact zero takes the sign `zneg`. -/
def FVal.ofInt (zneg : Bool) (n : Int) (d : Nat) : FVal := if n == 0 then .fin zneg 0 1 else .fin (n < 0) n.natAbs d

/-- Clamp to an interval. -/
def clampInt (lo hi x : Int) : Int := if x < lo then lo else if hi < x then hi else x

/-- The integer nearest a fraction under a mode, sign included. -/
def rndInt (m : Mode) (draw : Nat) (neg : Bool) (n d : Nat) : Int :=
  let q := n / d
  signedInt neg (if roundUp m neg q (n % d) d draw then q + 1 else q)

/-- Conversion to an integer type: round under the mode, clamp, NaN gives 0 (R97). -/
def toIntClamp (lo hi : Int) (m : Mode) (draw : Nat) : FVal → Int
  | .nan => 0
  | .inf neg => if neg then lo else hi
  | .fin neg n d => clampInt lo hi (rndInt m draw neg n d)

/-- Sum of two fractions over the larger denominator where one divides the other. -/
def addFrac (a : Int × Nat) (b : Int × Nat) : Int × Nat :=
  if a.2 % b.2 == 0 then (a.1 + b.1 * (a.2 / b.2 : Nat), a.2)
  else if b.2 % a.2 == 0 then (a.1 * (b.2 / a.2 : Nat) + b.1, b.2)
  else (a.1 * b.2 + b.1 * a.2, a.2 * b.2)

/-- A finite value as a fraction. -/
def FVal.frac : FVal → Int × Nat
  | .fin neg n d => (signedInt neg n, d)
  | _ => (0, 1)
def FVal.isNan : FVal → Bool
  | .nan => true
  | _ => false
def FVal.isInf (neg : Bool) : FVal → Bool
  | .inf s => s == neg
  | _ => false
def FVal.isZero : FVal → Bool
  | .fin _ n _ => n == 0
  | _ => false
def FVal.neg? : FVal → Bool
  | .nan => false
  | .inf s => s
  | .fin s _ _ => s
/-- The value with its sign inverted. -/
def FVal.negate : FVal → FVal
  | .nan => .nan
  | .inf s => .inf (!s)
  | .fin s n d => .fin (!s) n d

/-- Exact sum of terms with IEEE special values (R103's list) and R111's rule for exact zeros: a sum of zeros of one sign
keeps it; any other exact zero is +0, except under `.rdn` (log 125, DEDUCED). -/
def FVal.sum (rdn : Bool) (l : List FVal) : FVal :=
  if l.any FVal.isNan then .nan
  else
    let p := l.any (FVal.isInf false)
    let n := l.any (FVal.isInf true)
    if p && n then .nan else if p then .inf false else if n then .inf true
    else
      let s := l.foldl (fun acc x => addFrac acc x.frac) (0, 1)
      let z := if l.all FVal.isZero && l.all FVal.neg? then true
               else if l.all FVal.isZero && l.all (fun x => !x.neg?) then false else rdn
      .ofInt z s.1 s.2

/-- Exact product (R111): infinity times zero is NaN. -/
def FVal.mul : FVal → FVal → FVal
  | .nan, _ => .nan
  | _, .nan => .nan
  | .inf s, .inf t => .inf (s != t)
  | .inf s, .fin t n _ => if n == 0 then .nan else .inf (s != t)
  | .fin s n _, .inf t => if n == 0 then .nan else .inf (s != t)
  | .fin s n d, .fin t m e => .fin (s != t) (n * m) (d * e)

/-- Exact quotient (R111). -/
def FVal.div : FVal → FVal → FVal
  | .nan, _ => .nan
  | _, .nan => .nan
  | .inf _, .inf _ => .nan
  | .inf s, .fin t _ _ => .inf (s != t)
  | .fin s _ _, .inf t => .fin (s != t) 0 1
  | .fin s n d, .fin t m e =>
    if m == 0 then (if n == 0 then .nan else .inf (s != t)) else .fin (s != t) (n * e) (d * m)

/-- Less-than of the value order in which -0 is below +0; NaNs are not compared (R112). -/
def FVal.ltTotal (a b : FVal) : Bool :=
  match a, b with
  | .nan, _ => false
  | _, .nan => false
  | .inf s, .inf t => s && !t
  | .inf s, _ => s
  | _, .inf t => !t
  | .fin s n d, .fin t m e =>
    let l := signedInt s n * e
    let r := signedInt t m * d
    l < r || (l == r && s && !t)

/-- IEEE comparison (R118): none when unordered; otherwise the order of the two values, -0 equal to +0. -/
def FVal.cmp (a b : FVal) : Option Ordering :=
  match a, b with
  | .nan, _ => none
  | _, .nan => none
  | .inf s, .inf t => some (if s == t then .eq else if s then .lt else .gt)
  | .inf s, _ => some (if s then .lt else .gt)
  | _, .inf t => some (if t then .gt else .lt)
  | .fin s n d, .fin t m e => some (compare (signedInt s n * e) (signedInt t m * d))

/-- Integer square root, from the highest bit down; `fuel` bits of the root. -/
def isqrtGo (x : Nat) : Nat → Nat → Nat
  | 0, r => r
  | k + 1, r => let r' := r + 2 ^ k; isqrtGo x k (if r' * r' ≤ x then r' else r)
def isqrt (x : Nat) : Nat := isqrtGo x (x.log2 / 2 + 1) 0

/-- A fraction that rounds as the square root of `n / d` does in every format of this chapter: the root cut to a multiple of
`1 / (d * 2 ^ k)`, half a unit above it where inexact. Every value and every midpoint of the format is such a multiple. -/
def sqrtFrac (k n d : Nat) : Nat × Nat :=
  let x := n * d * 4 ^ k
  let s := isqrt x
  if s * s == x then (s, d * 2 ^ k) else (2 * s + 1, 2 * d * 2 ^ k)

/-- `sqrt` (R114): -0 for -0, NaN below it. -/
def FVal.sqrt (f : Fmt) : FVal → FVal
  | .nan => .nan
  | .inf neg => if neg then .nan else .inf false
  | .fin neg n d =>
    if n == 0 then .fin neg 0 1
    else if neg then .nan
    else let r := sqrtFrac (f.bias + f.mbits + 8) n d; .fin false r.1 r.2

/-- `rsq` (R114). -/
def FVal.rsq (f : Fmt) : FVal → FVal
  | .nan => .nan
  | .inf neg => if neg then .nan else .fin false 0 1
  | .fin neg n d =>
    if n == 0 then .inf neg
    else if neg then .nan
    else let r := sqrtFrac (f.bias + f.mbits + 8) d n; .fin false r.1 r.2

/-! Transcendental functions (R115, R128): correctly rounded. Each is bracketed between two fractions over `2 ^ p` and the
bracket narrowed until both ends round alike. -/

/-- `k` terms of atanh(1/q) (`alt = false`) or atan(1/q) (`alt = true`) at scale `2 ^ p`; truncation loses less than one unit
a term. -/
def atanInvGo (alt : Bool) (q : Nat) : Nat → Nat → Nat → Int → Int
  | 0, _, _, acc => acc
  | fuel + 1, i, pw, acc =>
    let t : Int := pw / (2 * i + 1)
    atanInvGo alt q fuel (i + 1) (pw / (q * q)) (if alt && i % 2 == 1 then acc - t else acc + t)
def atanInv (alt : Bool) (q p : Nat) : Int := atanInvGo alt q p 0 (2 ^ p / q) 0

/-- ln 2 = 2 atanh(1/3) and pi = 16 atan(1/5) - 4 atan(1/239) at scale `2 ^ p`, within `2 ^ 12` units for p up to 1024. -/
def ln2Fix (p : Nat) : Int := 2 * atanInv false 3 p
def piFix (p : Nat) : Int := 16 * atanInv true 5 p - 4 * atanInv true 239 p

/-- exp(x) for a fixed-point `0 ≤ x < 1`. -/
def expGo (p x : Nat) : Nat → Nat → Nat → Nat → Nat
  | 0, _, _, acc => acc
  | fuel + 1, i, t, acc => let t' := t * x / 2 ^ p / (i + 1); expGo p x fuel (i + 1) t' (acc + t')
/-- sin(x) for a fixed-point `0 ≤ x < 2`. -/
def sinGo (p x : Nat) : Nat → Nat → Nat → Int → Int
  | 0, _, _, acc => acc
  | fuel + 1, i, t, acc =>
    let t' := t * x / 2 ^ p * x / 2 ^ p / ((2 * i + 2) * (2 * i + 3))
    sinGo p x fuel (i + 1) t' (if i % 2 == 0 then acc - t' else acc + t')
/-- atanh(z) for a fixed-point `0 ≤ z ≤ 1/3`. -/
def atanhGo (p z2 : Nat) : Nat → Nat → Nat → Nat → Nat
  | 0, _, _, acc => acc
  | fuel + 1, i, t, acc => atanhGo p z2 fuel (i + 1) (t * z2 / 2 ^ p) (acc + t / (2 * i + 1))

/-- 2 ^ (n / d) for `0 ≤ n / d < 1`, at scale `2 ^ p`. -/
def exp2Fix (p n d : Nat) : Int :=
  let x := (ln2Fix p).toNat * n / d
  expGo p x p 0 (2 ^ p) (2 ^ p)
/-- log2 (n / d) for `1 ≤ n / d < 2`, at scale `2 ^ p`. -/
def log2Fix (p n d : Nat) : Int :=
  let z := (n - d) * 2 ^ p / (n + d)
  2 * (atanhGo p (z * z / 2 ^ p) p 0 z 0 : Nat) * 2 ^ p / ln2Fix p
/-- sin(pi n / d) for `0 ≤ n / d ≤ 1/2`, at scale `2 ^ p`. -/
def sinPiFix (p n d : Nat) : Int :=
  let x := (piFix p).toNat * n / d
  sinGo p x p 0 x x

/-- Round the number `s.1 / s.2` times what `g p`, at scale `2 ^ p`, is within `2 ^ 24` units of: both ends of the bracket
must round alike. -/
def rndBracket (f : Fmt) (s : Nat × Nat) (g : Nat → Int) : List Nat → Nat
  | [] => f.nan
  | p :: ps =>
    let lo := f.rne (.ofInt false ((g p - 2 ^ 24) * s.1) (2 ^ p * s.2))
    let hi := f.rne (.ofInt false ((g p + 2 ^ 24) * s.1) (2 ^ p * s.2))
    if lo == hi || ps.isEmpty then lo else rndBracket f s g ps

/-- Working precisions; hard cases of FP32 need far less than the last. -/
def precisions : List Nat := [288, 512, 1024]

/-- `exp2` (R115). Exponents beyond the format's range by a wide margin stand for all larger ones. -/
def fexp2 (f : Fmt) : FVal → Nat
  | .nan => f.nan
  | .inf neg => if neg then 0 else f.infMag
  | .fin neg n d =>
    let lim : Int := 2 * f.bias + f.mbits + 8
    let i := clampInt (-lim) lim ((signedInt neg n) / (d : Int))
    let fr := ((signedInt neg n) % (d : Int)).toNat
    let s := pow2 i
    if fr == 0 || i == lim || i == -lim then f.rne (.fin false s.1 s.2)
    else rndBracket f s (fun p => exp2Fix p fr d) precisions

/-- `log2` (R115). -/
def flog2 (f : Fmt) : FVal → Nat
  | .nan => f.nan
  | .inf neg => if neg then f.nan else f.infMag
  | .fin neg n d =>
    if n == 0 then f.signed true f.infMag
    else if neg then f.nan
    else
      let e := floorLog2 n d
      let s := pow2 e
      let n' := n * s.2
      let d' := d * s.1
      if n' == d' then f.rne (.ofInt false e 1)
      else rndBracket f (1, 1) (fun p => e * 2 ^ p + log2Fix p n' d') precisions

/-- sin(pi x) for an exact `x = n / d` in [0, 2): exact zeros are +0. -/
def fsinpi2 (f : Fmt) (n d : Nat) : Nat :=
  let neg := decide (d ≤ n)
  let r := if neg then n - d else n
  let t := if 2 * r ≤ d then r else d - r
  if t == 0 then 0
  else if 2 * t == d then f.signed neg f.one
  else f.signed neg (rndBracket f (1, 1) (fun p => sinPiFix p t d) precisions)

/-- `sinp` (R115): a zero result keeps the operand's sign. -/
def fsinp (f : Fmt) : FVal → Nat
  | .nan => f.nan
  | .inf _ => f.nan
  | .fin neg n d =>
    if n % d == 0 then f.signed neg 0
    else
      let r := n % (2 * d)
      let c := fsinpi2 f r d
      if neg then (if c / f.signBit == 1 then c - f.signBit else c + f.signBit) else c

/-- `cosp` (R115): cos(pi x) = sin(pi (x + 1/2)). -/
def fcosp (f : Fmt) : FVal → Nat
  | .nan => f.nan
  | .inf _ => f.nan
  | .fin _ n d => fsinpi2 f ((2 * n + d) % (4 * d)) (2 * d)

/-- `frc` (R116). -/
def ffrc (f : Fmt) : FVal → Nat
  | .nan => f.nan
  | .inf _ => f.nan
  | .fin neg n d =>
    let r := n % d
    let c := f.rne (.fin false (if neg && r != 0 then d - r else r) d)
    if c == f.one then c - 1 else c

/-- `rint` (R116). -/
def frint (f : Fmt) (m : Mode) : FVal → Nat
  | .nan => f.nan
  | .inf neg => f.signed neg f.infMag
  | .fin neg n d => f.rnd m 0 (.fin neg (rndInt m 0 neg n d).natAbs 1)

/-- `ldexp` (R116): an exponent beyond the format's range by a wide margin stands for all larger ones. -/
def fldexp (f : Fmt) (m : Mode) (x : FVal) (n : Int) : Nat :=
  match x with
  | .nan => f.nan
  | .inf neg => f.signed neg f.infMag
  | .fin neg a d =>
    let lim : Int := 4 * f.bias + 4 * f.mbits + 8
    let s := pow2 (clampInt (-lim) lim n)
    f.rnd m 0 (.fin neg (a * s.1) (d * s.2))

/-- `cls` (R117): the bit number of a code's class in an IEEE format. -/
def fclass (f : Fmt) (code : Nat) : Nat :=
  let neg := (code / f.signBit) % 2 == 1
  let mag := code % f.signBit
  if f.infMag < mag then (if (mag / 2 ^ (f.mbits - 1)) % 2 == 1 then 1 else 0)
  else if mag == f.infMag then (if neg then 2 else 9)
  else if mag == 0 then (if neg then 5 else 6)
  else if mag < 2 ^ f.mbits then (if neg then 4 else 7)
  else if neg then 3 else 8

/-- `min`/`max` over codes of a format (R112): the number wins over a NaN; two NaNs give the canonical NaN. -/
def fminmax (f : Fmt) (wantMax : Bool) (a b : Nat) : Nat :=
  let x := f.dec a
  let y := f.dec b
  match x.isNan, y.isNan with
  | true, true => f.nan
  | true, false => b % 2 ^ f.width
  | false, true => a % 2 ^ f.width
  | false, false => (if x.ltTotal y == wantMax then b else a) % 2 ^ f.width

/-- `minp`/`maxp` (R112): any NaN gives the canonical NaN. -/
def fminmaxp (f : Fmt) (wantMax : Bool) (a b : Nat) : Nat :=
  if (f.dec a).isNan || (f.dec b).isNan then f.nan else fminmax f wantMax a b

/-- `abs` and `neg` on a code (R113). -/
def fabs (f : Fmt) (a : Nat) : Nat := if (f.dec a).isNan then f.nan else a % f.signBit
def fneg (f : Fmt) (a : Nat) : Nat :=
  if (f.dec a).isNan then f.nan
  else if (a / f.signBit) % 2 == 1 then a % f.signBit else f.signBit + a % f.signBit

end Sys2Proof
end

