-- ==== Sys2Proof/Machine/Flags.lean ====
section
/-! DEFINITION. The predicate word: compare conditions, and how a test combines with the bit it writes (spec/04 R73, spec/06
R118). The machine has no other flags. -/

namespace Sys2Proof

/-- The six conditions, in opcode order (R73, R118). -/
inductive Cond where
  | eq | ne | lt | le | gt | ge
deriving DecidableEq, Repr

/-- An integer test: eq and ne compare the patterns, the others `T()` (R73). -/
def Cond.int (c : Cond) (n : Bool) (a b : Word) : Bool :=
  match c with
  | .eq => a == b
  | .ne => a != b
  | .lt => intT n a < intT n b
  | .le => intT n a ≤ intT n b
  | .gt => intT n b < intT n a
  | .ge => intT n b ≤ intT n a

/-- An IEEE test: unordered satisfies ne only (R118). -/
def Cond.float (c : Cond) (a b : FVal) : Bool :=
  match a.cmp b with
  | none => c == .ne
  | some o =>
    match c with
    | .eq => o == .eq
    | .ne => o != .eq
    | .lt => o == .lt
    | .le => o != .gt
    | .gt => o == .gt
    | .ge => o != .lt

/-- Combination of the old bit with a test: 0 none, 1 and, 2 or, 3 xor (R73). -/
def combineBit (k : Nat) (old c : Bool) : Bool :=
  match k with
  | 0 => c
  | 1 => old && c
  | 2 => old || c
  | _ => old != c

/-- `pw` with one bit set to a value. -/
def setBit (pw : Word) (d : Nat) (b : Bool) : Word :=
  if b then pw ||| (BitVec.ofNat 32 (2 ^ d)) else pw &&& ~~~(BitVec.ofNat 32 (2 ^ d))

/-- The new `pw` of a compare that writes bit `d` (R73). -/
def cmpPw (pw : Word) (d k : Nat) (c : Bool) : Word := setBit pw d (combineBit k (pw.getLsbD d) c)

end Sys2Proof
end

