-- ==== Sys2Proof/Machine/FloatOps.lean ====
section
/-! DEFINITION. Typed floating-point, conversion and complex operations on register values (spec/06 R107 to R128). Values are
natural numbers: the operand's 32 or 64 bits. -/

namespace Sys2Proof

/-- The six float types by MOD code (R57, R107). -/
inductive FTy where
  | f32 | f16 | bf16 | f64 | f16x2 | bf16x2
deriving DecidableEq, Repr

/-- The type of a MOD field; codes above 5 do not pass the encoding checks. -/
def fTyOf (m : BitVec 4) : FTy :=
  match m.toNat with
  | 0 => .f32 | 1 => .f16 | 2 => .bf16 | 3 => .f64 | 4 => .f16x2 | _ => .bf16x2

/-- The format of one element. -/
def FTy.fmt : FTy → Fmt
  | .f32 => .f32 | .f16 | .f16x2 => .f16 | .bf16 | .bf16x2 => .bf16 | .f64 => .f64

def FTy.packed : FTy → Bool
  | .f16x2 | .bf16x2 => true
  | _ => false

/-- Whether operands are pairs and the result is 64 bits wide (R107). -/
def FTy.wide (t : FTy) : Bool := t == .f64

/-- Apply an element operation to the elements of a type (R107). -/
def FTy.map3 (t : FTy) (g : Nat → Nat → Nat → Nat) (a b c : Nat) : Nat :=
  if t.packed then
    g (a % 2 ^ 16) (b % 2 ^ 16) (c % 2 ^ 16) +
      2 ^ 16 * g (a / 2 ^ 16 % 2 ^ 16) (b / 2 ^ 16 % 2 ^ 16) (c / 2 ^ 16 % 2 ^ 16)
  else
    let w := 2 ^ t.fmt.width
    g (a % w) (b % w) (c % w)
def FTy.map2 (t : FTy) (g : Nat → Nat → Nat) (a b : Nat) : Nat := t.map3 (fun x y _ => g x y) a b 0
def FTy.map1 (t : FTy) (g : Nat → Nat) (a : Nat) : Nat := t.map3 (fun x _ _ => g x) a 0 0

/-! R111 to R116, R118 by type and mode (log 124, PRESUMED). -/
def fpAdd (t : FTy) (m : Mode) (a b : Nat) : Nat :=
  t.map2 (fun x y => t.fmt.rnd m 0 (FVal.sum (m == .rdn) [t.fmt.dec x, t.fmt.dec y])) a b
def fpSub (t : FTy) (m : Mode) (a b : Nat) : Nat :=
  t.map2 (fun x y => t.fmt.rnd m 0 (FVal.sum (m == .rdn) [t.fmt.dec x, (t.fmt.dec y).negate])) a b
def fpMul (t : FTy) (m : Mode) (a b : Nat) : Nat :=
  t.map2 (fun x y => t.fmt.rnd m 0 ((t.fmt.dec x).mul (t.fmt.dec y))) a b
def fpDiv (t : FTy) (m : Mode) (a b : Nat) : Nat :=
  t.map2 (fun x y => t.fmt.rnd m 0 ((t.fmt.dec x).div (t.fmt.dec y))) a b
def fpFma (t : FTy) (m : Mode) (a b c : Nat) : Nat :=
  t.map3 (fun x y z => t.fmt.rnd m 0 (FVal.sum (m == .rdn) [(t.fmt.dec x).mul (t.fmt.dec y), t.fmt.dec z])) a b c
def fpMinMax (mx : Bool) (t : FTy) (a b : Nat) : Nat := t.map2 (fminmax t.fmt mx) a b
def fpMinMaxp (mx : Bool) (t : FTy) (a b : Nat) : Nat := t.map2 (fminmaxp t.fmt mx) a b
def fpAbs (t : FTy) (a : Nat) : Nat := t.map1 (fabs t.fmt) a
def fpNeg (t : FTy) (a : Nat) : Nat := t.map1 (fneg t.fmt) a
/-- The class mask; the packed mask of element 1 stands in [25:16] (R117). -/
def fpCls (t : FTy) (a : Nat) : Nat := t.map1 (fun x => 2 ^ fclass t.fmt x) a
def fpRcp (t : FTy) (m : Mode) (a : Nat) : Nat :=
  t.map1 (fun x => t.fmt.rnd m 0 ((FVal.fin false 1 1).div (t.fmt.dec x))) a
def fpSqrt (t : FTy) (m : Mode) (a : Nat) : Nat := t.map1 (fun x => t.fmt.rnd m 0 ((t.fmt.dec x).sqrt t.fmt)) a
def fpRsq (t : FTy) (a : Nat) : Nat := t.map1 (fun x => t.fmt.rne ((t.fmt.dec x).rsq t.fmt)) a
def fpExp2 (t : FTy) (a : Nat) : Nat := t.map1 (fun x => fexp2 t.fmt (t.fmt.dec x)) a
def fpLog2 (t : FTy) (a : Nat) : Nat := t.map1 (fun x => flog2 t.fmt (t.fmt.dec x)) a
def fpSinp (t : FTy) (a : Nat) : Nat := t.map1 (fun x => fsinp t.fmt (t.fmt.dec x)) a
def fpCosp (t : FTy) (a : Nat) : Nat := t.map1 (fun x => fcosp t.fmt (t.fmt.dec x)) a
def fpFrc (t : FTy) (a : Nat) : Nat := t.map1 (fun x => ffrc t.fmt (t.fmt.dec x)) a
def fpRint (t : FTy) (m : Mode) (a : Nat) : Nat := t.map1 (fun x => frint t.fmt m (t.fmt.dec x)) a
/-- `ldexp` (R116): n is B as `.s32`, or B's 16-bit half of the same element. -/
def fpLdexp (t : FTy) (m : Mode) (a b : Nat) : Nat :=
  if t.packed then t.map2 (fun x n => fldexp t.fmt m (t.fmt.dec x) (BitVec.ofNat 16 n).toInt) a b
  else fldexp t.fmt m (t.fmt.dec a) (BitVec.ofNat 32 b).toInt
/-- A float compare on `pw` (R118): packed element 1 writes bit d + 1. -/
def fpCmpPw (c : Cond) (t : FTy) (pw : Word) (d k a b : Nat) : Word :=
  if t.packed then
    let c0 := c.float (t.fmt.dec (a % 2 ^ 16)) (t.fmt.dec (b % 2 ^ 16))
    let c1 := c.float (t.fmt.dec (a / 2 ^ 16)) (t.fmt.dec (b / 2 ^ 16))
    cmpPw (cmpPw pw d k c0) (d + 1) k c1
  else cmpPw pw d k (c.float (t.fmt.dec a) (t.fmt.dec b))

/-- The two components of a complex operand: halves of a register, or of a pair for `.f32` (R125). -/
def FTy.comps (t : FTy) (x : Nat) : FVal × FVal :=
  let h := if t.packed then 2 ^ 16 else 2 ^ 32
  (t.fmt.dec (x % h), t.fmt.dec (x / h % h))
/-- Two component codes as a complex operand. -/
def FTy.join (t : FTy) (re im : Nat) : Nat := re + (if t.packed then 2 ^ 16 else 2 ^ 32) * im

/-- `dot2` (R125): an FP32 result; without an addend the sum has two terms. -/
def fpDot2 (t : FTy) (m : Mode) (a b : Nat) (c : Option Nat) : Nat :=
  let x := t.comps a
  let y := t.comps b
  Fmt.f32.rnd m 0 (FVal.sum (m == .rdn) ([x.1.mul y.1, x.2.mul y.2] ++ (c.map Fmt.f32.dec).toList))

/-- The conjugate where asked. -/
def conjIf (c : Bool) (x : FVal × FVal) : FVal × FVal := if c then (x.1, x.2.negate) else x

/-- `cmul` (R126). -/
def fpCmul (t : FTy) (m : Mode) (conj : Bool) (a b c : Nat) : Nat :=
  let x := t.comps a
  let y := conjIf conj (t.comps b)
  let z := t.comps c
  let r := m == .rdn
  t.join (t.fmt.rnd m 0 (FVal.sum r [x.1.mul y.1, (x.2.mul y.2).negate, z.1]))
    (t.fmt.rnd m 0 (FVal.sum r [x.1.mul y.2, x.2.mul y.1, z.2]))

/-- `bfly` (R127): top and bottom. -/
def fpBfly (t : FTy) (dif conj : Bool) (a b c : Nat) : Nat × Nat :=
  let x := t.comps a
  let y := t.comps b
  let w := conjIf conj (t.comps c)
  let r (l : List FVal) : Nat := t.fmt.rne (FVal.sum false l)
  if dif then
    let dr := FVal.sum false [x.1, y.1.negate]
    let di := FVal.sum false [x.2, y.2.negate]
    (t.join (r [x.1, y.1]) (r [x.2, y.2]),
     t.join (r [dr.mul w.1, (di.mul w.2).negate]) (r [dr.mul w.2, di.mul w.1]))
  else
    let p := w.1.mul y.1
    let q := (w.2.mul y.2).negate
    let u := w.1.mul y.2
    let v := w.2.mul y.1
    (t.join (r [x.1, p, q]) (r [x.2, u, v]),
     t.join (r [x.1, p.negate, q.negate]) (r [x.2, u.negate, v.negate]))

/-- `twid` (R128): cos and sin of 2 pi k / 2^g; exact zeros are +0. -/
def fpTwid (t : FTy) (g k : Nat) : Nat :=
  let n := 2 ^ g
  let s := 2 * (k % n)
  t.join (fsinpi2 t.fmt ((2 * s + n) % (4 * n)) (2 * n)) (fsinpi2 t.fmt s n)

/-- The format of a code of R119, where it is a floating-point one. -/
def codeFmt (c : Nat) : Fmt :=
  match c with
  | 0 => .f32 | 1 | 11 => .f16 | 2 | 12 => .bf16 | 3 => .f64
  | 6 => .e4m3 | 7 => .e5m2 | 8 => .e3m2 | 9 => .e2m3 | _ => .e2m1

/-- The exact value of a `cvt` source element (R120). -/
def cvtSource (s x : Nat) : FVal :=
  if s == 4 then .ofInt false (BitVec.ofNat 32 x).toInt 1
  else if s == 5 then .ofInt false (BitVec.ofNat 32 x).toNat 1
  else (codeFmt s).dec x

/-- Infinities become the largest finite value where SATF asks (R120, R173). In `cvt` with S = T, R120's prose returns an infinite operand as it is and its
pseudocode saturates it: the pseudocode is followed (log 146, DESIGN CHOICE). -/
def satf (f : Fmt) (on : Bool) (c : Nat) : Nat :=
  if on && f.kind == .ieee && c % f.signBit == f.infMag then c - 1 else c

/-- One `cvt` element: source value to destination code (R97, R120). -/
def cvtElem (t : Nat) (m : Mode) (sat : Bool) (draw : Nat) (x : FVal) : Nat :=
  if t == 4 then (wrap32 (toIntClamp (-2 ^ 31) (2 ^ 31 - 1) m draw x)).toNat
  else if t == 5 then (wrap32 (toIntClamp 0 (2 ^ 32 - 1) m draw x)).toNat
  else satf (codeFmt t) sat ((codeFmt t).rnd m draw x)

/-- `cvt` (R120): the destination value from the source value; packed operands have two elements, which a pair of `.f32`
registers also holds. -/
def fpCvt (s t : Nat) (m : Mode) (sat : Bool) (seed lane a : Nat) : Nat :=
  let two := s == 11 || s == 12 || t == 11 || t == 12
  if two then
    let hs := if s == 0 then 2 ^ 32 else 2 ^ 16
    let ht := if t == 0 then 2 ^ 32 else 2 ^ 16
    cvtElem t m sat (srDraw seed lane 0) (cvtSource s (a % hs)) +
      ht * cvtElem t m sat (srDraw seed lane 1) (cvtSource s (a / hs % hs))
  else cvtElem t m sat (srDraw seed lane 0) (cvtSource s a)

end Sys2Proof
end

