-- ==== Sys2Proof/Config.lean ====
section
/-! DEFINITION. What the spec leaves open: free values. Each is an opaque constant without a body, so nothing can be proved of
the value it takes; the counter argument is State.free, which every draw advances (log 3, DESIGN CHOICE). -/

namespace Sys2Proof

/-- A free number: a value or a choice the spec leaves open (log 3, DESIGN CHOICE). -/
opaque Config.freeNat : Nat → Nat

/-- Ticks by which device time advances at a step (spec/18 R304; log 6, DESIGN CHOICE). -/
opaque Config.tickAdvance : Nat → Nat

/-- The activations at which a row is throttled: the threshold the firmware derives from the stack's reported limit, which no rule gives (spec/13 R247; log 33,
DESIGN CHOICE). -/
opaque Config.rowThreshold : Nat

/-- The nearest integer to a quotient `v / SCALE` when SCALE is a zero: R101 states none (log 7, DESIGN CHOICE). -/
opaque Config.quantByZero : Int → Nat → Int

/-- Bytes of a cryptographic answer (digest, signature, certificate) and the check of an image's signature, as functions of
what they are computed over (spec/25 R386 to R388; log 8, DESIGN CHOICE). -/
opaque Config.digest : List Byte → List Byte
opaque Config.signature : List Byte → List Byte
opaque Config.imageValid : List Byte → Bool

end Sys2Proof
end

