-- ==== Sys2Proof/Formats.lean ====
section
/-! DEFINITION. The five instruction formats (spec/03 R40) and the other operand types of `Instr`. -/

namespace Sys2Proof


/-- Format H, 16 bits (spec/03 R40); the operation is the constructor. -/
structure HF where
  nw : BitVec 1
  s : BitVec 5
  d : BitVec 5
deriving DecidableEq, Repr

/-- Format W, 32 bits (spec/03 R40). -/
structure WF where
  g : BitVec 1
  nw : BitVec 1
  b : BitVec 6
  a : BitVec 6
  d : BitVec 6
deriving DecidableEq, Repr

/-- Format WI, 32 bits (spec/03 R40). -/
structure WIF where
  imm8 : BitVec 8
  a : BitVec 6
  d : BitVec 6
deriving DecidableEq, Repr

/-- Format L, 64 bits (spec/03 R40). -/
structure LF where
  imm16 : BitVec 16
  mod : BitVec 4
  nw : BitVec 1
  gon : BitVec 1
  ginv : BitVec 1
  gbit : BitVec 5
  c : BitVec 6
  b : BitVec 6
  a : BitVec 6
  d : BitVec 6
deriving DecidableEq, Repr

/-- Format LI, 64 bits (spec/03 R40); `zero` is the field that must hold zero. -/
structure LIF where
  imm32 : BitVec 32
  zero : BitVec 3
  nw : BitVec 1
  mod : BitVec 4
  a : BitVec 6
  d : BitVec 6
deriving DecidableEq, Repr

/-- The seven sizes of `ld` and `lds`, in opcode order (spec/07 R133, R142). -/
inductive LdSize where
  | b8 | b16 | b32 | b64 | b128 | s8 | s16
deriving DecidableEq, Repr

/-- The five sizes of `st` and `sts`, in opcode order (spec/07 R133, R142). -/
inductive StSize where
  | b8 | b16 | b32 | b64 | b128
deriving DecidableEq, Repr

/-- The nine operations of `atom` and `atoms`, in opcode order (spec/07 R140, R142). -/
inductive AtomOp where
  | add | min | max | and | or | xor | xchg | cas | fadd
deriving DecidableEq, Repr

/-- The illegal-encoding codes of spec/03 R55 that a word or its decode entry can raise. -/
inductive IllCode where
  | marker | opcode | format | reserved | window | feature | dest | pair
deriving DecidableEq, Repr

/-- What an access does at its home, as a request carries it (spec/20 R331 MOD; spec/07 R133, R141; spec/09 R183). -/
inductive HomeOp where
  | read
  | write
  | wake
  | atom (op : AtomOp) (ty : BitVec 2)
  | sigAdd (recd : Bool)
  | sigSet (recd : Bool)
  | sigAbort
  | sigRead (wait : Bool)
deriving DecidableEq, Repr

/-- A fabric packet: the header fields of spec/20 R331 and the payload. The MOD field's bit layout is not given there: the
packet carries what MOD says (operation, size, order, scope) as plain data. -/
structure FabPkt where
  cid : DWord
  addr : BitVec 52
  srcdev : BitVec 12
  dstdev : BitVec 12
  pkey : BitVec 16
  seq : BitVec 24
  op : BitVec 8
  len : BitVec 5
  vc : BitVec 2
  homeOp : HomeOp
  size : Nat
  order : BitVec 2
  scope : BitVec 3
  plane : BitVec 5
  tag : BitVec 16
  zero7 : BitVec 7
  svf : BitVec 9
  zero16 : BitVec 16
  payload : List Byte
deriving DecidableEq, Repr

/-- A flit: the header of spec/20 R333 and the 64 data bytes it precedes. -/
structure FlitW where
  vc : BitVec 2
  sop : Bool
  eop : Bool
  cvc : BitVec 2
  cinc : BitVec 6
  lseq : BitVec 10
  lack : BitVec 10
  data : List Byte
deriving DecidableEq, Repr

/-- An invocation on its way (spec/22 R351, R353). -/
structure Invocation where
  handle : DWord
  image : DWord
  tk : Bool
  target : DWord
  argh : DWord
  vf : Nat
  pkey : BitVec 16
  cid : DWord
deriving DecidableEq, Repr

/-- Greenware messages (spec/22 R353 to R358): an invocation addressed to a handle, a dependant of a handle, an invocation
at its target, a query of `hwait`/`hstat` with its answer, the acceptance answers a sender sees, the place a message has been forwarded to; and a
GW_MSG packet of another device (spec/20 R332). -/
inductive GwMsg where
  | queued (dst : DWord) (i : Invocation)
  | dependant (argh : DWord) (i : Invocation)
  | run (i : Invocation)
  | fire (handle : DWord) (dev die : Nat) (op : DWord)
  | crack (handle : DWord) (code : Nat) (op : DWord)
  | query (handle : DWord) (ref : Nat) (vf : Nat) (wait : Bool) (srcdev : Nat)
  | answer (ref : Nat) (status : Word)
  | busy (dst : DWord) (i : Invocation) (dep : Bool)
  | accepted (dst : DWord) (handle : DWord)
  | located (handle : DWord) (dev die : Nat)
  | packet (p : FabPkt)
deriving DecidableEq, Repr

/-- Management-class messages (spec/20 R332, R403; spec/18 R318; spec/25 R393). What firmwares tell each other about exports and checkpoints
has no format in the spec: these are the model's own (log 35, DESIGN CHOICE). `vf` is the function at the device the message goes to, `ref` one
there. -/
inductive MgmtMsg where
  | waitRead (die : Nat)
  | unexportAck (vf : Nat)
  | partnerAnswer (vf : Nat) (ok : Bool)
  | reserve (ref : Nat) (bytes : Nat)
  | slotData (slot : Nat) (va : Nat) (data : List Byte)
  | slotComplete (ref : Nat) (slot : Nat) (epoch : Nat)
  | fillAsk (ref : Nat) (dev : Nat)
  | fillData (vf : Nat) (va : Nat) (data : List Byte)
  | fillEnd (vf : Nat) (epoch : Nat) (ok : Bool)
deriving DecidableEq, Repr

/-- What the fabric manager installs for a function through the management path (spec/20 R403): its partition key; an importer's stage-2
leaf with REM = 1 for a page of another device; the end of an import. -/
inductive FmInstall where
  | key (k : BitVec 16)
  | leaf (gpa : Nat) (dev : Nat) (addr : Nat) (w x : Bool)
  | withdraw (gpa : Nat)
deriving DecidableEq, Repr

/-- What is read through the management path (spec/18 R314, R318, R323; spec/22 R350): bytes of any ring, any die's wait table, the health counts, any
greenware entry. -/
inductive PathRead where
  | ring (id off : Nat)
  | waits (die : Nat)
  | health
  | green (die idx : Nat)
deriving DecidableEq, Repr

/-- What is read from outside the device (spec/25 R383): a register of BAR0, bytes of the function's own ring through BAR2, memory through BAR4; or
something through the management path. -/
inductive OutRead where
  | reg (off : Nat)
  | ring (off : Nat)
  | mem (gpa : Nat)
  | path (what : PathRead)
deriving DecidableEq, Repr

/-- What the Flue does (spec/18 R312, R313): it takes a source's oldest record to its ring, or a ring's writer writes the oldest record brought to it. -/
inductive FlueStep where
  | source (src : Nat)
  | writer (ring : Nat)
deriving DecidableEq, Repr

/-- What a debugger reads or writes of a fibre (spec/18 R325). -/
inductive DbgItem where
  | reg (n : Nat)
  | entry (core part lane n : Nat)
  | latch (n : Nat)
  | tag (n : Nat)
  | pc
  | breakpoint (slot : Nat)
  | attach
deriving DecidableEq, Repr

end Sys2Proof
end

