-- ==== Sys2Proof/Syntax.lean ====
section
/-! DEFINITION. The instruction set as syntax: one constructor of `Instr` per row of spec/opcode_table.json. Rows with an
encoding carry the fields of their format; `join` admits one word and `nop` two, with its guard and without: they carry none. The other rows are the machine's further
indivisible steps (spec/95): packets, commands, engine, firmware, fabric and host steps; each carries the operands that say
which object it acts on. -/

namespace Sys2Proof

inductive Instr where
  /-- MOV_H (R41): 16-bit form of mov: copies register S to D. -/
  | movH (f : HF)
  /-- ADD_S32_H (R41): 16-bit form of add.s32 with D as destination and first source. -/
  | addS32H (f : HF)
  /-- SUB_S32_H (R41): 16-bit form of sub.s32. -/
  | subS32H (f : HF)
  /-- MUL_S32_H (R41): 16-bit form of mul.s32. -/
  | mulS32H (f : HF)
  /-- AND_H (R41): 16-bit form of and. -/
  | andH (f : HF)
  /-- OR_H (R41): 16-bit form of or. -/
  | orH (f : HF)
  /-- XOR_H (R41): 16-bit form of xor. -/
  | xorH (f : HF)
  /-- SHL_H (R41): 16-bit form of shl. -/
  | shlH (f : HF)
  /-- SHR_H (R41): 16-bit form of shr. -/
  | shrH (f : HF)
  /-- SAR_H (R41): 16-bit form of sar. -/
  | sarH (f : HF)
  /-- ADD_F32_H (R41): 16-bit form of add.f32. -/
  | addF32H (f : HF)
  /-- SUB_F32_H (R41): 16-bit form of sub.f32. -/
  | subF32H (f : HF)
  /-- MUL_F32_H (R41): 16-bit form of mul.f32. -/
  | mulF32H (f : HF)
  /-- MIN_F32_H (R41): 16-bit form of min.f32. -/
  | minF32H (f : HF)
  /-- MAX_F32_H (R41): 16-bit form of max.f32. -/
  | maxF32H (f : HF)
  /-- NEG_F32_H (R41): 16-bit form of neg.f32 taking its operand from S. -/
  | negF32H (f : HF)
  /-- MOV_W (R68): Copies source A to D in each lane of exec. -/
  | movW (f : WF)
  /-- MOV_L (R68): 64-bit L form of mov. -/
  | movL (f : LF)
  /-- LI (R69): Writes IMM32 to D in every active lane. -/
  | li (f : LIF)
  /-- ADD_W (R67): Wrapping 32-bit add. -/
  | addW (f : WF)
  /-- ADD_WI (R67): Wrapping add with sign-extended IMM8. -/
  | addWi (f : WIF)
  /-- ADD_L (R67): L form of integer add, optionally with IMM16. -/
  | addL (f : LF)
  /-- SUB_W (R67): Wrapping 32-bit subtract. -/
  | subW (f : WF)
  /-- SUB_L (R67): L form of integer subtract. -/
  | subL (f : LF)
  /-- ADD_SAT_W (R67): Saturating add under the type. -/
  | addSatW (f : WF)
  /-- ADD_SAT_L (R67): L form of saturating add. -/
  | addSatL (f : LF)
  /-- SUB_SAT_W (R67): Saturating subtract. -/
  | subSatW (f : WF)
  /-- SUB_SAT_L (R67): L form of saturating subtract. -/
  | subSatL (f : LF)
  /-- MUL_W (R67): Wrapping 32-bit multiply. -/
  | mulW (f : WF)
  /-- MUL_WI (R67): Multiply by sign-extended IMM8. -/
  | mulWi (f : WIF)
  /-- MUL_L (R67): L form of integer multiply. -/
  | mulL (f : LF)
  /-- MULHI_W (R67): High word of the 64-bit product. -/
  | mulhiW (f : WF)
  /-- MULHI_L (R67): L form of mulhi. -/
  | mulhiL (f : LF)
  /-- MULW_W (R70): 64-bit product written to pair D. -/
  | mulwW (f : WF)
  /-- MULW_L (R70): L form of mulw. -/
  | mulwL (f : LF)
  /-- MAD (R70): 32-bit multiply-add. -/
  | mad (f : LF)
  /-- MADW (R70): 64-bit multiply-add into pair D. -/
  | madw (f : LF)
  /-- MIN_W (R67): Integer minimum under the type. -/
  | minW (f : WF)
  /-- MIN_WI (R67): Integer minimum with IMM8. -/
  | minWi (f : WIF)
  /-- MIN_L (R67): L form of integer minimum. -/
  | minL (f : LF)
  /-- MAX_W (R67): Integer maximum under the type. -/
  | maxW (f : WF)
  /-- MAX_WI (R67): Integer maximum with IMM8. -/
  | maxWi (f : WIF)
  /-- MAX_L (R67): L form of integer maximum. -/
  | maxL (f : LF)
  /-- ABS_W (R68): Wrapping absolute value. -/
  | absW (f : WF)
  /-- ABS_L (R68): L form of integer abs. -/
  | absL (f : LF)
  /-- NEG_W (R68): Wrapping negation. -/
  | negW (f : WF)
  /-- NEG_L (R68): L form of integer neg. -/
  | negL (f : LF)
  /-- AND_W (R67): Bitwise and. -/
  | andW (f : WF)
  /-- AND_WI (R67): Bitwise and with IMM8. -/
  | andWi (f : WIF)
  /-- AND_L (R67): L form of and. -/
  | andL (f : LF)
  /-- OR_W (R67): Bitwise or. -/
  | orW (f : WF)
  /-- OR_WI (R67): Bitwise or with IMM8. -/
  | orWi (f : WIF)
  /-- OR_L (R67): L form of or. -/
  | orL (f : LF)
  /-- XOR_W (R67): Bitwise exclusive or. -/
  | xorW (f : WF)
  /-- XOR_WI (R67): Bitwise xor with IMM8. -/
  | xorWi (f : WIF)
  /-- XOR_L (R67): L form of xor. -/
  | xorL (f : LF)
  /-- ANDN_W (R67): a and not b. -/
  | andnW (f : WF)
  /-- ANDN_L (R67): L form of andn. -/
  | andnL (f : LF)
  /-- NOT_W (R68): Bitwise complement. -/
  | notW (f : WF)
  /-- NOT_L (R68): L form of not. -/
  | notL (f : LF)
  /-- SHL_W (R67): Shift left, zero for amounts of 32 or more. -/
  | shlW (f : WF)
  /-- SHL_WI (R67): Shift left by zero-extended IMM8. -/
  | shlWi (f : WIF)
  /-- SHL_L (R67): L form of shl. -/
  | shlL (f : LF)
  /-- SHR_W (R67): Logical shift right. -/
  | shrW (f : WF)
  /-- SHR_WI (R67): Logical shift right by IMM8. -/
  | shrWi (f : WIF)
  /-- SHR_L (R67): L form of shr. -/
  | shrL (f : LF)
  /-- SAR_W (R67): Arithmetic shift right. -/
  | sarW (f : WF)
  /-- SAR_WI (R67): Arithmetic shift right by IMM8. -/
  | sarWi (f : WIF)
  /-- SAR_L (R67): L form of sar. -/
  | sarL (f : LF)
  /-- ROT_W (R67): Rotate left by b mod 32. -/
  | rotW (f : WF)
  /-- ROT_WI (R67): Rotate left by IMM8. -/
  | rotWi (f : WIF)
  /-- ROT_L (R67): L form of rot. -/
  | rotL (f : LF)
  /-- BFX (R71): Extracts a bit field. -/
  | bfx (f : LF)
  /-- BFI (R71): Inserts a bit field. -/
  | bfi (f : LF)
  /-- POPC_W (R68): Population count. -/
  | popcW (f : WF)
  /-- POPC_L (R68): L form of popc. -/
  | popcL (f : LF)
  /-- CLZ_W (R68): Count leading zeros. -/
  | clzW (f : WF)
  /-- CLZ_L (R68): L form of clz. -/
  | clzL (f : LF)
  /-- CTZ_W (R68): Count trailing zeros. -/
  | ctzW (f : WF)
  /-- CTZ_L (R68): L form of ctz. -/
  | ctzL (f : LF)
  /-- BREV_W (R68): Bit reversal. -/
  | brevW (f : WF)
  /-- BREV_L (R68): L form of brev. -/
  | brevL (f : LF)
  /-- BSEL (R72): Bitwise select between B and C under A. -/
  | bsel (f : LF)
  /-- CMP_EQ_W (R73): Sets pw bit d to a == b. -/
  | cmpEqW (f : WF)
  /-- CMP_NE_W (R73): Sets pw bit d to a != b. -/
  | cmpNeW (f : WF)
  /-- CMP_LT_W (R73): Sets pw bit d to a < b. -/
  | cmpLtW (f : WF)
  /-- CMP_LE_W (R73): Sets pw bit d to a <= b. -/
  | cmpLeW (f : WF)
  /-- CMP_GT_W (R73): Sets pw bit d to a > b. -/
  | cmpGtW (f : WF)
  /-- CMP_GE_W (R73): Sets pw bit d to a >= b. -/
  | cmpGeW (f : WF)
  /-- CMP_EQ_WI (R73): Compare equal with IMM8. -/
  | cmpEqWi (f : WIF)
  /-- CMP_NE_WI (R73): Compare not equal with IMM8. -/
  | cmpNeWi (f : WIF)
  /-- CMP_LT_WI (R73): Compare less than with IMM8. -/
  | cmpLtWi (f : WIF)
  /-- CMP_LE_WI (R73): Compare less or equal with IMM8. -/
  | cmpLeWi (f : WIF)
  /-- CMP_GT_WI (R73): Compare greater than with IMM8. -/
  | cmpGtWi (f : WIF)
  /-- CMP_GE_WI (R73): Compare greater or equal with IMM8. -/
  | cmpGeWi (f : WIF)
  /-- CMP_EQ_L (R73): L form of integer cmp.eq with combination. -/
  | cmpEqL (f : LF)
  /-- CMP_NE_L (R73): L form of integer cmp.ne. -/
  | cmpNeL (f : LF)
  /-- CMP_LT_L (R73): L form of integer cmp.lt. -/
  | cmpLtL (f : LF)
  /-- CMP_LE_L (R73): L form of integer cmp.le. -/
  | cmpLeL (f : LF)
  /-- CMP_GT_L (R73): L form of integer cmp.gt. -/
  | cmpGtL (f : LF)
  /-- CMP_GE_L (R73): L form of integer cmp.ge. -/
  | cmpGeL (f : LF)
  /-- SEL (R72): Selects a or b by a pw bit. -/
  | sel (f : LF)
  /-- ADD64 (R74): 64-bit wrapping add of pairs. -/
  | add64 (f : LF)
  /-- LEA64 (R74): Pair plus shifted 32-bit index. -/
  | lea64 (f : LF)
  /-- ADD_F32_W (R111): Float add, rounded once. -/
  | addF32W (f : WF)
  /-- ADD_FLOAT_L (R111): L form of float add with type and mode. -/
  | addFloatL (f : LF)
  /-- SUB_F32_W (R111): Float subtract. -/
  | subF32W (f : WF)
  /-- SUB_FLOAT_L (R111): L form of float subtract. -/
  | subFloatL (f : LF)
  /-- MUL_F32_W (R111): Float multiply. -/
  | mulF32W (f : WF)
  /-- MUL_FLOAT_L (R111): L form of float multiply. -/
  | mulFloatL (f : LF)
  /-- FMA (R111): Fused multiply-add, rounded once. -/
  | fma (f : LF)
  /-- MIN_F32_W (R112): minimumNumber. -/
  | minF32W (f : WF)
  /-- MIN_FLOAT_L (R112): L form of float min. -/
  | minFloatL (f : LF)
  /-- MAX_F32_W (R112): maximumNumber. -/
  | maxF32W (f : WF)
  /-- MAX_FLOAT_L (R112): L form of float max. -/
  | maxFloatL (f : LF)
  /-- MINP_W (R112): IEEE minimum, NaN-propagating. -/
  | minpW (f : WF)
  /-- MINP_L (R112): L form of minp. -/
  | minpL (f : LF)
  /-- MAXP_W (R112): IEEE maximum, NaN-propagating. -/
  | maxpW (f : WF)
  /-- MAXP_L (R112): L form of maxp. -/
  | maxpL (f : LF)
  /-- ABS_F32_W (R113): Clears the sign of a float. -/
  | absF32W (f : WF)
  /-- ABS_FLOAT_L (R113): L form of float abs. -/
  | absFloatL (f : LF)
  /-- NEG_F32_W (R113): Inverts the sign of a float. -/
  | negF32W (f : WF)
  /-- NEG_FLOAT_L (R113): L form of float neg. -/
  | negFloatL (f : LF)
  /-- CLS_W (R117): Writes a float class mask. -/
  | clsW (f : WF)
  /-- CLS_L (R117): L form of cls. -/
  | clsL (f : LF)
  /-- CMP_EQ_F32_W (R118): Float compare equal into pw bit d. -/
  | cmpEqF32W (f : WF)
  /-- CMP_NE_F32_W (R118): Float compare not equal. -/
  | cmpNeF32W (f : WF)
  /-- CMP_LT_F32_W (R118): Float compare less than. -/
  | cmpLtF32W (f : WF)
  /-- CMP_LE_F32_W (R118): Float compare less or equal. -/
  | cmpLeF32W (f : WF)
  /-- CMP_GT_F32_W (R118): Float compare greater than. -/
  | cmpGtF32W (f : WF)
  /-- CMP_GE_F32_W (R118): Float compare greater or equal. -/
  | cmpGeF32W (f : WF)
  /-- CMP_EQ_FLOAT_L (R118): L form of float cmp.eq. -/
  | cmpEqFloatL (f : LF)
  /-- CMP_NE_FLOAT_L (R118): L form of float cmp.ne. -/
  | cmpNeFloatL (f : LF)
  /-- CMP_LT_FLOAT_L (R118): L form of float cmp.lt. -/
  | cmpLtFloatL (f : LF)
  /-- CMP_LE_FLOAT_L (R118): L form of float cmp.le. -/
  | cmpLeFloatL (f : LF)
  /-- CMP_GT_FLOAT_L (R118): L form of float cmp.gt. -/
  | cmpGtFloatL (f : LF)
  /-- CMP_GE_FLOAT_L (R118): L form of float cmp.ge. -/
  | cmpGeFloatL (f : LF)
  /-- RCP_W (R114): Correctly rounded reciprocal. -/
  | rcpW (f : WF)
  /-- RCP_L (R114): L form of rcp. -/
  | rcpL (f : LF)
  /-- RSQ_W (R114): Correctly rounded reciprocal square root. -/
  | rsqW (f : WF)
  /-- RSQ_L (R114): L form of rsq. -/
  | rsqL (f : LF)
  /-- SQRT_W (R114): Correctly rounded square root. -/
  | sqrtW (f : WF)
  /-- SQRT_L (R114): L form of sqrt. -/
  | sqrtL (f : LF)
  /-- DIV_W (R114): Correctly rounded division. -/
  | divW (f : WF)
  /-- DIV_L (R114): L form of div. -/
  | divL (f : LF)
  /-- EXP2_W (R115): Correctly rounded 2^a. -/
  | exp2W (f : WF)
  /-- EXP2_L (R115): L form of exp2. -/
  | exp2L (f : LF)
  /-- LOG2_W (R115): Correctly rounded log2 a. -/
  | log2W (f : WF)
  /-- LOG2_L (R115): L form of log2. -/
  | log2L (f : LF)
  /-- SINP_W (R115): Correctly rounded sin(pi a). -/
  | sinpW (f : WF)
  /-- SINP_L (R115): L form of sinp. -/
  | sinpL (f : LF)
  /-- COSP_W (R115): Correctly rounded cos(pi a). -/
  | cospW (f : WF)
  /-- COSP_L (R115): L form of cosp. -/
  | cospL (f : LF)
  /-- FRC_W (R116): Fractional part. -/
  | frcW (f : WF)
  /-- FRC_L (R116): L form of frc. -/
  | frcL (f : LF)
  /-- RINT_W (R116): Round to integral value. -/
  | rintW (f : WF)
  /-- RINT_L (R116): L form of rint. -/
  | rintL (f : LF)
  /-- LDEXP_W (R116): a times 2^n. -/
  | ldexpW (f : WF)
  /-- LDEXP_L (R116): L form of ldexp. -/
  | ldexpL (f : LF)
  /-- DOT2 (R125): Packed two-element dot product plus addend into FP32. -/
  | dot2 (f : LF)
  /-- CMUL (R126): Complex multiply-add. -/
  | cmul (f : LF)
  /-- BFLY (R127): Radix-2 butterfly. -/
  | bfly (f : LF)
  /-- TWID (R128): Writes a correctly rounded twiddle factor. -/
  | twid (f : LF)
  /-- CVT (R120): Converts between formats under a rounding mode. -/
  | cvt (f : LF)
  /-- PK_W (R121): Packs the low halves of A and B. -/
  | pkW (f : WF)
  /-- PK_L (R121): L form of pk, including pk.hi. -/
  | pkL (f : LF)
  /-- UPK_W (R121): Unpacks two halves into pair D. -/
  | upkW (f : WF)
  /-- UPK_L (R121): L form of upk, including upk.hi. -/
  | upkL (f : LF)
  /-- QBLK (R122): Quantises one block across the cohort's lanes. -/
  | qblk (f : LF)
  /-- DQBLK (R123): Decodes the elements of one block. -/
  | dqblk (f : LF)
  /-- SHUF_IDX_W (R147): Takes A from lane b & 31. -/
  | shufIdxW (f : WF)
  /-- SHUF_IDX_L (R147): L form of shuf.idx. -/
  | shufIdxL (f : LF)
  /-- SHUF_UP_W (R147): Takes A from lane l - b. -/
  | shufUpW (f : WF)
  /-- SHUF_UP_L (R147): L form of shuf.up. -/
  | shufUpL (f : LF)
  /-- SHUF_DN_W (R147): Takes A from lane l + b. -/
  | shufDnW (f : WF)
  /-- SHUF_DN_L (R147): L form of shuf.dn. -/
  | shufDnL (f : LF)
  /-- SHUF_XOR_W (R147): Takes A from lane l ^ b. -/
  | shufXorW (f : WF)
  /-- SHUF_XOR_L (R147): L form of shuf.xor. -/
  | shufXorL (f : LF)
  /-- VOTE_ANY_W (R148): OR of a pw bit over sources into pw bit d. -/
  | voteAnyW (f : WF)
  /-- VOTE_ANY_L (R148): L form of vote.any. -/
  | voteAnyL (f : LF)
  /-- VOTE_ALL_W (R148): AND of a pw bit over sources into pw bit d. -/
  | voteAllW (f : WF)
  /-- VOTE_ALL_L (R148): L form of vote.all. -/
  | voteAllL (f : LF)
  /-- VOTE_BAL_W (R148): Ballot mask of a pw bit over sources. -/
  | voteBalW (f : WF)
  /-- VOTE_BAL_L (R148): L form of vote.bal. -/
  | voteBalL (f : LF)
  /-- REDC_ADD_W (R149): Sum of A over the cohort's sources. -/
  | redcAddW (f : WF)
  /-- REDC_ADD_L (R149): L form of redc.add with type. -/
  | redcAddL (f : LF)
  /-- REDC_MIN_W (R149): Minimum of A over sources. -/
  | redcMinW (f : WF)
  /-- REDC_MIN_L (R149): L form of redc.min. -/
  | redcMinL (f : LF)
  /-- REDC_MAX_W (R149): Maximum of A over sources. -/
  | redcMaxW (f : WF)
  /-- REDC_MAX_L (R149): L form of redc.max. -/
  | redcMaxL (f : LF)
  /-- LD (R133): Load of 1 to 16 bytes per lane, with .nc, .rz and acquire variants. -/
  | ld (z : LdSize) (f : LF)
  /-- ST (R133): Store of 1 to 16 bytes per lane, with .wake and release variants. -/
  | st (z : StSize) (f : LF)
  /-- LDS (R142): Scratchpad load by offset. -/
  | lds (z : LdSize) (f : LF)
  /-- STS (R142): Scratchpad store by offset. -/
  | sts (z : StSize) (f : LF)
  /-- SLDT (R144): Swizzled scratchpad column load. -/
  | sldt (f : LF)
  /-- ATOM (R141): Read-modify-write at the home, returning the old value. -/
  | atom (z : AtomOp) (f : LF)
  /-- ATOMS (R142): Scratchpad atomic. -/
  | atoms (z : AtomOp) (f : LF)
  /-- PF (R145): Prefetch into stack cache or L1. -/
  | pf (f : LF)
  /-- CPA (R151): Per-fibre copy into the scratchpad counted under a tag. -/
  | cpa (f : LF)
  /-- CPW (R153): Holds the cohort until a tag counter is at most n. -/
  | cpw (f : WF)
  /-- CPQ (R154): Reads a tag counter. -/
  | cpq (f : WF)
  /-- BCOPY (R157): Starts a bulk copy from a descriptor. -/
  | bcopy (f : LF)
  /-- LEASE (R163): Asks home stack caches to pin a range. -/
  | lease (f : LF)
  /-- UNLEASE (R164): Ends a lease. -/
  | unlease (f : WF)
  /-- MTASK (R165): Issues a tile task to the matrix engine. -/
  | mtask (f : LF)
  /-- ACCZ (R173): Queues zeroing of accumulator rows. -/
  | accz (f : LF)
  /-- ACCLD (R173): Queues a load of accumulator rows from scratchpad. -/
  | accld (f : LF)
  /-- ACCST (R173): Queues a store of accumulator rows to scratchpad. -/
  | accst (f : LF)
  /-- ACCDRAIN (R173): Queues a converting drain of accumulator rows. -/
  | accdrain (f : LF)
  /-- BR (R76): Unconditional relative branch. -/
  | br (f : LIF)
  /-- BC_T (R76): Branch where a pw bit is 1; may split the cohort. -/
  | bcT (f : LIF)
  /-- BC_F (R76): Branch where a pw bit is 0. -/
  | bcF (f : LIF)
  /-- BRX (R77): Indirect branch to pair A. -/
  | brx (f : WF)
  /-- CALL (R77): Writes the link and branches. -/
  | call (f : LIF)
  /-- RET (R77): Return to pair A. -/
  | ret (f : WF)
  /-- FORK (R82): Creates a fibre per lane of exec. -/
  | fork (f : LF)
  /-- HALT (R83): Ends the fibre of each lane of exec. -/
  | halt (f : WF)
  /-- YIELD (R84): Moves the cohort behind every ready cohort. -/
  | yield (f : WF)
  /-- TRAP (R86): Parks every active lane with TRAP_USER n. -/
  | trap (f : WIF)
  /-- BRK (R86): Breakpoint: holds under a debugger or parks with BREAK. -/
  | brk (f : WIF)
  /-- BAR (R178): Arrives at a crew barrier and waits for its phase. -/
  | bar (f : WIF)
  /-- BAR_ARV (R178): Arrives at a crew barrier without waiting. -/
  | barArv (f : WIF)
  /-- BAR_WT (R178): Waits for the phase of an earlier arrival. -/
  | barWt (f : WIF)
  /-- GBAR (R179): Group barrier across crews. -/
  | gbar (f : WIF)
  /-- FENCE (R180): Scoped acquire, release or both. -/
  | fence (f : WIF)
  /-- VFENCE (R181): Waits for decoded-view writes and discards L1 lines of the ASID. -/
  | vfence (f : WF)
  /-- SIG_ADD (R183): Atomic clamped add to a signal. -/
  | sigAdd (f : LF)
  /-- SIG_SET (R183): Sets a signal, or applies an abort write under ABT. -/
  | sigSet (f : LF)
  /-- SIG_READ (R183): Reads a signal. -/
  | sigRead (f : LF)
  /-- SIGW (R184): Waits on a signal condition, optionally timed. -/
  | sigw (f : LF)
  /-- ENQ (R186): Device-side producer sequence for one packet. -/
  | enq (f : LF)
  /-- WWAIT (R187): Arms a wake entry and sleeps until a wake write. -/
  | wwait (f : LF)
  /-- CTR_ADD (R189): Adds to a receive counter, firing held sends. -/
  | ctrAdd (f : LF)
  /-- CTR_READ (R189): Reads a receive counter. -/
  | ctrRead (f : LF)
  /-- CTR_SET (R189): Sets a receive counter and clears ERR. -/
  | ctrSet (f : LF)
  /-- TSEND (R190): Arms a triggered send from a send record. -/
  | tsend (f : LF)
  /-- INVOKE (R193): Mints a greenware handle and starts an invocation. -/
  | invoke (f : LF)
  /-- HWAIT (R194): Waits until a handle fires or cracks. -/
  | hwait (f : LF)
  /-- HSTAT (R194): Queries a handle's state. -/
  | hstat (f : LF)
  /-- TIME (R195): Writes the DTC to pair D. -/
  | timeI (f : WF)
  /-- EVT (R196): Emits a user event record. -/
  | evt (f : LF)
  /-- PERF (R197): Reads, and optionally clears, a core counter. -/
  | perf (f : LF)
  /-- SYSR (R198): Reads a system value. -/
  | sysr (f : WIF)
  /-- RESREQ (R199): Asks the firmware to make a page resident. -/
  | resreq (f : LF)
  /-- JOIN (R81): Holds the cohort until its join group has no running lane. -/
  | join
  /-- NOP (R84): Shifts the latches only. -/
  | nop
  /-- NOP (R84): Shifts the latches only, under a guard that reads `pw` (R48, R50). -/
  | nopG
  /-- DOORBELL (R19): Write to DBELL makes the device re-read a queue's head slot. -/
  | doorbell (vf : Nat) (value : DWord)
  /-- PACKET_FETCH (R17): Device fetches a published slot, checks it and advances RDIDX. -/
  | packetFetch (q : Nat)
  /-- KERNEL_PACKET (R27): A KERNEL packet starts and launches its grid. -/
  | kernelPacket (p : Nat)
  /-- GRAPH_PACKET (R285): A GRAPH packet starts; Wheels read and check the graph. -/
  | graphPacket (p : Nat)
  /-- COPY_PACKET (R27): A COPY packet starts a copy. -/
  | copyPacket (p : Nat)
  /-- TILE_PACKET (R27): A TILE packet runs one tile task. -/
  | tilePacket (p : Nat)
  /-- COLLECTIVE_PACKET (R342): A COLLECTIVE packet starts a collective participant. -/
  | collectivePacket (p : Nat)
  /-- INVOKE_PACKET (R27): An INVOKE packet mints a handle and stores it. -/
  | invokePacket (p : Nat)
  /-- BARRIER_ALL (R10): A BARRIER_ALL packet starts and first evaluates its list. -/
  | barrierAll (p : Nat)
  /-- BARRIER_ANY (R28): A BARRIER_ANY packet starts and evaluates its list. -/
  | barrierAny (p : Nat)
  /-- BARRIER_EVALUATE (R28): A waiting barrier packet re-evaluates after an update reaches a listed signal. -/
  | barrierEvaluate (p : Nat)
  /-- BARRIER_PACKET_TIMEOUT (R29): A barrier packet's witness cone expires; it aborts with TIMEOUT. -/
  | barrierPacketTimeout (p : Nat)
  /-- SIGNAL_SET (R27): A SIGNAL packet stores VALUE at TARGET. -/
  | signalSet (p : Nat)
  /-- SIGNAL_DEC (R27): A SIGNAL packet decrements TARGET under R11. -/
  | signalDec (p : Nat)
  /-- QUEUE_DRAIN (R35): Firmware drains an ABORTED queue, completing packets with UPSTREAM. -/
  | queueDrain (q : Nat)
  /-- QUEUE_MAP (R37): Scheduler maps a waiting queue to a hardware slot. -/
  | queueMap (slot : Nat)
  /-- QUANTUM_END (R38): A mapped queue's quantum ends, possibly unmapping it. -/
  | quantumEnd (slot : Nat)
  /-- PRIORITY_AGING (R37): Each 20 ms of waiting raises a queue's effective priority. -/
  | priorityAging (q : Nat)
  /-- QUEUE_CREATE (R36): Command creating a queue descriptor. -/
  | queueCreate (vf : Nat)
  /-- QUEUE_RESET (R35): Command draining and resetting an ABORTED queue. -/
  | queueReset (vf : Nat)
  /-- QUEUE_SET (R36): Command changing PRIO and FLAGS. -/
  | queueSet (vf : Nat)
  /-- QUEUE_DESTROY (R36): Command destroying an IDLE or ABORTED queue. -/
  | queueDestroy (vf : Nat)
  /-- DECODE_LOAD (R53): Command loading a decode map 3-7. -/
  | decodeLoad (vf : Nat)
  /-- REGION_SET (R241): Command writing a view-region register. -/
  | regionSet (vf : Nat)
  /-- REGION_CLEAR (R241): Command invalidating a view region. -/
  | regionClear (vf : Nat)
  /-- TEMPLATE_SET (R301): Command writing a copy template slot. -/
  | templateSet (vf : Nat)
  /-- TEMPLATE_CLEAR (R301): Command emptying a template slot. -/
  | templateClear (vf : Nat)
  /-- GEN_BUMP (R270): Command asking for a stage-1 generation bump. -/
  | genBump (vf : Nat)
  /-- RES_DONE (R384): Driver answer to a stage-1 residency request. -/
  | resDone (vf : Nat)
  /-- RESRING_SET (R384): Command naming the residency ring. -/
  | resringSet (vf : Nat)
  /-- KILL (R368): Command ending the grids of a queue or an ASID with KILLED. -/
  | kill (vf : Nat)
  /-- TRACE_LEVEL (R311): PF command setting a function's trace level. -/
  | traceLevel (vf : Nat)
  /-- RING_SIZE (R314): PF command sizing a function's Saggar ring. -/
  | ringSize (vf : Nat)
  /-- SAGGAR_READ (R402): Command copying Saggar records to memory. -/
  | saggarRead (vf : Nat)
  /-- SAGGAR_CLEAR (R316): PF command emptying a function's ring. -/
  | saggarClear (vf : Nat)
  /-- WAIT_READ (R402): Command copying wait-table records. -/
  | waitRead (vf : Nat)
  /-- SAMPLE_SET (R320): Command setting the sampling rate and buffer. -/
  | sampleSet (vf : Nat)
  /-- PERF_SELECT (R322): Command choosing counter events. -/
  | perfSelect (vf : Nat)
  /-- PERF_READ (R322): Command reading shared counters. -/
  | perfRead (vf : Nat)
  /-- HEALTH_READ (R323): PF command reading health counts. -/
  | healthRead (vf : Nat)
  /-- CHECK_READ (R402): Command copying the barrier checker's log. -/
  | checkRead (vf : Nat)
  /-- DBG_ATTACH (R325): PF command attaching a debugger to a context. -/
  | dbgAttach (vf : Nat)
  /-- GREEN_READ (R350): Command reading a greenware table entry. -/
  | greenRead (vf : Nat)
  /-- GREEN_QUOTA (R356): PF command setting handle quota and retention. -/
  | greenQuota (vf : Nat)
  /-- COMM_CREATE (R339): Command creating a communicator. -/
  | commCreate (vf : Nat)
  /-- COMM_ADMIT (R344): Command readmitting an excluded rank. -/
  | commAdmit (vf : Nat)
  /-- CKPT_SET (R393): Command reserving partner checkpoint slots. -/
  | ckptSet (vf : Nat)
  /-- CKPT_TAKE (R393): Command copying the state set to the partner. -/
  | ckptTake (vf : Nat)
  /-- CKPT_TAKE_DONE (R393): The checkpoint copy completes; slot marked complete, CSIG decremented. -/
  | ckptTakeDone (vf : Nat)
  /-- CKPT_READ (R393): Command copying a drained slot from partner flash. -/
  | ckptRead (vf : Nat)
  /-- SPARE_FILL (R393): Command filling a spare from a checkpoint. -/
  | spareFill (vf : Nat)
  /-- SPARE_FILL_DONE (R393): A spare fill completes or fails with 0x8001. -/
  | spareFillDone (vf : Nat) (sourceOk : Bool)
  /-- EXPORT (R403): Command exporting memory to the partition key. -/
  | exportMem (vf : Nat)
  /-- UNEXPORT (R403): Command withdrawing an export from importers. -/
  | unexportMem (vf : Nat)
  /-- UNEXPORT_TIMEOUT (R403): UNEXPORT completes after 200 ms without all answers. -/
  | unexportTimeout (vf : Nat)
  /-- PART_SET (R376): PF command choosing spatial or temporal partitioning. -/
  | partSet (vf : Nat)
  /-- VF_SLICE (R376): PF command setting a VF's slice. -/
  | vfSlice (vf : Nat)
  /-- VF_QUOTA (R377): PF command setting a VF's quotas. -/
  | vfQuota (vf : Nat)
  /-- VF_RESET (R378): Command performing a function-level reset. -/
  | vfReset (vf : Nat)
  /-- PROFILE_SET (R392): PF command changing the firing profile. -/
  | profileSet (vf : Nat)
  /-- PROFILE_PAUSE_END (R392): The profile-change pause ends and sysr 22 changes. -/
  | profilePauseEnd
  /-- IMAGE_STAGE (R387): PF command verifying and storing a firmware image. -/
  | imageStage (vf : Nat)
  /-- IMAGE_ACTIVATE (R387): PF command marking a monitor for the next warm reset. -/
  | imageActivate (vf : Nat)
  /-- SCHED_PIN (R387): Command moving a VF's scheduler pin. -/
  | schedPin (vf : Nat)
  /-- FLUSH_INBOUND (R264): FLUSH with OP 1 orders earlier BAR writes. -/
  | flushInbound (vf : Nat) (value : DWord)
  /-- FLUSH_OUTBOUND (R264): FLUSH with OP 2 discards the read-ahead buffer. -/
  | flushOutbound (vf : Nat) (value : DWord)
  /-- FLUSH_BOTH (R264): FLUSH with OP 3 performs both. -/
  | flushBoth (vf : Nat) (value : DWord)
  /-- FLUSH_DONE (R264): A flush completes and FLSTAT takes its SEQ. -/
  | flushDone (vf : Nat)
  /-- FEATURE_COMMIT (R385): Write of 1 to FEATCTL[0] commits or refuses FEATACC. -/
  | featureCommit (vf : Nat)
  /-- REGISTER_WRITE (R383): Write to a BAR0 register without behaviour of its own. -/
  | registerWrite (vf : Nat) (offset : Nat) (value : DWord)
  /-- BAR_WRITE (R264): Posted host write through the memory BAR. -/
  | barWrite (vf : Nat) (gpa : Nat) (data : List Byte)
  /-- BAR_READ (R264): Host read through the memory BAR via the read-ahead buffer. -/
  | barRead (vf : Nat) (what : OutRead) (n : Nat)
  /-- HOST_WINDOW_ACCESS (R263): Host CXL access to the coherent window. -/
  | hostWindowAccess (offset : Nat) (n : Nat) (write : Option (List Byte))
  /-- ACCESS_PERFORMED (R249): An access is performed at its home. -/
  | accessPerformed (ref : Nat)
  /-- RESPONSE_ARRIVAL (R50): A load, token or status lands in its register. -/
  | responseArrival (ref : Nat)
  /-- ERROR_RESPONSE (R398): An error response parks the lane at its next boundary. -/
  | errorResponse (ref : Nat)
  /-- CPA_LAND (R152): A per-fibre copy lands and is credited in issue order. -/
  | cpaLand (ref : Nat)
  /-- WAKE_DELIVERY (R187): A wake reaches a core and releases its waits on the line. -/
  | wakeDelivery (ref : Nat)
  /-- SIGW_EVALUATE (R184): A waiting sigw re-evaluates after an update to its signal. -/
  | sigwEvaluate (fibre : Nat)
  /-- SIGW_TIMEOUT (R185): A timed sigw's cone expires. -/
  | sigwTimeout (fibre : Nat)
  /-- HWAIT_TIMEOUT (R194): A timed hwait ends with TIMEOUT. -/
  | hwaitTimeout (fibre : Nat)
  /-- JOIN_RELEASE (R81): Held cohorts of a join group merge and continue. -/
  | joinRelease (crew part jgrp : Nat)
  /-- COHORT_MERGE (R79): Core merges two cohorts at one program counter with void latches. -/
  | cohortMerge (a b : Nat)
  /-- LATE_WRITE_SPLIT (R215): After LLWAIT cycles of mixed busy state the cohort splits. -/
  | lateWriteSplit (cohort : Nat)
  /-- BANK_DROWSY (R223): A register bank unaccessed for 4,096 cycles becomes drowsy. -/
  | bankDrowsy (core part bank : Nat)
  /-- CREW_START (R207): Dispatcher places a crew on a core. -/
  | crewStart (grid core part : Nat)
  /-- CREW_RETIRE (R212): A crew's fibres have halted and its operations completed. -/
  | crewRetire (crew : Nat)
  /-- GRID_KILL (R367): Firmware kills a grid with FAULT. -/
  | gridKill (grid : Nat)
  /-- HANDLER_FIBRE_START (R366): Core starts a handler fibre for a parked lane. -/
  | handlerFibreStart (fibre : Nat)
  /-- HANDLER_WINDOW_TIMEOUT (R366): No window frees within 1 ms; grid killed. -/
  | handlerWindowTimeout (fibre : Nat)
  /-- COPY_START (R160): A copy channel starts its next entry. -/
  | copyStart (chan : Nat)
  /-- COPY_DONE (R161): A bulk copy completes and acts on its completion kind. -/
  | copyDone (chan : Nat)
  /-- CHANNEL_ACCEPT (R299): A waiting entry is accepted when the channel frees room. -/
  | channelAccept (chan : Nat)
  /-- APERTURE_START (R300): A START store to an aperture starts a template copy. -/
  | apertureStart (ref : Nat)
  /-- APERTURE_JOIN (R302): A JOIN store places a join entry. -/
  | apertureJoin (ref : Nat)
  /-- TILE_ISSUE (R170): Matrix engine starts a queued tile task. -/
  | tileIssue (core : Nat)
  /-- TILE_DONE (R170): A tile task completes and writes its token. -/
  | tileDone (core : Nat)
  /-- ACC_OP_DONE (R174): A queued accumulator operation completes. -/
  | accOpDone (core : Nat)
  /-- NODE_DISPATCH (R289): A ready node is checked and accepted by its engine. -/
  | nodeDispatch (graph node : Nat)
  /-- NODE_DONE (R287): A node's work and release flush complete. -/
  | nodeDone (graph node : Nat)
  /-- NODE_SCRATCHPAD_RESERVE (R285): Node scratchpad reserved on a core once it has room. -/
  | nodeScratchpadReserve (graph : Nat)
  /-- DIE_ISOLATION (R297): A die is isolated; its crews and nodes are lost or adopted. -/
  | dieIsolation (die : Nat)
  /-- DIE_BOUNDARY_FAILURE (R235): A die boundary fails and traffic reroutes. -/
  | dieBoundaryFailure (boundary : Nat)
  /-- BOUNDARY_MOVE (R230): Every 65,536 cycles the scratchpad/L1 boundary moves. -/
  | boundaryMove (core boundary : Nat)
  /-- PATROL_SCRUB (R244): Patrol scrub reads and corrects granules. -/
  | patrolScrub (stack granule : Nat)
  /-- SCRUB_PENDING_ZERO (R275): Scrub engine zeroes a marked granule and clears its mark. -/
  | scrubPendingZero (granule : Nat)
  /-- CHANNEL_FAILURE (R245): A channel fails and the firmware retires it. -/
  | channelFailure (stack ch : Nat)
  /-- GRANULE_MOVE (R245): Re-layout moves the next granule behind the cursor. -/
  | granuleMove (stack : Nat)
  /-- REFRESH_MANAGEMENT (R247): Refresh-management command ends a row's throttle. -/
  | refreshManagement (stack ch row : Nat)
  /-- THROTTLE_RETRY (R247): A refused throttled request is resent. -/
  | throttleRetry (ref : Nat)
  /-- GENERATION_BUMP (R262): Firmware sets a new generation at every home. -/
  | generationBump (asid : Nat)
  /-- PAGE_MIGRATION (R274): Firmware moves a page to a new frame. -/
  | pageMigration (vf gpa frame : Nat)
  /-- FRAME_REASSIGN (R275): Firmware passes a frame to another function. -/
  | frameReassign (frame bytes fromVf toVf toGpa : Nat)
  /-- RESIDENCY_REQUEST (R273): Firmware serves a resreq. -/
  | residencyRequest (ref : Nat)
  /-- RESIDENCY_WAIT_TIMEOUT (R273): Driver answer not received in time; token DENIED. -/
  | residencyWaitTimeout (ref : Nat)
  /-- STAGE2_REPAIR (R268): Firmware repairs a stage-2 fault and resumes or kills. -/
  | stage2Repair (fibre : Nat)
  /-- LEASE_EXPIRE (R164): A lease's time runs out. -/
  | leaseExpire (lease : Nat)
  /-- PREEMPT_HALT (R371): A pre-emption request halts the context's cores. -/
  | preemptHalt (ctx reason : Nat)
  /-- CTX_SAVED (R371): The context image is written after drains. -/
  | ctxSaved (ctx : Nat)
  /-- CTX_RESTORED (R371): Every crew of the context is placed and loaded. -/
  | ctxRestored (ctx : Nat) (cores : List (Nat × Nat))
  /-- MIGRATE_FWD (R362): Old core forwards an item to the migrated crew. -/
  | migrateFwd (core : Nat)
  /-- FORWARD_ENTRY_REMOVAL (R362): Forwarding entry removed 1 ms after CTX_RESTORED. -/
  | forwardEntryRemoval (core crew : Nat)
  /-- MOVE (R363): Home replaces a wake registration with the new core. -/
  | moveReg (line fromCore toCore : Nat)
  /-- SLICE_END (R376): A slice ends and a world switch may follow. -/
  | sliceEnd (vf : Nat)
  /-- READ (R337): Fabric READ request arrives at the destination. -/
  | fabRead (p : FabPkt)
  /-- WRITE (R337): Fabric WRITE request arrives. -/
  | fabWrite (p : FabPkt)
  /-- WRITE_WAKE (R338): Fabric wake write arrives. -/
  | fabWriteWake (p : FabPkt)
  /-- ATOMIC (R337): Fabric atomic request arrives. -/
  | fabAtomic (p : FabPkt)
  /-- RESP_DATA (R332): Read or atomic data returns. -/
  | respData (p : FabPkt)
  /-- RESP_ACK (R338): A remote write is acknowledged as applied. -/
  | respAck (p : FabPkt)
  /-- RESP_ERR (R337): A remote access is refused. -/
  | respErr (p : FabPkt)
  /-- CTR_INC (R192): A send's RCTR increment arrives at the destination counter. -/
  | ctrInc (p : FabPkt)
  /-- COLL_DATA (R342): Collective data from a peer arrives. -/
  | collData (p : FabPkt)
  /-- COLL_RED (R343): Contribution arrives at a reducing switch. -/
  | collRed (p : FabPkt)
  /-- COLL_MCAST (R343): Switch result arrives at a participant. -/
  | collMcast (p : FabPkt)
  /-- COLL_DONE (R342): A participant's DST writes are applied. -/
  | collDone (coll rank : Nat)
  /-- WITNESS_EXPIRE (R344): A collective witness cone expires. -/
  | witnessExpire (coll rank : Nat)
  /-- GW_MSG (R353): A greenware message arrives at an entry or target. -/
  | gwMsg (die : Nat) (m : GwMsg)
  /-- HANDLE_FIRE (R354): A fire reaches an UNFIRED entry. -/
  | handleFire (die index : Nat) (dev ldie : Nat) (op : DWord)
  /-- HANDLE_CRACK (R354): A crack reaches an entry and spreads. -/
  | handleCrack (die index : Nat) (code : Nat) (op : DWord)
  /-- GREEN_RETRY (R355): Every 2 µs the oldest refused message is resent. -/
  | greenRetry (die : Nat) (handle : DWord)
  /-- RETENTION_END (R356): A final entry's retention ends and it becomes FREE. -/
  | retentionEnd (die index : Nat)
  /-- GREEN_ORIGIN_TIMEOUT (R358): Origin die gives no answer within 200 µs. -/
  | greenOriginTimeout (ref : Nat)
  /-- MGMT (R332): Management packet served by the management controller. -/
  | mgmt (p : FabPkt) (m : MgmtMsg)
  /-- DTC_SAMPLE (R305): A neighbour's DTC sample arrives. -/
  | dtcSample (port : Nat) (offset : Int) (locked : Bool)
  /-- DTC_SAMPLE_SEND (R305): Each millisecond a link exchanges DTC samples. -/
  | dtcSampleSend (port : Nat)
  /-- LOST (R394): LOST management packet declares a device or die lost. -/
  | lost (dev : Nat) (die : Option Nat)
  /-- FAB_TIMEOUT (R337): A remote request has no response after 200 µs. -/
  | fabTimeout (tag : Nat)
  /-- SEQ_GAP_TIMEOUT (R330): A SEQ gap persists 100 µs; buffered packets are refused. -/
  | seqGapTimeout (src plane : Nat)
  /-- LINK_RETRY_TIMEOUT (R333): Link retry timer expires; flits resent from LACK + 1. -/
  | linkRetryTimeout (port : Nat)
  /-- LINK_WIDTH (R335): Lane loss or error rate narrows a port. -/
  | linkWidth (port lanes : Nat)
  /-- LINK_STEP_UP (R335): Every 10 s a narrowed port tries to widen. -/
  | linkStepUp (port : Nat) (passed : Bool)
  /-- REMOTE_SIGNAL_POLL (R338): An excess remote sigw waiter polls every 20 µs. -/
  | remoteSignalPoll (fibre : Nat)
  /-- PTP_MESSAGE (R305): IEEE 1588 message arrives on the management port. -/
  | ptpMessage (offset : Int)
  /-- TIME_STEP_DEFERRED (R306): A waiting backward step is taken when no context is live. -/
  | timeStepDeferred
  /-- HOLDOVER (R305): Loss of every time source enters holdover. -/
  | holdover
  /-- TEPOCH_WRITE (R304): Fabric manager writes the fabric epoch. -/
  | tepochWrite (seconds : DWord)
  /-- FLUE_WRITE (R312): The Flue writes a record into its ring. -/
  | flueWrite (what : FlueStep)
  /-- POWER_SAMPLE (R392): Every 100 µs power is sampled and the cap applied. -/
  | powerSample (watts : Nat)
  /-- POWER_GOOD (R389): Cold bring-up from power good. -/
  | powerGood (badStacks : BitVec 16) (monitorOk : Bool)
  /-- WARM_RESET (R389): Warm reset retrains and resets every function. -/
  | warmReset (requester : DWord) (badStacks : BitVec 16) (monitorOk : Bool)
  /-- PCIE_FLR (R378): PCIe function-level reset of a function. -/
  | pcieFlr (vf : Nat)
  /-- MODULE_POWER_LOSS (R316): Loss of module power empties every ring. -/
  | modulePowerLoss
  /-- MONITOR_READY_TIMEOUT (R387): New monitor not ready within 2 s; ROM boots previous slot. -/
  | monitorReadyTimeout
  /-- DEBUG_READ (R325): Debugger reads fibre state. -/
  | debugRead (asid fibre : Nat) (what : DbgItem)
  /-- DEBUG_WRITE (R325): Debugger writes a held fibre's register. -/
  | debugWrite (asid fibre : Nat) (what : DbgItem) (value : DWord)
  /-- DEBUG_STEP (R325): Debugger releases a held cohort for one issue. -/
  | debugStep (asid cohort : Nat)
  /-- DEBUG_RELEASE (R86): Debugger lets a held cohort go. -/
  | debugRelease (asid cohort : Nat)
  /-- GET_VERSION (R388): SPDM GET_VERSION request. -/
  | getVersion (req : List Byte)
  /-- GET_CAPABILITIES (R388): SPDM GET_CAPABILITIES request. -/
  | getCapabilities (req : List Byte)
  /-- NEGOTIATE_ALGORITHMS (R388): SPDM NEGOTIATE_ALGORITHMS request. -/
  | negotiateAlgorithms (req : List Byte)
  /-- GET_DIGESTS (R388): SPDM GET_DIGESTS request. -/
  | getDigests (req : List Byte)
  /-- GET_CERTIFICATE (R388): SPDM GET_CERTIFICATE request. -/
  | getCertificate (req : List Byte)
  /-- CHALLENGE (R388): SPDM CHALLENGE request. -/
  | challenge (req : List Byte)
  /-- GET_MEASUREMENTS (R388): SPDM GET_MEASUREMENTS request. -/
  | getMeasurements (req : List Byte)
  /-- UNDEFINED_OPCODE (R54): An instruction word whose decode entry is undefined parks every active lane with ILL_OPCODE. -/
  | undefinedOpcode (code : IllCode)
  /-- FLIT (R333): A flit, idle or carrying a packet, arrives on a link; it is checked for FEC and link sequence, its LACK frees retry-buffer entries and its CINC returns credits. -/
  | flit (port : Nat) (f : FlitW) (intact : Bool)
  /-- PAGE_EVICTION (R273): The firmware copies a resident page to its backing, clears RES in the stage-2 leaf and bumps the generation. -/
  | pageEviction (vf gpa : Nat)
  /-- SLOT_DRAIN_DONE (R393): The partner finishes draining a complete checkpoint slot to its module flash, making it the copy that CKPT_READ returns. -/
  | slotDrainDone (dev slot : Nat)
  /-- PKEY_INSTALL (R403): The fabric manager installs a function's partition key, or an importer's stage-2 leaves with REM = 1, through the management path. -/
  | pkeyInstall (vf : Nat) (what : FmInstall)
  /-- PTP_DOMAIN_SET (R305): The management path sets the IEEE 1588 domain number that the clock uses and that TSTAT reports. -/
  | ptpDomainSet (domain : BitVec 8)
  /-- PLUGIN_CALL_TIMEOUT (R380): A policy plug-in call that runs longer than 20 µs is abandoned, the default order is used and the failure is counted. -/
  | pluginCallTimeout (vf : Nat)
deriving DecidableEq, Repr

end Sys2Proof
end

