-- ==== Sys2Proof/Machine/State.lean ====
section
/-! DEFINITION. The state of one device as plain data, the reasons a step can stop, and the state after reset. -/

namespace Sys2Proof.Machine

/-- Width mark of a latch (spec/03 R45). -/
inductive LMark where
  | void | w32 | w64
deriving DecidableEq, Repr

/-- A bypass latch: 64 bits and a width mark (spec/03 R45). -/
structure Latch where
  mark : LMark
  val : DWord
deriving DecidableEq, Repr

/-- A clock stamp: per die and home stack (16 + d: the coherent-window slice of die d), a count of writes (spec/14 R251). -/
abbrev Stamp := List (Nat × Nat × Nat)

/-- The fields of a fault record (spec/24 R364). -/
structure FaultRec where
  code : Nat
  pc : DWord
  arg : DWord
  aux : Nat
  s2 : Bool
  op : DWord
  core : Nat
  slot : Nat
  part : Nat
  lane : Nat
  idx : Nat
deriving DecidableEq, Repr

/-- A parked lane: its record, where RESUME with the record's PC continues, whether its handler fibre has started, the identifier of
its LANE_PARK, and device time from which its wait for a handler's window counts (spec/24 R366). -/
structure Parked where
  frec : FaultRec
  resume : DWord
  started : Bool
  lp : DWord
  since : Nat
deriving DecidableEq, Repr

/-- A wait in `sigw` (spec/09 R184, R185): the address, condition, comparand, cone, destination register, acquire scope, the
last value read and where the lane continues. -/
structure SigWait where
  va : DWord
  spa : Nat
  dev : Option Nat
  cond : Nat
  cmp : DWord
  deadline : Option Nat
  reg : Nat
  scope : Nat
  last : DWord
  next : DWord
deriving DecidableEq, Repr

/-- A wait in `wwait` (spec/09 R187): the arming's number, the line of storage, the address, the expected value. -/
structure WakeWait where
  arm : Nat
  line : Nat
  va : DWord
  expected : DWord
  reg : Nat
  scope : Nat
  next : DWord
deriving DecidableEq, Repr

/-- A wait in `hwait` (spec/09 R194); `ref` names the query in flight. -/
structure HandleWait where
  handle : DWord
  deadline : Option Nat
  reg : Nat
  ref : Nat
  next : DWord
deriving DecidableEq, Repr

/-- What a fibre is doing (spec/24 R373 STATE). `heldIssue`: its part of an engine instruction has been accepted, the rest of its cohort
still waits for room (R160, R165). `replay`: parked with STALE_GEN until these accesses have been performed again (R132). A halted fibre stays only while a write to its window is outstanding (R83). -/
inductive FStatus where
  | ready
  | heldJoin
  | waitBar (n : Nat)
  | waitGbar (g : Nat)
  | waitSig (w : SigWait)
  | waitWake (w : WakeWait)
  | waitHandle (w : HandleWait)
  | waitTag (tag n : Nat) (counts : Bool)
  | heldIssue
  | replay (refs : List Nat)
  | parked (p : Parked)
  | debugHeld
  | halted
deriving DecidableEq, Repr

/-- An outstanding per-fibre copy, in issue order (spec/08 R152), with the stamp of what it has read (spec/14 R260). -/
structure TagCopy where
  tag : Nat
  ref : Nat
  landed : Bool
  st : Stamp
deriving DecidableEq, Repr

/-- An error response that will park the lane at its next boundary (spec/07 R398, spec/08 R156); `pc`: where the record's PC is not that
boundary. -/
structure Deferred where
  code : Nat
  arg : DWord
  aux : Nat
  pc : Option DWord
deriving DecidableEq, Repr

/-- A fibre (spec/03 R49; spec/11 R210, R216, R224). `frontier`, `acqSet`: R251, R256; `credit`: what credited copies have read, for the next
`cpw` or `cpq` (R260); `relScope`: its next store or atomic is a release at that scope (R254); `unfenced`: what it has written through decoded views
since its last `vfence` (R259). -/
structure Fibre where
  id : Nat
  crew : Nat
  idx : Nat
  part : Nat
  lane : Nat
  wb : Nat
  ws : Nat
  map : Nat
  pc : DWord
  regs : List Word
  badParity : List Nat
  dup : List (Nat × Word)
  busy : List (Nat × Nat)
  b0 : Latch
  b1 : Latch
  b2 : Latch
  copies : List TagCopy
  jgrp : Nat
  cohort : Nat
  status : FStatus
  handlerFor : Option Nat
  deferred : List Deferred
  frontier : Stamp
  acqSet : List Nat
  credit : Stamp
  relScope : Option Nat
  unfenced : List Nat
  scr : List (Nat × Byte)
deriving DecidableEq, Repr

/-- A crew barrier (spec/09 R177, R178): phase number, outstanding arrivals (fibre, phase of the arrival), what the arrivals of a phase have seen
(spec/14 R255). -/
structure CrewBar where
  num : Nat
  phase : Nat
  arr : List (Nat × Nat)
  sts : List (Nat × Stamp)
deriving DecidableEq, Repr

/-- What launched a grid or other work (spec/02, spec/17, spec/22). -/
inductive WorkSrc where
  | packet (p : Nat)
  | node (graph node : Nat)
  | invoked (handle : DWord) (die : Nat)
deriving DecidableEq, Repr

/-- A crew on a core (spec/11 R207 to R212). `ops` counts operations of its fibres still owed beside accesses and copies. -/
structure Crew where
  id : Nat
  grid : Nat
  linear : Nat
  core : Nat
  slot : Nat
  nStart : Nat
  scrBase : Nat
  scrSize : Nat
  scratch : List Host.Cell
  bars : List CrewBar
  nextJgrp : Nat
deriving DecidableEq, Repr

/-- A group of a grid (spec/09 R179, spec/11 R217): its crews, phase, the fibres that wait in `gbar`. -/
structure GroupSt where
  num : Nat
  crews : List Nat
  phase : Nat
  arrived : List Nat
deriving DecidableEq, Repr

/-- A grid: kernel descriptor fields (spec/11 R205), launch fields (spec/02 R26), and its progress (R207, R212, R213): `next` is the next crew to place, `queued` those to be placed again. `doom`: the
firmware is to kill it, with this code and cause; `killed`: it has been. -/
structure Grid where
  id : Nat
  src : WorkSrc
  op : DWord
  vf : Nat
  asid : Nat
  entry : DWord
  handler : DWord
  scratch : Nat
  l1floor : Nat
  ws : Nat
  crewf : Nat
  map : Nat
  groupsMax : Nat
  llwait : Nat
  gx : Nat
  gy : Nat
  gz : Nat
  cx : Nat
  cy : Nat
  cz : Nat
  args : DWord
  retry : Bool
  detail : Bool
  coresident : Bool
  groups : List GroupSt
  dies : Nat
  next : Nat
  queued : List Nat
  retired : List Nat
  dieLost : Bool
  doom : Option (Nat × DWord)
  killed : Option Nat
deriving DecidableEq, Repr

/-- One entry of a decode map a context has loaded (spec/03 R51): map, index, value; absent entries read 0xFFFF. -/
structure MapEntry where
  map : Nat
  idx : Nat
  val : Nat
deriving DecidableEq, Repr

/-- The context's state (spec/24 R371). -/
inductive CtxState where
  | running | halting | saved | restoring
deriving DecidableEq, Repr

/-- A line of L1 (spec/13 R229): address space, line VA, the 64 bytes as filled. -/
structure L1Line where
  asid : Nat
  va : Nat
  data : List Byte
deriving DecidableEq, Repr

/-- An armed entry of a core's wake table (spec/09 R187). -/
structure WakeEntry where
  line : Nat
  asid : Nat
  waiters : List Nat
deriving DecidableEq, Repr

/-- A forwarding entry (spec/23 R362): the crew that left, its context, its new core once it is restored, the time and the operation of
that restoration, the lines it waits on, the items held for it with the identifiers they carry. -/
structure FwdEntry where
  crew : Nat
  asid : Nat
  vf : Nat
  dst : Option Nat
  since : Option Nat
  op : DWord
  lines : List Nat
  held : List (Nat × DWord)
deriving DecidableEq, Repr

/-- Who awaits an engine operation's completion: a token register of a fibre (`reg` 63: none), a packet or a graph node. -/
inductive Waiter where
  | token (fibre reg ref : Nat)
  | packet (p : Nat)
  | node (graph node : Nat)
  | nobody
deriving DecidableEq, Repr

/-- A tile-task record's fields (spec/08 R166). -/
structure TileRec where
  xmask : Nat
  bsgs : Nat
  bsbase : Nat
  bcs : Nat
  bbase : Nat
  asrs : Nat
  asbase : Nat
  acs : Nat
  ars : Nat
  abase : Nat
  kv : Nat
  n : Nat
  m : Nat
  arb : Nat
  init : Bool
  gb : Nat
  ga : Nat
  fmtb : Nat
  fmta : Nat
deriving DecidableEq, Repr

/-- An operation of the matrix engine (spec/08 R165, R173). Rows: first row, row count, column count. -/
inductive MxKind where
  | tile (t : TileRec)
  | accz (r0 m n : Nat)
  | accld (r0 m n off : Nat)
  | accst (r0 m n off : Nat)
  | drain (r0 m n off fmt mode : Nat) (satf : Bool) (scale : Option Nat)
deriving DecidableEq, Repr

/-- A queued operation with its next chunk (spec/08 R171, R172); `crew` names the scratchpad it works in, `scr` the node
scratchpad where it has no crew. -/
structure MxOp where
  id : Nat
  kind : MxKind
  crew : Option Nat
  scrBase : Nat
  scrSize : Nat
  vf : Nat
  asid : Nat
  op : DWord
  waiter : Waiter
  started : Bool
  chunk : Nat
  drain : Option (DWord × Nat)
deriving DecidableEq, Repr

/-- A core whose state differs from an idle core's (spec/13 R228 to R231, spec/09 R187, R197). `eccScr`, `eccB`: the 8-byte
words of core SRAM and B-store that ECC cannot correct; `eccAcc`: the elements of the accumulator store that stand in such a word. -/
structure Core where
  num : Nat
  ctx : Option Nat
  boundary : Nat
  l1 : List L1Line
  perfEvents : List Nat
  perfCounts : List Nat
  wake : List WakeEntry
  fwd : List FwdEntry
  nodeScr : List (Nat × Nat × Nat)
  nodeScratch : List Host.Cell
  mxq : List MxOp
  bstore : List Host.Cell
  acc : List (Nat × Word)
  eccScr : List Nat
  eccB : List Nat
  eccAcc : List Nat
  outOfService : Bool
  issueCount : Nat
deriving DecidableEq, Repr

/-- What an access does at its home (spec/07 R133, R141, R135; spec/09 R183; spec/20 R331). Write data are bytes by position,
so that bytes a higher lane of the same store overwrites can be left out (R134). -/
inductive MemOp where
  | read (size : Nat)
  | write (data : List (Nat × Byte)) (wake : Bool)
  | atom (op : AtomOp) (ty : BitVec 2) (wide : Bool) (b c : DWord)
  | sigAdd (b : DWord)
  | sigSet (v : DWord)
  | sigAbort (code : Nat)
  | sigDec
  | sigRead (wait : Bool)
deriving DecidableEq, Repr

/-- Where a landing result goes: registers of a fibre from `reg` on, the bytes sign-extended from `sext` bits (0: zero-extended), the
`pw` bit of `.rz` that is cleared with it (spec/07 R133, R136). -/
structure Dest where
  fibre : Nat
  reg : Nat
  words : Nat
  sext : Nat
  flag : Option Nat
deriving DecidableEq, Repr

/-- The answer a home or the fabric has given (spec/07 R398, R132). `held`: a store or atomic to a page that migrates waits in the translation unit (spec/15
R274); `failed`: turned back, and its replay fails a check: it is made again when the lane's handler resumes it there (R131, R132). -/
inductive Resp where
  | none
  | ok (val : List Byte) (stamp : Stamp) (applied : List (Nat × Nat))
  | err (code : Nat)
  | stale
  | retry
  | held
  | failed
deriving DecidableEq, Repr

/-- Who made an access. -/
inductive Agent where
  | fibre (f : Nat)
  | host (vf : Nat)
  | port (src : Nat)
  | engine
deriving DecidableEq, Repr

/-- An access that has left its source and is not yet answered (spec/07 R134; spec/14 R249 to R256). `needs`: accesses that come
first (R256); `req`: what earlier responses have taught the fibre (R252); `done`, `got`: elements of a view access performed so
far, `half` the codes (true) or the scales of the next ones, `gotSt` their stamps, `seen` the writes its home had applied at the first of
them (R240, R252). -/
structure Access where
  ref : Nat
  agent : Agent
  pc : DWord
  die : Nat
  vf : Nat
  asid : Nat
  gen : Nat
  va : DWord
  spa : Nat
  dev : Option Nat
  op : MemOp
  dest : Option Dest
  order : Nat
  scope : Nat
  nc : Bool
  cpa : Bool
  scrOff : Nat
  scrLen : Nat
  group : Nat
  needs : List Nat
  req : Stamp
  sent : Bool
  done : Nat
  got : List Byte
  half : Option (Bool × List Nat)
  gotSt : Stamp
  seen : Option (List (Nat × Nat))
  resp : Resp
  replays : Nat
  opid : DWord
deriving DecidableEq, Repr

/-- A result an engine or the firmware still owes a register (spec/11 R225): `val` once it is decided; `token`: the stamp of the operation a token
stands for (spec/14 R260). -/
structure Owed where
  ref : Nat
  fibre : Nat
  reg : Nat
  words : Nat
  isTime : Bool
  val : Option DWord
  token : Option Stamp
deriving DecidableEq, Repr

/-- A combined TLB entry (spec/15 R269). -/
structure TlbEntry where
  cluster : Nat
  vf : Nat
  asid : Nat
  gen : Nat
  va : Nat
  size : Nat
  spa : Nat
  dev : Option Nat
  w : Bool
  x : Bool
  mig : Bool
deriving DecidableEq, Repr

/-- A table entry in the walk caches of a cluster (spec/15 R269): stage 2, or a stage-1 entry that is no leaf; its address and what it held. -/
structure WalkEntry where
  cluster : Nat
  vf : Nat
  asid : Nat
  gen : Nat
  stage : Nat
  place : Nat
  val : Nat
deriving DecidableEq, Repr

/-- A page of a function that is being moved to a frame (spec/15 R274): MIG is set in its leaf. -/
structure Migration where
  vf : Nat
  gpa : Nat
  frame : Nat
deriving DecidableEq, Repr

/-- A line of the coherent window that the host caches (spec/14 R263): whether its back-invalidation is on its way. -/
structure HostLine where
  line : Nat
  data : List Byte
  inval : Bool
deriving DecidableEq, Repr

/-- An event record (spec/18 R309); its DTC is taken when it is made. -/
structure Rec where
  code : Nat
  arg : Nat
  vf : Nat
  src : Nat
  op : DWord
  cause : DWord
  dtc : Nat
deriving DecidableEq, Repr

/-- The state of a queue (spec/02 R15, R34). -/
inductive QState where
  | idle | active | blocked | aborted | unmapped
deriving DecidableEq, Repr

/-- A queue as the device holds it (spec/02 R15, R34 to R38); `desc` is the descriptor's place in memory (its WRIDX lives there),
`look`: the device is to read the head slot (R19), `pubs`: by ring index the work whose `enq` published the packet (R401). -/
structure Queue where
  qnum : Nat
  vf : Nat
  asid : Nat
  descVa : DWord
  desc : Nat
  ring : DWord
  logsz : Nat
  prio : Nat
  effPrio : Nat
  enqOk : Bool
  state : QState
  rdidx : Nat
  abort : DWord
  abcid : DWord
  slot : Option Nat
  waitSince : Nat
  mappedAt : Nat
  look : Bool
  pubs : List (Nat × DWord)
deriving DecidableEq, Repr

/-- How far a fetched packet is (spec/01 R9, spec/02 R24, R27). `ending`: its work is done but for writes of operation `op` to another device, which its
release awaits. -/
inductive PktState where
  | fetched | running | waiting
  | ending (op : DWord)
deriving DecidableEq, Repr

/-- A fetched packet: its queue (65536: one destroyed since) with that queue's function and address space, the device's copy of its 64 bytes (spec/02 R17), its identifier, the cause of its start, and what its work has
become; a waiting barrier packet watches the homes of its signals (R28). -/
structure Packet where
  id : Nat
  queue : Nat
  vf : Nat
  asid : Nat
  index : Nat
  bytes : List Byte
  op : DWord
  cause : DWord
  state : PktState
  watch : List Nat
  since : Nat
  deadline : Option Nat
  lastOp : DWord
deriving DecidableEq, Repr

/-- A copy descriptor's fields (spec/08 R158). -/
structure CopyDesc where
  siga : DWord
  node : Nat
  lease : Nat
  dstride : Nat
  sstride : Nat
  chan : Nat
  ck : Nat
  skind : Nat
  dkind : Nat
  rows : Nat
  rbytes : Nat
  dst : DWord
  src : DWord
deriving DecidableEq, Repr

/-- What a channel entry does: a copy, or a join on earlier entries (spec/17 R302). -/
inductive EntryKind where
  | copy (d : CopyDesc)
  | join (entries : List Nat)
deriving DecidableEq, Repr

/-- An entry of a copy channel (spec/08 R160, spec/17 R299 to R302). `core`, `crew` give the local stores it names, `owner` the crew whose operation it is
(spec/11 R212); `row` is
the next row to copy, `status` the first failure, `outstanding` its accesses to other devices, `tmpl` the template it was started
from. -/
structure ChanEntry where
  id : Nat
  kind : EntryKind
  vf : Nat
  asid : Nat
  core : Nat
  crew : Option Nat
  owner : Option Nat
  op : DWord
  waiter : Waiter
  detail : Bool
  accepted : Bool
  started : Bool
  row : Nat
  status : Nat
  outstanding : List Nat
  tmpl : Option Nat
deriving DecidableEq, Repr

/-- An image of a context (spec/24 R372 to R374): the header's fields, and its records: crews, fibres (times as microseconds that
remain), cores with their stores and matrix queues, copy entries with their channels, wake lines with the cores registered for them, held accesses
(spec/15 R274). -/
structure Image where
  layout : Nat
  digestOk : Bool
  gen : Nat
  cor : Bool
  cid : DWord
  dtc : Nat
  crews : List Crew
  fibres : List Fibre
  cores : List Core
  entries : List (Nat × ChanEntry)
  accesses : List Access
deriving DecidableEq, Repr

/-- An address space of a function and what belongs to it (spec/14 R262, spec/24 R369 to R374, spec/18 R325). `stepping`: fibres the
debugger has let go past a breakpoint, by fibre: 0 released, 1 to be held behind its next issue, 2 has issued and is to be held. -/
structure Ctx where
  asid : Nat
  vf : Nat
  gen : Nat
  root : Nat
  state : CtxState
  maps : List MapEntry
  attached : Bool
  breakpoints : List (Nat × DWord)
  stepping : List (Nat × Nat)
  image : Option Image
  preOp : DWord
  priority : Nat
deriving DecidableEq, Repr

/-- A copy template (spec/17 R301). -/
structure Template where
  idx : Nat
  vf : Nat
  asid : Nat
  desc : CopyDesc
deriving DecidableEq, Repr

/-- A copy channel: 4 x cluster + channel (spec/08 R160). -/
structure Channel where
  num : Nat
  entries : List ChanEntry
  templates : List Template
deriving DecidableEq, Repr

/-- A lease (spec/08 R163, R164) with the physical pages it pins, but for those on stacks that a re-layout has unpinned (spec/13 R242). -/
structure Lease where
  id : Nat
  vf : Nat
  asid : Nat
  va : DWord
  bytes : Nat
  pages : List Nat
  expiry : Nat
  unpinned : List Nat
deriving DecidableEq, Repr

/-- A receive counter that differs from zero (spec/09 R189). -/
structure Counter where
  die : Nat
  idx : Nat
  count : Nat
  err : Bool
deriving DecidableEq, Repr

/-- How far a triggered send is (spec/09 R191, R192). -/
inductive SendState where
  | held | fired | incSent
deriving DecidableEq, Repr

/-- A triggered send (spec/09 R190). -/
structure Send where
  id : Nat
  vf : Nat
  asid : Nat
  die : Nat
  src : DWord
  dst : DWord
  bytes : Nat
  tctr : Nat
  thresh : Nat
  rctr : Nat
  rinc : Nat
  lctr : Nat
  linc : Nat
  wake : Bool
  dev : Option Nat
  state : SendState
  op : DWord
  outstanding : List Nat
deriving DecidableEq, Repr

/-- The records a source holds for the Flue, oldest first (spec/18 R312). -/
structure FlueQ where
  src : Nat
  recs : List Rec
deriving DecidableEq, Repr

/-- A Saggar ring (spec/18 R313, R314): 0xFFFF is the device ring. `recs` holds the kept records, oldest first,
`backlog` those that the Flue has brought and the ring's writer has not written yet. -/
structure Ring where
  id : Nat
  recs : List Rec
  widx : Nat
  drops : Nat
  size : Nat
  gen : Nat
  dtcw : Nat
  newDrops : Nat
  dropDtc : Nat
  dropDie : Nat
  backlog : List Rec
deriving DecidableEq, Repr

/-- A wait record (spec/18 R317) with its table slot. KIND 1 bar, 2 gbar, 3 sigw, 4 wwait, 5 hwait: `owner` is the crew, `obj` the
object, `members` the waiting fibres, longest first, with the time each began; 6 barrier packet, 7 collective: `owner` is the
packet or instance, `obj` the rank. The fields a reader sees are formed when the record is read. -/
structure WaitRec where
  slot : Nat
  die : Nat
  kind : Nat
  owner : Nat
  obj : Nat
  members : List (Nat × Nat)
deriving DecidableEq, Repr

/-- A sampled issue whose report is not yet written (spec/18 R320, R321): `refs` are its accesses in flight with their lanes, `queued` whether it may wait at
L1. -/
structure Sample where
  vf : Nat
  asid : Nat
  core : Nat
  part : Nat
  pc : DWord
  op : DWord
  opn : Nat
  lanes : Nat
  refs : List (Nat × Nat)
  sectors : Nat
  queued : Bool
  last : Nat
  replays : Nat
  dtc : Nat
deriving DecidableEq, Repr

/-- An entry of a function's check log (spec/18 R324). -/
structure CheckEntry where
  kind : Nat
  num : Nat
  idx : Nat
  crew : Nat
  pc : DWord
  op : DWord
  dtc : Nat
deriving DecidableEq, Repr


/-- An edge record of a graph (spec/17 R284), with its producer. -/
structure GEdge where
  src : Nat
  dst : Nat
  wop : Nat
  rop : Nat
  ek : Nat
deriving DecidableEq, Repr

/-- A node record of a graph (spec/17 R282) and the node's progress (R286, R287): STATE 0 PENDING, 1 READY, 2 RUNNING, 3 DONE,
4 BROKEN; `counters` are its crew counters (R293), `upBy` the broken producer of its tiles, `readyAt` its place in the order in which nodes became
ready (R288), `placed`: its START edges have gone (R287). -/
structure GNode where
  idx : Nat
  kind : Nat
  cor : Bool
  retry : Bool
  trace : Bool
  local1 : Bool
  count : Nat
  fmt : Nat
  diemask : Nat
  core : Nat
  ops : List Nat
  ntile : Nat
  ndep : Nat
  nout : Nat
  firste : Nat
  pay : DWord
  aux : DWord
  state : Nat
  unmet : Nat
  code : Nat
  op : DWord
  retired : Nat
  counters : List Nat
  grid : Option Nat
  pending : Nat
  status : Nat
  lastOp : DWord
  upBroken : Bool
  upBy : DWord
  readyAt : Nat
  placed : Bool
deriving DecidableEq, Repr

/-- A task graph that the Wheels run for a GRAPH packet (spec/17 R285 to R298). `pool` holds the ready nodes that are not yet
dispatched, in ready order; `broken` is the first node that broke other than by UPSTREAM; `waiting` the cores whose node scratchpad
is still to be reserved. -/
structure Graph where
  id : Nat
  packet : Nat
  vf : Nat
  asid : Nat
  dies : Nat
  work : DWord
  scr : Nat
  waiting : List Nat
  nodes : List GNode
  edges : List GEdge
  pool : List Nat
  broken : Option Nat
deriving DecidableEq, Repr

/-- A communicator (spec/20 R339, R344): its ranks as (device, die, PKEY), the excluded ranks, the arrivals of the last completed
instance (rank, time after the first arrival, COLL_ARRIVE identifier), instances started by rank. -/
structure Comm where
  vf : Nat
  id : Nat
  ranks : List (Nat × Nat × Nat)
  switchGroup : Bool
  excluded : List Nat
  prev : List (Nat × Nat × DWord)
  started : List (Nat × Nat)
deriving DecidableEq, Repr

/-- A peer's contribution as received: rank, roster size it was sent for, bytes, sender's identifier (spec/20 R342). -/
structure Contrib where
  frm : Nat
  n : Nat
  data : List Byte
  total : Nat
  op : DWord
deriving DecidableEq, Repr

/-- A participant of a collective instance at this device (spec/20 R340 to R344): its buffers, its identifier, the arrivals it knows
(rank, DTC, identifier), the roster once fixed, what it has received, the accesses of its result's writes. `doomed`: another
engine has decided on TIMEOUT. -/
structure CollPart where
  rank : Nat
  die : Nat
  src : DWord
  dst : DWord
  seq : Nat
  op : DWord
  arrived : Bool
  deadline : Nat
  arrivals : List (Nat × Nat × DWord)
  roster : Option (List Nat)
  doomed : Bool
  sent : Bool
  contrib : List Contrib
  result : Option Contrib
  written : Option (List Nat)
  lastOp : DWord
  done : Bool
  abort : Nat
deriving DecidableEq, Repr

/-- A collective descriptor that runs (spec/20 R340): its fields, and its participants of this device. -/
structure Coll where
  id : Nat
  comm : Nat
  vf : Nat
  asid : Nat
  src : WorkSrc
  op : DWord
  kind : Nat
  red : Nat
  ty : Nat
  count : Nat
  root : Nat
  tmo : Nat
  insw : Bool
  elastic : Bool
  parts : List CollPart
deriving DecidableEq, Repr

/-- What engines of one instance tell each other (spec/20 R341 to R344): `flag` 0 an arrival at time `off`, 1 data from offset `off`
on, 2 the roster that was decided (two bytes a rank, none: TIMEOUT), 3 a rank lost. `rcv` 0xFFFF: the switch group; `frm` 0xFFFF: its result. -/
structure CollMsg where
  vf : Nat
  comm : Nat
  flag : Nat
  kind : Nat
  red : Nat
  ty : Nat
  root : Nat
  count : Nat
  frm : Nat
  rcv : Nat
  n : Nat
  seq : Nat
  off : Nat
  total : Nat
  data : List Byte
  op : DWord
deriving DecidableEq, Repr

/-- A reduction in a switch of the fabric (spec/20 R343): the pieces it has of the ranks' contributions. -/
structure SwitchAcc where
  comm : Nat
  pkey : Nat
  seq : Nat
  n : Nat
  got : List CollMsg
deriving DecidableEq, Repr

/-- A greenware table entry that is not as reset leaves it (spec/22 R350): STATE 0 FREE, 1 UNFIRED, 2 FIRED, 3 CRACKED. -/
structure GwEntry where
  die : Nat
  idx : Nat
  state : Nat
  code : Nat
  vf : Nat
  gen : Nat
  ldie : Nat
  ldev : Nat
  whenDtc : Nat
  op : DWord
  queue : List Invocation
  deps : List Invocation
deriving DecidableEq, Repr

/-- A message a table has for a handle and that its entry has not taken (spec/22 R355, R358): `refused` ones are the retry list and those behind
them, the others await an answer since `since`. -/
structure GwRetry where
  ref : Nat
  since : Nat
  die : Nat
  dst : DWord
  dep : Bool
  refused : Bool
  inv : Invocation
deriving DecidableEq, Repr

/-- A query of `hwait` or `hstat` that waits for its answer (spec/09 R194, spec/22 R358): of a fibre here, or of device `dev`; `since`: the
origin has not answered at all. -/
structure GwQuery where
  ref : Nat
  since : Option Nat
  fibre : Nat
  handle : DWord
  wait : Bool
  dev : Option Nat
deriving DecidableEq, Repr

/-- A flit in a sender's retry buffer (spec/20 R333). -/
abbrev SentFlit := Nat × FlitW

/-- A fabric port (spec/20 R328, R333 to R336). `lanes` 0: its plane is out of service. Credits, freed counts and the totals of
the running-total mode are kept per virtual channel. `timer` is the DTC of the last progress of the retry buffer, `tried` of the last step up tried. -/
structure Port where
  num : Nat
  lanes : Nat
  runTotal : Bool
  credits : List Nat
  freed : List Nat
  freedTotal : List Nat
  lastCinc : List Nat
  txSeq : Nat
  rxSeq : Nat
  retry : List SentFlit
  queue : List (Nat × FlitW)
  partialRx : List (Nat × List Byte)
  unanswered : Nat
  timer : Nat
  tried : Nat
deriving DecidableEq, Repr

/-- A flow's sequence number toward a destination on a plane (spec/20 R330, R331). -/
structure FlowSeq where
  dev : Nat
  plane : Nat
  seq : Nat
deriving DecidableEq, Repr

/-- A reorder buffer: packets of one source and plane that wait for an earlier SEQ (spec/20 R330); none: any SEQ is next. -/
structure Reorder where
  src : Nat
  plane : Nat
  next : Option Nat
  since : Nat
  held : List FabPkt
deriving DecidableEq, Repr

/-- What a request's TAG belongs to: an access, a fibre in `sigw` that awaits notifications (R338), a send or its increment (R337),
a message of a collective (R344). -/
inductive RemoteUse where
  | access (ref : Nat)
  | watch (fibre : Nat)
  | send (id : Nat) (inc : Bool)
  | coll
deriving DecidableEq, Repr

/-- A remote request by its TAG (spec/20 R331, R337); `base` is the plane R329 gives it with every plane in service. -/
structure RemoteReq where
  tag : Nat
  dev : Nat
  plane : Nat
  base : Nat
  bytes : Nat
  since : Nat
  use : RemoteUse
deriving DecidableEq, Repr

/-- A waiter at the home of a signal on behalf of another device, notified at each update (spec/20 R338). -/
structure RemoteWaiter where
  off : Nat
  dev : Nat
  plane : Nat
  tag : Nat
deriving DecidableEq, Repr

/-- A notification from a signal's home that has not been acted on (spec/02 R28, spec/09 R184, spec/16 R401): to a barrier packet
or to a fibre in `sigw`, with the identifier the update carried. -/
inductive Notif where
  | packet (p : Nat) (op : DWord)
  | fibre (f : Nat) (op : DWord)
deriving DecidableEq, Repr

/-- A command that CMDBELL has issued (spec/25 R381, R382): the block's address, and for a command that has begun and completes
later the number of its phase. -/
structure Cmd where
  va : DWord
  phase : Nat
  due : Nat
deriving DecidableEq, Repr

/-- The checkpoint state of a function (spec/25 R393): address space, partner, the state-set list (VA, bytes), last epoch, the slot that
does not hold it. -/
structure Ckpt where
  asid : Nat
  partner : Nat
  set : List (Nat × Nat)
  epoch : Nat
  slot : Nat
deriving DecidableEq, Repr

/-- A slot that function `vf` here holds for another device's checkpoints (spec/25 R393): its bytes by address, epoch, whether it is
complete; `flash` is the newest drained copy with its epoch, `frames` what of the pool the slot holds. -/
structure PartnerSlot where
  dev : Nat
  vf : Nat
  slot : Nat
  bytes : Nat
  epoch : Nat
  complete : Bool
  data : List (Nat × List Byte)
  flash : Option (Nat × List (Nat × List Byte))
  frames : List (Nat × Nat)
deriving DecidableEq, Repr

/-- A firmware image held in module flash (spec/25 R386, R387): TYPE, VERSION, LAYOUTS, body digest. -/
structure FwImage where
  kind : Nat
  version : Nat
  layouts : Nat
  minmon : Nat
  digest : List Byte
deriving DecidableEq, Repr

/-- A residency request that the firmware holds (spec/15 R273): its token, the page, the function; `asked` once it is posted to
the driver. -/
structure ResReq where
  ref : Nat
  vf : Nat
  asid : Nat
  va : Nat
  asked : Bool
  deadline : Nat
deriving DecidableEq, Repr

/-- The residency ring of a function (spec/25 R384): ring, producer and consumer index words. -/
structure ResRing where
  ring : DWord
  prod : DWord
  cons : DWord
deriving DecidableEq, Repr

/-- A flush in progress: OP and SEQ, the BAR writes before it that it awaits (spec/14 R264). -/
structure FlushReq where
  op : Nat
  seq : Nat
  waits : List Nat
deriving DecidableEq, Repr

/-- A function (spec/24 R377, spec/25 R383 to R385): 0 is the PF, 1 to 256 are VFs. `feat` is FEATACC, `featctl` 0 none,
1 committed, 2 refused; `asid` is the address space of its queues and commands (log 9, DESIGN CHOICE); `assigned` is the guest memory the
firmware has assigned to it (R268) as (GPA, bytes, SPA); `pool` its free frames, `backing` what evicted pages held (index,
GPA, bytes; R273). -/
structure Fn where
  vf : Nat
  asid : Nat
  root2 : Option Nat
  assigned : List (Nat × Nat × Nat)
  pool : List (Nat × Nat)
  backing : List (Nat × Nat × List Byte)
  feat : List Nat
  featctl : Nat
  flushes : List FlushReq
  flushSeq : Nat
  readAhead : List Host.Cell
  barFails : Nat
  quotaQueues : Nat
  quotaAsids : Nat
  quotaSends : Nat
  quotaGreen : Nat
  quotaLeases : Nat
  quotaLeaseBytes : Nat
  quotaRegions : Nat
  quotaComms : Nat
  quotaColls : Nat
  quotaCounters : Nat
  counterBase : Option Nat
  retention : Nat
  trace : Nat
  cone : Nat
  quantum : Nat
  slice : Nat
  sliceAt : Nat
  clusters : List Nat
  pkey : Option Nat
  resRing : Option ResRing
  checkLog : List CheckEntry
  checkCount : Nat
  sampleK : Nat
  sampleBuf : Option (DWord × Nat)
  sampleLost : Nat
  sampleCount : Nat
  cmds : List Cmd
  ckpt : Option Ckpt
  spareFrom : Option (Nat × Nat)
  schedPin : Nat
  pluginPin : Nat
  pluginFails : Nat
  exports : List (Nat × Nat)
  resetting : Bool
deriving DecidableEq, Repr

/-- The region registers of one stack that are not zero, by slot (spec/13 R237), with the function that set each. -/
structure RegionReg where
  stack : Nat
  slot : Nat
  vf : Nat
  image : BitVec 128
deriving DecidableEq, Repr

/-- A stack whose channels are not as training leaves them (spec/13 R243 to R245): the failed channel, the re-layout cursor (the
granules below it have moved), the frames reported lost by 4 KiB, whether parity was off when the channel failed, whether the stack
runs without parity since. -/
structure StackSt where
  num : Nat
  failed : Option Nat
  cursor : Nat
  lost : List Nat
  lossy : Bool
  parityOff : Bool
deriving DecidableEq, Repr

/-- A row of a channel (spec/13 R247). State.throttled lists those that are throttled, State.rowActs the activations counted, State.sideBuf the requests in
the channels' side buffers (access, stack, channel). -/
structure RowThrottle where
  stack : Nat
  channel : Nat
  row : Nat
deriving DecidableEq, Repr

/-- One counter of a shared unit (spec/18 R322): the function it counts for, its event, its count. -/
structure SharedPick where
  vf : Nat
  event : Nat
  count : Nat
deriving DecidableEq, Repr

/-- The four counters of a shared unit (spec/18 R322): the unit by its SRC of R309, a stack-cache slice by that of its memory controller with bit 16
set. -/
structure SharedCtr where
  unit : Nat
  picks : List SharedPick
deriving DecidableEq, Repr

/-- A word of a B-store or accumulator store with a soft error (spec/24 R368). -/
structure SoftErr where
  core : Nat
  off : Nat
  dtc : Nat
deriving DecidableEq, Repr

/-- Whose clock a stamp is kept for (spec/14 R251, R255, R260, R261): an engine's operation, the fibres of a grid that have ended, an operation that
has not started, a copy channel, a receive counter, a handle, a node's edges, the fibres of a crew that have ended, the packets of a queue that have completed. -/
inductive ClockKey where
  | op (id : DWord)
  | ended (id : DWord)
  | work (id : Nat)
  | chan (n : Nat)
  | counter (n : Nat)
  | handle (h : DWord)
  | node (graph node : Nat)
  | crew (grid linear : Nat)
  | queue (n : Nat)
deriving DecidableEq, Repr

/-- A frontier kept beside those of fibres, with the issuer's accesses it still awaits (spec/14 R260). -/
structure Clock where
  key : ClockKey
  st : Stamp
  needs : List Nat
deriving DecidableEq, Repr

/-- A wake on its way to a core (spec/09 R187): the armings it releases; none: every one on the line. -/
structure Wake where
  ref : Nat
  core : Nat
  line : Nat
  op : DWord
  arms : Option (List Nat)
deriving DecidableEq, Repr

/-- A message of the device to the outside (spec/20 R331, R333; spec/25 R381 to R388): a fabric packet, a flit on a port, a
data answer to the host, a management answer, an answer to the debugger, a firmware message to another device, the request to
the fabric manager to withdraw an import. -/
inductive Out where
  | pkt (p : FabPkt)
  | flit (port : Nat) (f : FlitW)
  | host (vf : Nat) (data : List Byte)
  | mgmt (data : List Byte)
  | dbg (status : Nat) (value : DWord)
  | peer (dev : Nat) (key : Nat) (m : MgmtMsg)
  | withdraw (vf gpa bytes : Nat)
deriving DecidableEq, Repr

/-- What moves next: a cohort issues one instruction, or another indivisible step (spec/95) happens (log 4, DESIGN CHOICE). -/
inductive Turn where
  | issue (core part cohort : Nat)
  | event (i : Instr)
deriving DecidableEq, Repr

/-- A ready cohort's place in the issue order of its partition (spec/04 R84, R85): how often others have issued since it was ready or issued itself,
and the cohorts that go before it since it yielded. -/
structure TurnWait where
  cohort : Nat
  passed : Nat
  behind : List Nat
deriving DecidableEq, Repr

/-- The issuing cohort: core, partition and cohort number (spec/11 R214). -/
structure CohortRef where
  core : Nat
  part : Nat
  num : Nat
deriving DecidableEq, Repr

/-- Device time and its discipline (spec/18 R304 to R307). `back` is the waiting backward step in ticks. -/
structure TimeSt where
  dtc : Nat
  tepoch : Nat
  offs : Nat
  domain : Nat
  back : Nat
  state : Nat
deriving DecidableEq, Repr

/-- The device's management state (spec/20 R328, spec/24 R376, spec/25 R385 to R396). Firing profiles: 0 HIGH, 1 MID, 2 LOW,
3 BISQUE. `overRun` counts the power samples in a row above the limit (R392), `bootAt` is the time of the
last boot, `prevMonitor` the monitor before one that has not reported ready (R387). -/
structure DevSt where
  dev : Nat
  dstate : Nat
  reason : Nat
  cap : Bool
  badstk : Nat
  profile : Nat
  exitProfile : Option Nat
  changing : Option Nat
  flashProfile : Nat
  clockMHz : Nat
  overRun : Nat
  bootAt : Nat
  parity : Bool
  spatial : Bool
  images : List FwImage
  monitor : Nat
  prevMonitor : Option Nat
  nextMonitor : Option Nat
  health : List Nat
  drops : Nat
  partner : List PartnerSlot
  lostDevs : List Nat
  lostDies : List Nat
  badBoundaries : List Nat
  spdmVersion : Bool
  poweredOff : Bool
deriving DecidableEq, Repr

/-- THE STATE of one device as plain data. `mem` holds the bytes of HBM and of the coherent window by SPA offset (spec/13 R232) in
canonical form: addresses rising, no byte zero (an unlisted byte reads 0, log 2, DESIGN CHOICE); `eccBad` lists the 64-byte lines that ECC cannot
correct (R244). `counts` and `stamps`: writes applied per die and home, and the clock stamp of each written range (spec/14 R251); `clocks`: the frontiers of
engines and synchronisations. `lateFaults`: the records written for fibres that had halted (R398). `free` is the
model's counter of free values
(log 3, DESIGN CHOICE), `drowsy` the drowsy register banks (core, partition, bank; spec/11 R223), `gwRuns` the invocations that run here, with the handle each was addressed to (spec/21 R346), `agenda` the order in which the agents
move (log 4, DESIGN CHOICE), `moves` the MOVEs on their way (line, from, to; spec/23 R363), `nextId` names new objects and references, `turns` the issue order that R84
and R85 bound. -/
structure State where
  mem : List Host.Cell
  scrubMarks : List Nat
  eccBad : List Nat
  fibres : List Fibre
  crews : List Crew
  grids : List Grid
  cores : List Core
  ctxs : List Ctx
  fns : List Fn
  queues : List Queue
  packets : List Packet
  accesses : List Access
  counts : Stamp
  stamps : List (Nat × Nat × Stamp)
  owed : List Owed
  notifs : List Notif
  clocks : List Clock
  wakes : List Wake
  registrations : List (Nat × Nat)
  moves : List (Nat × Nat × Nat)
  tlb : List TlbEntry
  walks : List WalkEntry
  migrations : List Migration
  hostLines : List HostLine
  resReqs : List ResReq
  channels : List Channel
  leases : List Lease
  graphs : List Graph
  comms : List Comm
  colls : List Coll
  collNet : List CollMsg
  switches : List SwitchAcc
  counters : List Counter
  sends : List Send
  green : List GwEntry
  gwRetry : List GwRetry
  gwQueries : List GwQuery
  gwNet : List (Nat × GwMsg)
  gwRuns : List (DWord × DWord)
  regions : List RegionReg
  stackSts : List StackSt
  throttled : List RowThrottle
  rowActs : List (RowThrottle × Nat)
  sideBuf : List (Nat × Nat × Nat)
  ports : List Port
  flows : List FlowSeq
  reorder : List Reorder
  remote : List RemoteReq
  served : List (Nat × FabPkt)
  remoteWaiters : List RemoteWaiter
  drowsy : List (Nat × Nat × Nat)
  time : TimeSt
  seqs : List (Nat × Nat)
  flue : List FlueQ
  rings : List Ring
  waits : List WaitRec
  lostWaits : List (Nat × Nat)
  shared : List SharedCtr
  softErrs : List SoftErr
  lateFaults : List FaultRec
  samples : List Sample
  dev : DevSt
  outbox : List Out
  nextId : Nat
  free : Nat
  cur : Option CohortRef
  turns : List TurnWait
  agenda : List Turn
deriving DecidableEq, Repr

/-- Why a step stops with a fault. -/
inductive Fault where
  /-- Raised by every step while the module has no power (spec/18 R316, spec/25 R396): nothing runs. Safe: the hardware does
  nothing either. -/
  | noPower
deriving DecidableEq, Repr

/-- Why a step has no meaning. -/
inductive Refusal where
  /-- Raised by `exec` for an instruction without a meaning in this model. Safe: the model stops where the hardware goes on. -/
  | notModelled (mnemonic : String)
deriving DecidableEq, Repr

/-- Device time at reset: DTC and TSTAT as R304 and R307 give them; TEPOCH is log 1, DESIGN CHOICE. -/
def TimeSt.reset : TimeSt :=
  { dtc := 0, tepoch := 0, offs := 0xFFFF, domain := 0, back := 0, state := 0 }

/-- Management state at power-on (R390: DEVSTAT zero); what R389 to R396 leave to flash and to the fabric is log 1, DESIGN CHOICE. -/
def DevSt.reset : DevSt :=
  { dev := 0, dstate := 0, reason := 0, cap := false, badstk := 0, profile := 0, exitProfile := none, changing := none,
    flashProfile := 0, clockMHz := 4000, overRun := 0, bootAt := 0, parity := false, spatial := false, images := [], monitor := 0,
    prevMonitor := none, nextMonitor := none, health := [], drops := 0, partner := [], lostDevs := [], lostDies := [],
    badBoundaries := [], spdmVersion := false, poweredOff := false }

/-- The machine right after reset: no function has anything, memory lists nothing, the DTC is 0 (R304), every table and queue is
empty; the values the spec does not give are named in log 1, DESIGN CHOICE. -/
def State.reset : State :=
  { mem := [], scrubMarks := [], eccBad := [], fibres := [], crews := [], grids := [], cores := [], ctxs := [], fns := [], queues := [],
    packets := [], accesses := [], counts := [], stamps := [], owed := [], notifs := [], clocks := [], wakes := [], registrations := [], moves := [], tlb := [], walks := [],
    migrations := [], hostLines := [], resReqs := [], channels := [], leases := [], graphs := [], comms := [], colls := [], collNet := [], switches := [], counters := [],
    sends := [], green := [], gwRetry := [], gwQueries := [], gwNet := [], gwRuns := [], regions := [], stackSts := [], throttled := [],
    rowActs := [], sideBuf := [],
    ports := [], flows := [], reorder := [], remote := [], served := [], remoteWaiters := [], drowsy := [], time := TimeSt.reset, seqs := [], flue := [],
    rings := [], waits := [], lostWaits := [], shared := [], softErrs := [], lateFaults := [], samples := [], dev := DevSt.reset, outbox := [], nextId := 1,
    free := 0, cur := none, turns := [], agenda := [] }

end Sys2Proof.Machine
end

