-- ==== Sys2Proof/Machine/Ops.lean ====
section
/-! DEFINITION. The named operations over memory, registers, fibres and records: byte memory in canonical form, lookups,
free values, identifiers and event records, cohorts and join groups, and TAKING AN EXCEPTION (`park`) with the return from
one (`resumeFibre`). -/

namespace Sys2Proof.Machine

/-! ### Byte memory in canonical form -/

/-- The byte at an address; an unlisted byte reads 0 (log 2, DESIGN CHOICE). -/
def memGet : List Host.Cell → Nat → Byte
  | [], _ => 0
  | (k, v) :: m, a => if a = k then v else if a < k then 0 else memGet m a

/-- Put an entry in front unless its byte is what an unlisted address reads as. -/
def memCons (a : Nat) (b : Byte) (m : List Host.Cell) : List Host.Cell := if b = 0 then m else (a, b) :: m

/-- Write one byte, keeping the canonical form. -/
def memSet : List Host.Cell → Nat → Byte → List Host.Cell
  | [], a, b => memCons a b []
  | (k, v) :: m, a, b =>
    if a < k then memCons a b ((k, v) :: m)
    else if a = k then memCons a b m
    else (k, v) :: memSet m a b

/-- Addresses rise strictly from above `lo`, and no listed byte is 0. -/
def memWfFrom : Option Nat → List Host.Cell → Bool
  | _, [] => true
  | lo, (k, v) :: m => (match lo with | none => true | some l => l < k) && v != 0 && memWfFrom (some k) m

/-- The canonical form of memory. -/
def Memory.wf (m : List Host.Cell) : Bool := memWfFrom none m

/-- `n` bytes from an address on. -/
def memRead (m : List Host.Cell) (a : Nat) : Nat → List Byte
  | 0 => []
  | n + 1 => memGet m a :: memRead m (a + 1) n

/-- Write bytes from an address on. -/
def memWrite (m : List Host.Cell) (a : Nat) : List Byte → List Host.Cell
  | [] => m
  | b :: bs => memWrite (memSet m a b) (a + 1) bs

/-- Remove every byte of a range: it reads as zero. -/
def memZero (m : List Host.Cell) (a n : Nat) : List Host.Cell := m.filter fun c => c.1 < a || a + n ≤ c.1

/-- Write bytes by position from an address on (a store whose overwritten bytes are left out, R134). -/
def memWriteAt (m : List Host.Cell) (a : Nat) : List (Nat × Byte) → List Host.Cell
  | [] => m
  | (i, b) :: bs => memWriteAt (memSet m (a + i) b) a bs

/-- A little-endian number of `n` bytes. -/
def memNat (m : List Host.Cell) (a n : Nat) : Nat := bytesNat (memRead m a n)

/-! ### Lookups -/

/-- A function as reset leaves it (R377, R311, R314, R319, R320, R352, R356, R376, R385); the rest is log 1, DESIGN CHOICE. -/
def Fn.fresh (vf : Nat) : Fn :=
  { vf := vf, asid := 0, root2 := none, assigned := [], pool := [], backing := [], feat := [], featctl := 0, flushes := [],
    flushSeq := 0, readAhead := [], barFails := 0, quotaQueues := 256, quotaAsids := 64, quotaSends := 256,
    quotaGreen := 4096, quotaLeases := 256, quotaLeaseBytes := 2 ^ 23, quotaRegions := 8, quotaComms := 64, quotaColls := 256,
    quotaCounters := 256, counterBase := none, retention := 1000000, trace := 0, cone := 2000, quantum := 0, slice := 2000,
    sliceAt := 0, clusters := [], pkey := none, resRing := none, checkLog := [], checkCount := 0, sampleK := 12, sampleBuf := none, sampleLost := 0,
    sampleCount := 0, cmds := [], ckpt := none, spareFrom := none, schedPin := 0, pluginPin := 0, pluginFails := 0, exports := [],
    resetting := false }

/-- Replace the elements of a list that a test picks. -/
def mapIf {α : Type} (p : α → Bool) (f : α → α) (l : List α) : List α := l.map fun x => if p x then f x else x

/-- Replace the element a test picks, or put a new one at the end. -/
def setOr {α : Type} (p : α → Bool) (f : α → α) (dflt : α) (l : List α) : List α :=
  if l.any p then mapIf p f l else l ++ [f dflt]

def State.fibre? (s : State) (id : Nat) : Option Fibre := s.fibres.find? (·.id == id)
def State.crew? (s : State) (id : Nat) : Option Crew := s.crews.find? (·.id == id)
def State.grid? (s : State) (id : Nat) : Option Grid := s.grids.find? (·.id == id)
def State.ctx? (s : State) (asid : Nat) : Option Ctx := s.ctxs.find? (·.asid == asid)
def State.queue? (s : State) (q : Nat) : Option Queue := s.queues.find? (·.qnum == q)
def State.packet? (s : State) (p : Nat) : Option Packet := s.packets.find? (·.id == p)
def State.graph? (s : State) (g : Nat) : Option Graph := s.graphs.find? (·.id == g)

def State.setFibre (s : State) (id : Nat) (f : Fibre → Fibre) : State := { s with fibres := mapIf (·.id == id) f s.fibres }
def State.setFibres (s : State) (ids : List Nat) (f : Fibre → Fibre) : State :=
  { s with fibres := mapIf (fun g => ids.contains g.id) f s.fibres }
def State.setCrew (s : State) (id : Nat) (f : Crew → Crew) : State := { s with crews := mapIf (·.id == id) f s.crews }
def State.setGrid (s : State) (id : Nat) (f : Grid → Grid) : State := { s with grids := mapIf (·.id == id) f s.grids }
def State.setCtx (s : State) (asid : Nat) (f : Ctx → Ctx) : State := { s with ctxs := mapIf (·.asid == asid) f s.ctxs }
/-- A function: 0 is the PF, 1 to 256 are VFs (R377); one the list leaves out is as reset leaves it. -/
def State.fn? (s : State) (vf : Nat) : Option Fn :=
  match s.fns.find? (·.vf == vf) with
  | some f => some f
  | none => if vf ≤ 256 then some (Fn.fresh vf) else none

def State.setFn (s : State) (vf : Nat) (f : Fn → Fn) : State :=
  { s with fns := if vf ≤ 256 then setOr (·.vf == vf) f (Fn.fresh vf) s.fns else s.fns }
def State.setQueue (s : State) (q : Nat) (f : Queue → Queue) : State := { s with queues := mapIf (·.qnum == q) f s.queues }
def State.setPacket (s : State) (p : Nat) (f : Packet → Packet) : State := { s with packets := mapIf (·.id == p) f s.packets }

/-- A core as it stands before anything has happened on it (log 1, DESIGN CHOICE: the boundary). -/
def Core.idle (n : Nat) : Core :=
  { num := n, ctx := none, boundary := 524288, l1 := [], perfEvents := List.replicate 16 0,
    perfCounts := List.replicate 16 0, wake := [], fwd := [], nodeScr := [], nodeScratch := [], mxq := [], bstore := [],
    acc := [], eccScr := [], eccB := [], eccAcc := [], outOfService := false, issueCount := 0 }

def State.core (s : State) (n : Nat) : Core := (s.cores.find? (·.num == n)).getD (Core.idle n)
def State.setCore (s : State) (n : Nat) (f : Core → Core) : State :=
  { s with cores := setOr (·.num == n) f (Core.idle n) s.cores }

/-- The die of a core, of a cluster's stack, and the cluster of a core (R235, R310: 192 cores, 16 clusters, 8 dies). -/
def coreDie (c : Nat) : Nat := c / 24
def coreCluster (c : Nat) : Nat := c / 12
def stackDie (st : Nat) : Nat := st / 2

/-- Crews that are saved in images (R372). -/
def State.savedCrews (s : State) : List Crew := s.ctxs.flatMap fun c => (c.image.map (·.crews)).getD []

/-- Whether a fibre is saved in an image. -/
def State.isSaved (s : State) (fibre : Nat) : Bool := s.ctxs.any fun c => ((c.image.map (·.fibres)).getD []).any (·.id == fibre)

/-- The crew, grid, core and function a fibre belongs to. -/
def State.fibreCrew (s : State) (f : Fibre) : Option Crew := s.crew? f.crew
def State.fibreGrid (s : State) (f : Fibre) : Option Grid := (s.crew? f.crew).bind fun c => s.grid? c.grid
def State.fibreCore (s : State) (f : Fibre) : Nat := ((s.crew? f.crew).map (·.core)).getD 0
def State.fibreSlot (s : State) (f : Fibre) : Nat := ((s.crew? f.crew).map (·.slot)).getD 0
def State.fibreVf (s : State) (f : Fibre) : Nat := ((s.fibreGrid f).map (·.vf)).getD 0
def State.fibreAsid (s : State) (f : Fibre) : Nat := ((s.fibreGrid f).map (·.asid)).getD 0
def State.fibreOp (s : State) (f : Fibre) : DWord := ((s.fibreGrid f).map (·.op)).getD 0
def State.gen (s : State) (asid : Nat) : Nat := ((s.ctx? asid).map (·.gen)).getD 0

/-- Whether a change of profile to or from LOW holds every engine and every memory access at its home (R392). -/
def memHeld (s : State) : Bool := s.dev.changing.any fun p => p == 2 || s.dev.profile == 2

/-- Whether a context's engines run (R369, R392). -/
def asidRuns (s : State) (asid : Nat) : Bool := !memHeld s && decide ((s.ctx? asid).map (·.state) = some .running)

/-- Whether a function has accepted a feature (R385), and the device serves it: Bisque offers only CORE, FFT, LEASE and WAKE (R391). -/
def State.hasFeature (s : State) (vf bit : Nat) : Bool :=
  match s.fn? vf with
  | some f => f.featctl == 1 && f.feat.contains bit && (s.dev.dstate != 2 || bit == 0 || (12 ≤ bit && bit ≤ 14))
  | none => false

/-! ### Fresh names, free values, identifiers, records -/

/-- A name no object or reference of the state has. -/
def fresh (s : State) : Nat × State := (s.nextId, { s with nextId := s.nextId + 1 })

/-- A free value: the spec leaves it open (log 3, DESIGN CHOICE). -/
def draw (s : State) : Nat × State := (Config.freeNat s.free, { s with free := s.free + 1 })

/-- A free choice below `n`; 0 when there is none. -/
def choose (s : State) (n : Nat) : Nat × State :=
  if n ≤ 1 then (0, s) else ((draw s).1 % n, (draw s).2)

/-- The next sequence number after `q` (R308): 2^48 - 1 is followed by 1. -/
def seqNext (q : Nat) : Nat := if q + 1 == 2 ^ 48 then 1 else q + 1

/-- The sequence number a die mints next; 1 from cold power-on (R308). -/
def State.seqOf (s : State) (die : Nat) : Nat := ((s.seqs.find? (·.1 == die)).map (·.2)).getD 1

/-- Mint a causal identifier on a die (R308). -/
def mint (s : State) (die : Nat) : DWord × State :=
  (BitVec.ofNat 64 (s.dev.dev * 2 ^ 52 + die * 2 ^ 48 + s.seqOf die),
   { s with seqs := setOr (·.1 == die) (fun p => (p.1, seqNext (s.seqOf die))) (die, 0) s.seqs })

/-- Slots of a ring of that many bytes behind its 64-byte header (R314). -/
def ringSlots (bytes : Nat) : Nat := (bytes - 64) / 32

/-- A Saggar ring as power-on leaves it (R314); 0xFFFF is the device ring. -/
def Ring.empty (id : Nat) : Ring :=
  { id := id, recs := [], widx := 0, drops := 0, size := ringSlots (if id == 0xFFFF then 2 ^ 31 else 2 ^ 26), gen := 0,
    dtcw := 0, newDrops := 0, dropDtc := 0, dropDie := 0, backlog := [] }

def State.ring (s : State) (id : Nat) : Ring := (s.rings.find? (·.id == id)).getD (Ring.empty id)
def State.setRing (s : State) (id : Nat) (f : Ring → Ring) : State :=
  { s with rings := setOr (·.id == id) f (Ring.empty id) s.rings }

/-- The rings a record goes to (R312): its function's, or for 0xFFFF the device ring and every function ring. -/
def ringsOf (vf : Nat) : List Nat := if vf == 0xFFFF then 0xFFFF :: List.range 257 else [vf]

/-- Count a record dropped for a ring (R313). -/
def ringDrop (x : Rec) (r : Ring) : Ring :=
  { r with drops := r.drops + 1, newDrops := r.newDrops + 1, dropDtc := if r.newDrops == 0 then x.dtc else r.dropDtc,
           dropDie := if r.newDrops == 0 then x.src / 2 ^ 13 else r.dropDie }

/-- Hand a record to its source's Flue queue of 16, or drop it (R312, R313). -/
def emitRec (s : State) (r : Rec) : State :=
  match s.flue.find? (·.src == r.src) with
  | none => { s with flue := s.flue ++ [⟨r.src, [r]⟩] }
  | some q =>
    if q.recs.length < 16 then
      { s with flue := mapIf (·.src == r.src) (fun q => { q with recs := q.recs ++ [r] }) s.flue }
    else (ringsOf r.vf).foldl (fun s id => s.setRing id (ringDrop r)) s

/-- Emit an event record stamped with device time (R309). -/
def emit (s : State) (src code : Nat) (op cause : DWord) (arg vf : Nat) : State :=
  emitRec s ⟨code, arg % 2 ^ 16, vf, src, op, cause, s.time.dtc⟩

/-- SRC of R309: die, engine class, index. -/
def srcOf (die cls idx : Nat) : Nat := die * 2 ^ 13 + cls * 2 ^ 9 + idx

/-- SRC of a core (class 2, R310). -/
def coreSrc (c : Nat) : Nat := srcOf (coreDie c) 2 c

/-- The command processor of die 0 (R280, R313). -/
def fwSrc : Nat := 0x1000

/-- Count an event in the health counts: 2 x store + 0 corrected, + 1 uncorrected (R323). -/
def healthAdd (s : State) (i : Nat) : State :=
  { s with dev := { s.dev with
      health := (List.range 12).map fun k => (s.dev.health.getD k 0) + (if k == i then 1 else 0) } }

/-- Microseconds in ticks of 250 ps (R304). -/
def usTicks (n : Nat) : Nat := 4000 * n

/-! ### Cohorts and join groups -/

/-- Ready to issue: neither held nor waiting (R214). -/
def FStatus.isReady : FStatus → Bool
  | .ready => true
  | _ => false

/-- Running under R81: not held at a join, not parked, not waiting. A lane held by the debugger counts as running (R325). -/
def FStatus.isRunning : FStatus → Bool
  | .ready => true
  | .debugHeld => true
  | .heldIssue => true
  | _ => false

def FStatus.isParked : FStatus → Bool
  | .parked _ => true
  | _ => false

/-- The void latch (R45). -/
def Latch.void : Latch := ⟨.void, 0⟩

/-- The three latches void (R46). -/
def Fibre.voidLatches (f : Fibre) : Fibre := { f with b0 := .void, b1 := .void, b2 := .void }

/-- The fibres of a cohort that can issue (R214). -/
def State.cohortLanes (s : State) (n : Nat) : List Fibre := s.fibres.filter fun f => f.cohort == n && f.status.isReady

/-- The lanes of the issuing cohort: `active` (R63). -/
def State.lanes (s : State) : List Fibre :=
  match s.cur with
  | none => []
  | some c => s.cohortLanes c.num

/-- Every latch of every lane of a cohort becomes void: a cohort event (R46). -/
def voidCohort (s : State) (n : Nat) : State := { s with fibres := mapIf (·.cohort == n) Fibre.voidLatches s.fibres }

/-- Give the lanes `ids` a cohort of their own. -/
def newCohort (s : State) (ids : List Nat) : State :=
  { (fresh s).2 with fibres := mapIf (fun f => ids.contains f.id) (fun f => { f with cohort := (fresh s).1 }) s.fibres }

/-- Give the lanes `ids` a join group of their own in their crew (R80). -/
def newJgrp (s : State) (ids : List Nat) : State :=
  { (fresh s).2 with fibres := mapIf (fun f => ids.contains f.id) (fun f => { f with jgrp := (fresh s).1 }) s.fibres }

/-- The values of a list without repeats, in order of first appearance. -/
def distinct {α : Type} [DecidableEq α] : List α → List α
  | [] => []
  | x :: xs => x :: (distinct xs).filter (· ≠ x)

/-- Each program counter among the lanes `ids` gives one cohort (R78); with one program counter the cohort stays. A split is a
cohort event: the latches of its lanes become void (R46). -/
def regroup (s : State) (ids : List Nat) : State :=
  let lanes := s.fibres.filter fun f => ids.contains f.id
  match distinct (lanes.map (·.pc)) with
  | [] => s
  | [_] => s
  | pcs =>
    pcs.foldl
      (fun s pc => newCohort s (((s.fibres.filter fun f => ids.contains f.id && f.pc == pc)).map (·.id)))
      { s with fibres := mapIf (fun f => ids.contains f.id) Fibre.voidLatches s.fibres }

/-- Whether a lane is held at a join in this group. -/
def heldIn (crew part g : Nat) (f : Fibre) : Bool :=
  f.crew == crew && f.part == part && f.jgrp == g && decide (f.status = .heldJoin)

/-- How many fibres of the same lane stand before a fibre in a list. -/
def laneLayer (fs : List Fibre) (f : Fibre) : Nat := ((fs.takeWhile (·.id != f.id)).filter (·.lane == f.lane)).length

/-- Give fibres a cohort, those that share a lane one each (R79). -/
def newCohorts (s : State) (fs : List Fibre) : State :=
  (distinct (fs.map (laneLayer fs))).foldl (fun s k => newCohort s ((fs.filter fun f => laneLayer fs f == k).map (·.id))) s

/-- The release of a join group (R80, R81): when no lane of it is running, the lanes held at each program counter become one cohort, fibres of one lane
each their own (R79), and one join group of their own and continue behind their `join`. -/
def joinRelease (s : State) (crew part g : Nat) : State :=
  if s.fibres.any (fun f => f.crew == crew && f.part == part && f.jgrp == g && f.status.isRunning) then s
  else
    (distinct ((s.fibres.filter (heldIn crew part g)).map (·.pc))).foldl
      (fun s pc =>
        let fs := s.fibres.filter fun f => heldIn crew part g f && f.pc == pc
        let ids := fs.map (·.id)
        (newJgrp (newCohorts s fs) ids).setFibres ids
          fun f => { f.voidLatches with status := .ready, pc := f.pc + 4 })
      s

/-- Evaluate every join group that has a held lane (R81). -/
def joinEval (s : State) : State :=
  (distinct ((s.fibres.filter fun f => decide (f.status = .heldJoin)).map fun f => (f.crew, f.part, f.jgrp))).foldl
    (fun s k => joinRelease s k.1 k.2.1 k.2.2) s

/-! ### Taking an exception, and the return from one -/

/-- An exception a lane takes: code, the PC of the record, where a resume continues, ARG, AUX, S2 (R364). -/
structure Trap where
  code : Nat
  pc : DWord
  resume : DWord
  arg : DWord
  aux : Nat
  s2 : Bool
deriving DecidableEq, Repr

/-- An exception whose record and resume are the instruction itself, without ARG. -/
def Trap.here (code : Nat) (pc : DWord) : Trap := ⟨code, pc, pc, 0, 0, false⟩

/-- The fault record of R364. -/
def faultRec (s : State) (f : Fibre) (t : Trap) : FaultRec :=
  { code := t.code, pc := t.pc, arg := t.arg, aux := t.aux % 256, s2 := t.s2, op := s.fibreOp f, core := s.fibreCore f,
    slot := s.fibreSlot f, part := f.part, lane := f.lane, idx := f.idx }

/-- TAKING AN EXCEPTION (R216, R364, R46): the lane parks with its fault record, leaves its cohort and join group, every lane of
the cohort has its latches void, and LANE_PARK is emitted with a new identifier and the work's as cause. The handler or the
firmware acts in later steps (R365) (log 56, DEDUCED). -/
def park (s : State) (id : Nat) (t : Trap) : State :=
  match s.fibre? id with
  | none => s
  | some f =>
    let s1 := voidCohort s f.cohort
    let s2 := newJgrp (newCohort s1 [id]) [id]
    let m := mint s2 (coreDie (s.fibreCore f))
    let s3 := m.2.setFibre id fun g =>
      { g.voidLatches with status := .parked ⟨faultRec s f t, t.resume, false, m.1, s.time.dtc⟩, pc := t.pc }
    emit s3 (coreSrc (s.fibreCore f)) 0x0901 m.1 (s.fibreOp f) t.code (s.fibreVf f)

/-- A park that reports a soft error no one can correct: in the register file (REG_PARITY) or in the scratchpad a lane reads (MEM_ECC). The health
counts have it (R323). -/
def softPark (s : State) (id : Nat) (t : Trap) : State :=
  park (if t.code == 0x80 then healthAdd s 1 else if t.code == 0x48 then healthAdd s 3 else s) id t

/-- The same exception in each of several lanes. -/
def parkAll (s : State) (ids : List Nat) (t : Fibre → Trap) : State :=
  ids.foldl (fun s id => match s.fibre? id with | none => s | some f => park s id (t f)) s

/-- THE RETURN FROM AN EXCEPTION (R80, R367): the fibre leaves the parked state with void latches and a cohort and join group of
its own, at `pc`. -/
def resumeFibre (s : State) (id : Nat) (pc : DWord) : State :=
  (newJgrp (newCohort s [id]) [id]).setFibre id fun g => { g.voidLatches with status := .ready, pc := pc }

/-- A lane resumes at the access whose replay had failed: the access is made again (R131, R132). -/
def remake (s : State) (id : Nat) : State :=
  { s with accesses := mapIf (fun a => decide (a.agent = .fibre id) && decide (a.resp = .failed)) (fun a => { a with resp := .stale }) s.accesses }

/-- A lane goes on elsewhere, or ends: such an access is made no more, and writes no register. -/
def forget (s : State) (id : Nat) : State :=
  let out := (s.accesses.filter fun a => decide (a.agent = .fibre id) && decide (a.resp = .failed)).map (·.ref)
  if out.isEmpty then s
  else ({ s with accesses := s.accesses.filter fun a => !out.contains a.ref }).setFibre id fun f =>
    { f with busy := f.busy.filter fun p => !out.contains p.2 }

/-- The trap code of an encoding check (R55). -/
def illCode : IllCode → Nat
  | .marker => 0x11 | .opcode => 0x12 | .format => 0x13 | .reserved => 0x14 | .window => 0x15
  | .feature => 0x16 | .dest => 0x17 | .pair => 0x18

/-- `ill(code)` of R54: every lane of `active` parks at the instruction. -/
def ill (s : State) (c : IllCode) : State := parkAll s (s.lanes.map (·.id)) fun f => Trap.here (illCode c) f.pc

/-! ### Physical addresses -/

/-- Bytes of a stack that are backed (R232, R243). -/
def State.backed (s : State) : Nat :=
  if s.dev.dstate == 2 then 2 ^ 26 else if s.dev.parity then 42 * 2 ^ 30 else 48 * 2 ^ 30

/-- What lies at a physical offset (R232). -/
inductive Place where
  | hbm (stack off : Nat)
  | window (die : Nat)
  | aperture (chan off : Nat)
  | nothing
deriving DecidableEq, Repr

/-- The offset map of R232. -/
def State.place (s : State) (off : Nat) : Place :=
  if off < 2 ^ 40 then
    if off % 2 ^ 36 < s.backed then .hbm (off / 2 ^ 36) (off % 2 ^ 36) else .nothing
  else if 2 ^ 40 ≤ off ∧ off < 2 ^ 40 + 2 ^ 23 then .window ((off - 2 ^ 40) / 2 ^ 20)
  else if 2 ^ 41 ≤ off ∧ off < 2 ^ 41 + 2 ^ 16 then .aperture ((off - 2 ^ 41) / 1024) ((off - 2 ^ 41) % 1024)
  else .nothing

/-- Whether something lies at a physical offset. -/
def State.isBacked (s : State) (off : Nat) : Bool := decide (s.place off ≠ .nothing)

/-- The home that keeps the order of an offset's accesses: stack 0-15, or 16 + die for the coherent window (R233, R251). A view's storage lies on the stack
whose window its addresses are in (R239). -/
def State.homeOf (s : State) (off : Nat) : Nat :=
  match s.place off with
  | .window d => 16 + d
  | _ => if off < 2 ^ 40 then off / 2 ^ 36 else 0

/-- The die a home lies on. -/
def homeDie (h : Nat) : Nat := if h < 16 then stackDie h else h - 16

/-- The channel of a stack offset (R233). -/
def channelOf (t : Nat) : Nat :=
  let g := t / 1024
  (natBits g 4 0) ^^^ (natBits g 9 5) ^^^ (natBits g 14 10) ^^^ (natBits g 19 15) ^^^ (natBits g 24 20) ^^^ (natBits g 25 25)

def State.stackSt? (s : State) (n : Nat) : Option StackSt := s.stackSts.find? (·.num == n)

/-- Physical channel of a granule under the re-layout of a stack whose channel has failed (R245). -/
def relaidChannel (failed g : Nat) : Nat :=
  let j := g / 31
  let c := (g + natBits j 4 0) % 31
  if c < failed then c else c + 1

/-- The channel that holds a stack offset now: behind the re-layout cursor the new map, ahead of it the old (R245). -/
def State.channelNow (s : State) (st t : Nat) : Nat :=
  match s.stackSt? st with
  | some x =>
    match x.failed with
    | some f => if t / 1024 < x.cursor then relaidChannel f (t / 1024) else channelOf t
    | none => channelOf t
  | none => channelOf t

/-- SRC of the memory controller of an offset (R310, R311). -/
def State.homeSrc (s : State) (off : Nat) : Nat :=
  match s.place off with
  | .hbm st t => srcOf (stackDie st) 7 (32 * (st % 2) + s.channelNow st t)
  | .window d => srcOf d 7 64
  | _ => 0

/-- Whether a stack offset's frame of 4 KiB was reported lost (R245): by name, or because it holds a granule of a channel that failed without
parity, or lies above the 46.5 GiB that are left once the re-layout has begun, until when the firmware may migrate it (log 62, DEDUCED). -/
def StackSt.isLost (x : StackSt) (t : Nat) : Bool :=
  x.lost.contains (t / 4096) ||
  (match x.failed with
   | some c => x.lossy && (49928994816 ≤ t && 0 < x.cursor || (List.range 4).any fun i => channelOf (t / 4096 * 4096 + 1024 * i) == c)
   | none => false)

/-- A frame that was reported lost (R245). -/
def State.isLost (s : State) (off : Nat) : Bool :=
  match s.place off with
  | .hbm st t => match s.stackSt? st with | some x => x.isLost t | none => false
  | _ => false

/-- Whether parity protects an offset's stack (R243, R245); in BISQUE it is not kept. -/
def State.hasParity (s : State) (off : Nat) : Bool :=
  match s.place off with
  | .hbm st _ => s.dev.parity && s.dev.dstate != 2 && !((s.stackSt? st).map (·.parityOff)).getD false
  | _ => false

/-- The stack offset of the granule with index `j` in a channel (R233: the hash is one-to-one). -/
def granuleAt (ch j : Nat) : Nat := 1024 * (32 * j + (ch ^^^ channelOf (32 * j * 1024)))

/-- Where the parity granule of a granule lies: its channel and its index there (R243). -/
def parityPlace (t : Nat) : Nat × Nat :=
  let j := t / 32768
  (8 * ((channelOf t / 8 + 1) % 4) + j % 8, 1376256 + j / 8)

/-- The other granules of a granule's parity group, as stack offsets (R243). -/
def parityMates (t : Nat) : List Nat :=
  let ch := channelOf t
  ((List.range 8).map (8 * (ch / 8) + ·)).filterMap fun c => if c == ch then none else some (granuleAt c (t / 32768))

/-- Whether a granule lies in a channel that has failed, and the re-layout has not reached it (R245). -/
def State.inFailed (s : State) (st t : Nat) : Bool :=
  match s.stackSt? st with
  | some x => x.failed == some (channelOf t) && x.cursor ≤ t / 1024
  | none => false

/-- Whether a byte's line cannot be read as it stands: ECC cannot correct it (R244), or its channel has failed (R245). -/
def State.unreadable (s : State) (b : Nat) : Bool :=
  s.eccBad.contains (b / 64) || (match s.place b with | .hbm st t => s.inFailed st t | _ => false)

/-- Whether the line of a byte can be rebuilt from its group and the parity granule (R243, R244): every other line of them is good. -/
def State.rebuilds (s : State) (b : Nat) : Bool :=
  s.hasParity b && (match s.place b with
    | .hbm st t =>
      let k := t % 1024
      let p := granuleAt (parityPlace t).1 (parityPlace t).2
      (p :: parityMates t).all fun g => !s.eccBad.contains ((st * 2 ^ 36 + g + k) / 64) && !s.inFailed st g
    | _ => false)

/-- Lines that cannot be read and that parity does not bring back: the read fails (R244) (log 86, DEDUCED). -/
def eccFails (s : State) (bs : List Nat) : Bool := bs.any fun b => s.unreadable b && !s.rebuilds b

/-- A read meets lines that ECC cannot correct (R244, R323): parity rebuilds and rewrites them, or they are counted as uncorrected. -/
def eccNote (s : State) (bs : List Nat) : State :=
  let bad := s.eccBad.filter fun l => bs.any fun b => b / 64 == l
  if bad.isEmpty then s
  else if bad.all fun l => s.rebuilds (64 * l) then healthAdd { s with eccBad := s.eccBad.filter fun l => !bad.contains l } 8
  else healthAdd s 9

/-- Whether a granule's scrub-pending mark is set (R275). -/
def State.marked (s : State) (off : Nat) : Bool := s.scrubMarks.contains (off / 1024)

/-- One byte at its home: zero while its granule is scrub-pending (R275). -/
def State.getByte (s : State) (off : Nat) : Byte := if s.marked off then 0 else memGet s.mem off

/-- Bytes at their homes. -/
def State.getBytes (s : State) (off : Nat) : Nat → List Byte
  | 0 => []
  | n + 1 => s.getByte off :: s.getBytes (off + 1) n

/-- A little-endian number at its home. -/
def State.getNat (s : State) (off n : Nat) : Nat := bytesNat (s.getBytes off n)

/-- Zero a scrub-pending granule and clear its mark (R275). -/
def scrubGranule (s : State) (g : Nat) : State :=
  if s.scrubMarks.contains g then
    { s with mem := memZero s.mem (g * 1024) 1024, scrubMarks := s.scrubMarks.filter (· != g) }
  else s

/-- Write one byte at its home: a marked granule is zeroed first (R275). -/
def State.putByte (s : State) (off : Nat) (b : Byte) : State :=
  { (scrubGranule s (off / 1024)) with mem := memSet (scrubGranule s (off / 1024)).mem off b }

/-- Write bytes at their homes. -/
def State.putBytes (s : State) (off : Nat) : List Byte → State
  | [] => s
  | b :: bs => (s.putByte off b).putBytes (off + 1) bs

/-- Write bytes by position at their homes. -/
def State.putBytesAt (s : State) (off : Nat) : List (Nat × Byte) → State
  | [] => s
  | (i, b) :: bs => (s.putByte (off + i) b).putBytesAt off bs

end Sys2Proof.Machine
end

