-- ==== Sys2Proof/Machine/Links.lean ====
section
/-! DEFINITION. Planes, ports and links: the plane of a request, sequence numbers, packets as flits, credits, the retry buffer (spec/20 R328
to R336). -/

namespace Sys2Proof.Machine

/-! ### Ports and planes -/

/-- A port as training leaves it (R328, R334): eight lanes; the advertised credits and the link's first LSEQ are log 26, DESIGN CHOICE. -/
def Port.trained (n : Nat) : Port :=
  { num := n, lanes := 8, runTotal := false, credits := [64, 64, 64, 64], freed := [0, 0, 0, 0], freedTotal := [0, 0, 0, 0],
    lastCinc := [0, 0, 0, 0], txSeq := 0, rxSeq := 1023, retry := [], queue := [], partialRx := [], unanswered := 0, timer := 0, tried := 0 }

def State.port (s : State) (n : Nat) : Port := (s.ports.find? (·.num == n)).getD (Port.trained n)
def State.setPort (s : State) (n : Nat) (f : Port → Port) : State :=
  { s with ports := setOr (·.num == n) f (Port.trained n) s.ports }

/-- SRC of a port (R310). -/
def portSrc (n : Nat) : Nat := srcOf (n / 3) 6 n

/-- The plane of a line with every plane in service (R329). -/
def planeBase (dev addr : Nat) : Nat := (natBits addr 13 6 ^^^ natBits dev 7 0) % 24

/-- P[i] of R329, from this device's ports (log 27, DESIGN CHOICE). -/
def planeOf (s : State) (i : Nat) : Nat :=
  (((List.range 24).map fun k => (i + k) % 24).find? fun p => (s.port p).lanes != 0).getD (i % 24)

/-- The injection window of a port in bytes (R336). -/
def portWindow (p : Port) : Nat := 2 ^ 20 * p.lanes / 8

/-- Add to the counters of a shared unit that count an event for a function (R322). -/
def sharedAdd (s : State) (unit vf ev n : Nat) : State :=
  let f (p : SharedPick) : SharedPick := if p.vf == vf && p.event == ev then { p with count := (p.count + n) % 2 ^ 48 } else p
  { s with shared := mapIf (·.unit == unit) (fun c => { c with picks := c.picks.map f }) s.shared }

/-- A stack-cache slice among the shared units, by the SRC of its memory controller (R310, R322) (log 42, DESIGN CHOICE). -/
def sliceUnit (src : Nat) : Nat := 2 ^ 16 + src

/-- Count an event at the memory controllers of storage bytes and at their slices, once for each line (R322). -/
def memCount (s : State) (stor : List Nat) (vf ev : Nat) : State :=
  (distinct (stor.map (· / 64))).foldl
    (fun s l => sharedAdd (sharedAdd s (s.homeSrc (64 * l)) vf ev 1) (sliceUnit (s.homeSrc (64 * l))) vf ev 1) s

/-- Requests at the stack cache hit or miss; a read that misses reads HBM (R322). -/
def cacheCount (s : State) (stor : List Nat) (vf : Nat) (hit reads : Bool) : State :=
  if hit then memCount s stor vf 0x40
  else
    let t := memCount s stor vf 0x41
    if reads then memCount t stor vf 0x43 else t

/-- An engine's request at the stack cache: a hit or a miss, a free choice where a counter looks (log 33, DESIGN CHOICE). -/
def cacheMeet (s : State) (stor : List Nat) (vf : Nat) (reads : Bool) : State :=
  if s.shared.isEmpty then s else let c := choose s 2; cacheCount c.2 stor vf (c.1 == 0) reads

/-! ### Packets as flits -/

/-- The header of R331; the layout of MOD is not given, its eight bits are the argument (log 21, DESIGN CHOICE). -/
def pktHeader (p : FabPkt) (mod : Nat) : Nat :=
  p.cid.toNat * 2 ^ 192 + p.addr.toNat * 2 ^ 140 + p.srcdev.toNat * 2 ^ 128 + p.dstdev.toNat * 2 ^ 116 + p.pkey.toNat * 2 ^ 100 +
  p.seq.toNat * 2 ^ 76 + p.op.toNat * 2 ^ 68 + p.len.toNat * 2 ^ 63 + p.vc.toNat * 2 ^ 61 + mod % 256 * 2 ^ 53 +
  p.plane.toNat * 2 ^ 48 + p.tag.toNat * 2 ^ 32 + p.zero7.toNat * 2 ^ 25 + p.svf.toNat * 2 ^ 16 + p.zero16.toNat

/-- Free bytes that fill what no field names. -/
def freeBytes (s : State) (n : Nat) : List Byte := (List.range n).map fun i => BitVec.ofNat 8 (Config.freeNat (s.free + 1 + i))

/-- A packet's 32 + 16 x LEN bytes, filled up to whole flits (R331, R333). -/
def pktBytes (s : State) (p : FabPkt) : List Byte :=
  let n := ceilDiv (32 + 16 * p.len.toNat) 64 * 64
  ((natBytes 32 (pktHeader p (Config.freeNat s.free))) ++ p.payload ++ freeBytes s 320).take n

/-- Cut bytes into pieces of 64; at most `fuel`. -/
def cut64 : Nat → List Byte → List (List Byte)
  | 0, _ => []
  | fuel + 1, l => if l.isEmpty then [] else l.take 64 :: cut64 fuel (l.drop 64)

/-- The flits of a packet, before link fields are set (R333). -/
def pktFlits (s : State) (p : FabPkt) : List FlitW :=
  let ds := cut64 5 (pktBytes s p)
  ((List.range ds.length).zip ds).map fun d =>
    { vc := p.vc, sop := d.1 == 0, eop := d.1 + 1 == ds.length, cvc := 0, cinc := 0, lseq := 0, lack := 0, data := d.2 }

/-! ### Credits -/

/-- Entry of a list of four, by virtual channel. -/
def vcGet (l : List Nat) (v : Nat) : Nat := l.getD v 0
def vcSet (l : List Nat) (v n : Nat) : List Nat := l.set v n

/-- The credit fields of the next flit: the channel credited and CINC (R334). -/
def creditOf (p : Port) (v : Nat) : Nat := if p.runTotal then vcGet p.freedTotal v % 64 else min 63 (vcGet p.freed v)

/-- The channel the next flit credits: the lowest with something freed. -/
def creditVc (p : Port) : Nat := ((List.range 4).find? fun v => vcGet p.freed v != 0).getD 0

/-- What has been credited is no longer owed. -/
def credited (p : Port) (v : Nat) : Port :=
  { p with freed := vcSet p.freed v (if p.runTotal then 0 else vcGet p.freed v - min 63 (vcGet p.freed v)) }

/-- Send one flit: link sequence, acknowledgement, credit; it stays in the retry buffer (R333). -/
def linkSend (p : Port) (f : FlitW) (cv : Nat) : Port × FlitW :=
  let g := { f with cvc := BitVec.ofNat 2 cv, cinc := BitVec.ofNat 6 (creditOf p cv), lseq := BitVec.ofNat 10 p.txSeq,
                    lack := BitVec.ofNat 10 p.rxSeq }
  ({ credited p cv with txSeq := (p.txSeq + 1) % 1024, retry := p.retry ++ [(p.txSeq, g)] }, g)

/-- An idle flit (R333, R334): it belongs to no packet and spends no credit (log 26, DESIGN CHOICE). -/
def idleFlit : FlitW := { vc := 0, sop := false, eop := false, cvc := 0, cinc := 0, lseq := 0, lack := 0, data := List.replicate 64 0 }

/-- Send what the credits and the retry buffer allow (R333, R334): flits of one channel stay in order. -/
def pumpList : Port → List (Nat × FlitW) → List (Nat × FlitW) → List FlitW → Port × List FlitW
  | p, [], left, out => ({ p with queue := left }, out)
  | p, (v, f) :: q, left, out =>
    if 0 < vcGet p.credits v && p.retry.length < 512 && !(left.any (·.1 == v)) then
      let r := linkSend { p with credits := vcSet p.credits v (vcGet p.credits v - 1) } f (creditVc p)
      pumpList r.1 q left (out ++ [r.2])
    else pumpList p q (left ++ [(v, f)]) out

/-- The retry timer starts anew where the oldest unacknowledged flit is another than before (R333, R336). -/
def timed (now : Nat) (old p : Port) : Port := if (old.retry.head?.map (·.1)) == p.retry.head?.map (·.1) then p else { p with timer := now }

/-- Let a port send; one out of service does not. -/
def pump (s : State) (n : Nat) : State :=
  if (s.port n).lanes == 0 then s else
  let r := pumpList (s.port n) (s.port n).queue [] []
  let t := s.setPort n fun p => timed s.time.dtc p r.1
  { t with outbox := t.outbox ++ r.2.map (Out.flit n) }

/-! ### Sending a packet -/

/-- The next sequence number of a flow (R331). -/
def flowSeq (s : State) (dev plane : Nat) : Nat :=
  ((s.flows.find? fun f => f.dev == dev && f.plane == plane).map (·.seq)).getD 0

/-- Send a packet on its plane: its sequence number, its flits (R330, R331, R333). -/
def sendPkt (s : State) (p : FabPkt) : State :=
  let dev := p.dstdev.toNat
  let plane := p.plane.toNat
  let n := flowSeq s dev plane
  let q := { p with seq := BitVec.ofNat 24 n }
  let fl := pktFlits s q
  let s1 := { s with flows := setOr (fun f => f.dev == dev && f.plane == plane) (fun f => { f with seq := (n + 1) % 2 ^ 24 })
                       ⟨dev, plane, 0⟩ s.flows
                     outbox := s.outbox ++ [Out.pkt q]
                     free := s.free + 321 }
  let s2 := s1.setPort plane fun x => { x with queue := x.queue ++ fl.map fun (f : FlitW) => (f.vc.toNat, f) }
  pump (sharedAdd s2 (portSrc plane) p.svf.toNat 0x45 fl.length) plane

/-- A packet with every field zero but the device numbers and the plane. -/
def blankPkt (s : State) (dev plane : Nat) : FabPkt :=
  { cid := 0, addr := 0, srcdev := BitVec.ofNat 12 s.dev.dev, dstdev := BitVec.ofNat 12 dev, pkey := 0, seq := 0, op := 0, len := 0,
    vc := 0, homeOp := .read, size := 0, order := 0, scope := 0, plane := BitVec.ofNat 5 plane, tag := 0, zero7 := 0, svf := 0,
    zero16 := 0, payload := [] }

/-! ### Receiving a flit -/

/-- Drop from the retry buffer what LACK covers (R333). -/
def ackRetry (p : Port) (lack : Nat) : Port :=
  if p.retry.any (·.1 == lack) then
    { p with retry := (p.retry.dropWhile (·.1 != lack)).drop 1 }
  else p

/-- Take the credit field of a flit (R334). -/
def takeCredit (p : Port) (v cinc : Nat) : Port :=
  let n := if p.runTotal then (cinc + 64 - vcGet p.lastCinc v) % 64 else cinc
  { p with credits := vcSet p.credits v (vcGet p.credits v + n), lastCinc := vcSet p.lastCinc v cinc }

/-- Free flits of a channel's buffer; 63 uncredited ones make an idle flit leave first (R334). -/
def freeFlits (v : Nat) : Nat → Port × List FlitW → Port × List FlitW
  | 0, r => r
  | n + 1, (p, out) =>
    let r := if vcGet p.freed v == 63 then (let x := linkSend p idleFlit v; (x.1, out ++ [x.2])) else (p, out)
    freeFlits v n ({ r.1 with freed := vcSet r.1.freed v (vcGet r.1.freed v + 1),
                              freedTotal := vcSet r.1.freedTotal v (vcGet r.1.freedTotal v + 1) }, r.2)

/-- The data of a flit joins its packet; a complete packet leaves the buffer (R333). What the packet does is its own step. -/
def takeData (p : Port) (f : FlitW) : Port × List FlitW :=
  let v := f.vc.toNat
  let old := (p.partialRx.find? (·.1 == v)).map (·.2)
  let body : Option (List Byte) := if f.sop then some f.data else old.map (· ++ f.data)
  match body with
  | none => (p, [])
  | some b =>
    let rest := p.partialRx.filter (·.1 != v)
    if f.eop then freeFlits v (ceilDiv b.length 64) ({ p with partialRx := rest }, [])
    else ({ p with partialRx := (v, b) :: rest }, [])

/-- The function of the packet that a flit completes (R331), and its flits, for the counters of the port (R322). -/
def flitOwner (p : Port) (f : FlitW) : Option (Nat × Nat) :=
  let b : List Byte := if f.sop then f.data else ((p.partialRx.find? (·.1 == f.vc.toNat)).map (·.2)).getD [] ++ f.data
  if f.eop then some (natBits (bytesNat (b.take 32)) 24 16, ceilDiv b.length 64) else none

/-- A flit arrives (R333): one that fails FEC or is out of link sequence is discarded. -/
def recvFlit (s : State) (n : Nat) (f : FlitW) (intact : Bool) : State :=
  let p := s.port n
  if !intact || f.lseq.toNat != (p.rxSeq + 1) % 1024 then s
  else
    let p1 := takeCredit (ackRetry { p with rxSeq := f.lseq.toNat } f.lack.toNat) f.cvc.toNat f.cinc.toNat
    let r := takeData p1 f
    let s1 := match flitOwner p f with
      | some (vf, k) => sharedAdd s (portSrc n) vf 0x46 k
      | none => s
    let t := s1.setPort n fun p => timed s.time.dtc p r.1
    pump { t with outbox := t.outbox ++ r.2.map (Out.flit n) } n

end Sys2Proof.Machine
end

