-- ==== Sys2Proof/Machine/Forms.lean ====
section
/-! DEFINITION. Instruction forms: the native opcode and the format fields of every encoded instruction (spec/03 R40, R41,
R56), and what each field of it must hold (the checks ILL_RESERVED, ILL_DEST, ILL_PAIR and ILL_WINDOW of spec/03 R54). -/

namespace Sys2Proof

/-- An encoded instruction: its format, native opcode and fields (spec/03 R40, R52). -/
inductive Enc where
  | h (op : BitVec 4) (f : HF)
  | w (op : BitVec 10) (f : WF)
  | wi (op : BitVec 10) (f : WIF)
  | l (op : BitVec 10) (f : LF)
  | li (op : BitVec 10) (f : LIF)
deriving DecidableEq, Repr

/-- Place of a load size in its opcode run (spec/07 R133, R142). -/
def LdSize.code : LdSize → Nat
  | .b8 => 0 | .b16 => 1 | .b32 => 2 | .b64 => 3 | .b128 => 4 | .s8 => 5 | .s16 => 6

/-- Place of a store size in its opcode run (spec/07 R133, R142). -/
def StSize.code : StSize → Nat
  | .b8 => 0 | .b16 => 1 | .b32 => 2 | .b64 => 3 | .b128 => 4

/-- Place of an atomic operation in its opcode run (spec/07 R140, R142). -/
def AtomOp.code : AtomOp → Nat
  | .add => 0 | .min => 1 | .max => 2 | .and => 3 | .or => 4 | .xor => 5 | .xchg => 6 | .cas => 7 | .fadd => 8

/-- What an instruction does with one of its register fields (spec/03 R42, R43): registers read or written in one of the four
widths, a number with the largest value it may hold (`numOr63` also admits 63), nothing (63), or no such field in its format. -/
inductive FieldUse where
  | unused | absent
  | src | srcPair | srcQuad | srcBlock
  | dst | dstPair | dstQuad
  | num (max : Nat)
  | numOr63 (max : Nat)
deriving DecidableEq, Repr

/-- The use an instruction makes of its fields; `nwOk` says that NW = 1 is permitted (R44 and each entry), `extra` that MOD,
the immediate and any further field hold values its entry defines. -/
structure Usage where
  d : FieldUse
  a : FieldUse
  b : FieldUse
  c : FieldUse
  nwOk : Bool
  extra : Bool
deriving DecidableEq, Repr

/-- Format H: D is destination and first source, S the other source (R41); its 5-bit fields always name registers. -/
def hUse : Usage := ⟨.absent, .absent, .absent, .absent, true, true⟩
/-- A format W instruction with a register result. -/
def wUse (d a b : FieldUse) : Usage := ⟨d, a, b, .absent, true, true⟩
/-- A format W instruction that writes one bit of `pw`: D is its number, NW = 0 (R73, R118, R148). -/
def numUse (a b : FieldUse) : Usage := ⟨.num 31, a, b, .absent, false, true⟩
/-- A format WI instruction (it has no NW bit). -/
def wiUse (d a : FieldUse) (nwOk extra : Bool) : Usage := ⟨d, a, .absent, .absent, nwOk, extra⟩
/-- A format LI instruction. -/
def liUse (d a : FieldUse) (nwOk extra : Bool) : Usage := ⟨d, a, .absent, .absent, nwOk, extra⟩
/-- MOD and IMM16 zero. -/
def lPlain (f : LF) : Bool := f.mod == 0 && f.imm16 == 0
/-- Integer L form without immediate: MOD[47:45] and IMM16 zero; MOD[44] is the type (R57, R65). -/
def intPlain (f : LF) : Bool := f.mod.toNat < 2 && f.imm16 == 0
/-- Integer L form whose B may be IMM16 under MOD[47] (R57, R66); `c` says how C is used. -/
def intUse (f : LF) (d c : FieldUse) : Usage :=
  ⟨d, .src, if f.mod.getLsbD 3 then .unused else .src, c, true,
    !f.mod.getLsbD 1 && !f.mod.getLsbD 2 && (f.mod.getLsbD 3 || f.imm16 == 0)⟩
/-- Integer L form with its own rule for MOD and IMM16. -/
def intUseR (_ : LF) (d a b c : FieldUse) (extra : Bool) : Usage := ⟨d, a, b, c, true, extra⟩
/-- `add64` (R74): pairs, B or IMM16. -/
def intUsePair (f : LF) : Usage :=
  ⟨.dstPair, .srcPair, if f.mod.getLsbD 3 then .unused else .srcPair, .unused, true,
    !f.mod.getLsbD 1 && !f.mod.getLsbD 2 && (f.mod.getLsbD 3 || f.imm16 == 0)⟩
/-- The bit field of `bfx` and `bfi` (R71). -/
def bfOk (f : LF) : Bool :=
  let pos := natBits f.imm16.toNat 4 0
  let len := natBits f.imm16.toNat 10 5
  f.mod.toNat < 2 && natBits f.imm16.toNat 15 11 == 0 && 1 ≤ len && len ≤ 32 && pos + len ≤ 32
/-- Integer compare in L: MOD[46:45] is the combination (R73). -/
def cmpIntUse (f : LF) : Usage :=
  ⟨.num 31, .src, if f.mod.getLsbD 3 then .unused else .src, .unused, false, f.mod.getLsbD 3 || f.imm16 == 0⟩
/-- A mode field in IMM16[2:0] with values 0 to 3, `flags` one-bit flags above it, the rest zero (R108, R109). -/
def modeOk (f : LF) (flags : Nat) : Bool := f.imm16.toNat % 8 ≤ 3 && f.imm16.toNat < 8 * 2 ^ flags
/-- Operand shapes of the float class (R108, R116, R117). -/
inductive FloatShape where
  | one | two | three | cls | ldexp
deriving DecidableEq, Repr
/-- Float L form (R107, R108): type codes up to `maxTy`; `.f64` operands are pairs. -/
def floatUse (f : LF) (maxTy : Nat) (sh : FloatShape) (extra : Bool) : Usage :=
  let s : FieldUse := if f.mod == 3 then .srcPair else .src
  let d : FieldUse := if f.mod == 3 then .dstPair else .dst
  let ok := f.mod.toNat ≤ maxTy && extra
  match sh with
  | .one => ⟨d, s, .unused, .unused, true, ok⟩
  | .two => ⟨d, s, s, .unused, true, ok⟩
  | .three => ⟨d, s, s, s, true, ok⟩
  | .cls => ⟨.dst, s, .unused, .unused, true, ok⟩
  | .ldexp => ⟨d, s, .src, .unused, true, ok⟩
/-- Float compare in L (R118): IMM16[1:0] the combination; packed types write bits d and d + 1, so d is at most 30. -/
def cmpFloatUse (f : LF) : Usage :=
  let s : FieldUse := if f.mod == 3 then .srcPair else .src
  ⟨.num (if f.mod == 4 || f.mod == 5 then 30 else 31), s, s, .unused, false, f.mod.toNat ≤ 5 && f.imm16.toNat < 4⟩
/-- The types of the complex operations: `.f32`, `.f16x2`, `.bf16x2` (R108). -/
def complexTy (f : LF) : Bool := f.mod == 0 || f.mod == 4 || f.mod == 5
/-- `cmul` (R126): pairs for `.f32`. -/
def complexUse (f : LF) (_ : FieldUse) (extra nwOk : Bool) : Usage :=
  if f.mod == 0 then ⟨.dstPair, .srcPair, .srcPair, .srcPair, nwOk, extra⟩
  else ⟨.dst, .src, .src, .src, nwOk, complexTy f && extra⟩
/-- `bfly` (R127): D a quad for `.f32`, a pair for the packed types; NW = 0. -/
def bflyUse (f : LF) : Usage :=
  if f.mod == 0 then ⟨.dstQuad, .srcPair, .srcPair, .srcPair, false, f.imm16.toNat < 4⟩
  else ⟨.dstPair, .src, .src, .src, false, complexTy f && f.imm16.toNat < 4⟩
/-- Packed format codes of R119. -/
def packedCode (n : Nat) : Bool := n == 11 || n == 12
/-- `cvt` (R119, R120). -/
def cvtUse (f : LF) : Usage :=
  let s := f.mod.toNat
  let t := natBits f.imm16.toNat 3 0
  let m := natBits f.imm16.toNat 6 4
  let satf := natBits f.imm16.toNat 7 7
  let pairing := (!packedCode s && !packedCode t) ||
    ((s == 0 || packedCode s) && (t == 0 || packedCode t))
  ⟨if t == 3 || (packedCode s && t == 0) then .dstPair else .dst,
   if s == 3 || (s == 0 && packedCode t) then .srcPair else .src,
   if m == 4 then .src else .unused, .unused, true,
   s ≤ 12 && t ≤ 12 && m ≤ 4 && natBits f.imm16.toNat 15 8 == 0 && pairing &&
     !(satf == 1 && (t == 4 || t == 5))⟩
/-- The block element formats of R119: 6 to 10, 13 and 14. -/
def blockCode (n : Nat) : Bool := (6 ≤ n && n ≤ 10) || n == 13 || n == 14
/-- `qblk` (R122). -/
def qblkUse (f : LF) : Usage :=
  let i := f.imm16.toNat
  let m := natBits i 8 6
  ⟨.dstPair, .src, if m == 4 then .src else .unused, .unused, true,
   f.mod == 0 && blockCode (natBits i 3 0) && natBits i 5 4 ≤ 2 && m ≤ 4 &&
     (natBits i 3 0 < 13 || m == 0) && natBits i 15 10 == 0⟩
/-- `dqblk` (R123). -/
def dqblkUse (f : LF) : Usage :=
  let i := f.imm16.toNat
  ⟨.dst, .src, .src, .unused, true,
   f.mod == 0 && blockCode (natBits i 3 0) && (natBits i 5 4 == 0 || natBits i 5 4 == 2) && natBits i 8 6 == 0 &&
     natBits i 15 10 == 0⟩
/-- Shuffles in L (R147): MOD[47] immediate, MOD[44] `.b64`. -/
def shufUse (f : LF) : Usage :=
  let p := f.mod.getLsbD 0
  let im := f.mod.getLsbD 3
  ⟨if p then .dstPair else .dst, if p then .srcPair else .src, if im then .unused else .src, .unused, true,
   !f.mod.getLsbD 1 && !f.mod.getLsbD 2 && (if im then f.imm16.toNat < 32 else f.imm16 == 0)⟩
/-- Destination of a load by size (R133). -/
def LdSize.dst : LdSize → FieldUse
  | .b64 => .dstPair
  | .b128 => .dstQuad
  | _ => .dst
/-- Data of a store by size (R133). -/
def StSize.src : StSize → FieldUse
  | .b64 => .srcPair
  | .b128 => .srcQuad
  | _ => .src
/-- Order and scope of R130: IMM16[15] zero, scope 0 under `.rlx`. -/
def orderOk (f : LF) : Bool :=
  natBits f.imm16.toNat 15 15 == 0 && (f.mod.toNat % 4 != 0 || natBits f.imm16.toNat 14 12 == 0)
/-- `ld` (R129, R130, R136). -/
def ldUse (z : LdSize) (f : LF) : Usage :=
  let o := f.mod.toNat % 4
  let nc := f.mod.getLsbD 2
  let rz := f.mod.getLsbD 3
  ⟨z.dst, .srcPair, .unused, if rz then .num 31 else .unused, false,
   o ≤ 1 && orderOk f && !(nc && o != 0) && !(nc && rz)⟩
/-- `st` (R129, R130). -/
def stUse (z : StSize) (f : LF) : Usage :=
  let o := f.mod.toNat % 4
  ⟨.unused, .srcPair, z.src, .unused, false, (o == 0 || o == 2) && !f.mod.getLsbD 3 && orderOk f⟩
/-- `lds` (R142). -/
def ldsUse (z : LdSize) (f : LF) : Usage :=
  ⟨z.dst, .src, .unused, .unused, false, f.mod == 0 && f.imm16.toNat < 4096⟩
/-- `sts` (R142). -/
def stsUse (z : StSize) (f : LF) : Usage :=
  ⟨.unused, .src, z.src, .unused, false, f.mod == 0 && f.imm16.toNat < 4096⟩
/-- `sldt` (R144). -/
def sldtUse (f : LF) : Usage :=
  let lrs := natBits f.imm16.toNat 3 0
  let xw := natBits f.imm16.toNat 6 4
  ⟨if f.mod == 1 then .dstPair else .dst, .src, .unused, .unused, false,
   f.mod.toNat < 2 && natBits f.imm16.toNat 15 7 == 0 && 2 ≤ lrs && lrs ≤ 12 && xw ≤ 5 && xw + 2 ≤ lrs⟩
/-- Type code of an atomic: MOD[47:46] (R140). -/
def atomTy (f : LF) : BitVec 2 := BitVec.ofNat 2 (f.mod.toNat / 4)
/-- Whether an atomic's operands are 8 bytes wide (R140). -/
def atomWide (op : AtomOp) (ty : BitVec 2) : Bool := ty == 3 || (ty == 2 && op != .fadd)
/-- Operand fields of `atom` and `atoms` (R140, R142). -/
def atomFields (op : AtomOp) (f : LF) (a : FieldUse) (extra : Bool) : Usage :=
  let w := atomWide op (atomTy f)
  let s : FieldUse := if w then .srcPair else .src
  ⟨if w then .dstPair else .dst, a, s, if op = .cas then s else .unused, false, extra⟩
/-- `atom` (R129, R130, R140). -/
def atomUse (op : AtomOp) (f : LF) : Usage := atomFields op f .srcPair (orderOk f)
/-- `atoms` (R142). -/
def atomsUse (op : AtomOp) (f : LF) : Usage := atomFields op f .src (f.mod.toNat % 4 == 0 && f.imm16.toNat < 4096)
/-- An engine instruction that reads A (and B) and answers with a token in D (R157, R165, R173, R190). -/
def tokenUse (f : LF) (a b : FieldUse) : Usage := ⟨.dst, a, b, .unused, false, lPlain f⟩
/-- `accdrain` (R173). -/
def drainUse (f : LF) : Usage :=
  let i := f.imm16.toNat
  let fm := natBits i 3 0
  ⟨.dst, .src, .src, if natBits i 8 8 == 1 then .src else .unused, false,
   f.mod == 0 && (fm == 0 || fm == 1 || fm == 2 || fm == 4 || fm == 6 || fm == 7) && natBits i 6 4 ≤ 3 &&
     !(natBits i 7 7 == 1 && fm == 4) && natBits i 15 9 == 0⟩
/-- `fence` (R180): order 1 to 3, scope 1 to 7, IMM8[7:5] zero. -/
def fenceOk (f : WIF) : Bool :=
  let i := f.imm8.toNat
  i % 4 != 0 && natBits i 4 2 != 0 && natBits i 7 5 == 0

/-- The format, opcode and fields of an encoded instruction (spec/03 R41, R56 and the opcodes of spec/04 to 09). -/
def Instr.enc : Instr → Option Enc
  | .movH f => some (.h 0x0 f)
  | .addS32H f => some (.h 0x1 f)
  | .subS32H f => some (.h 0x2 f)
  | .mulS32H f => some (.h 0x3 f)
  | .andH f => some (.h 0x4 f)
  | .orH f => some (.h 0x5 f)
  | .xorH f => some (.h 0x6 f)
  | .shlH f => some (.h 0x7 f)
  | .shrH f => some (.h 0x8 f)
  | .sarH f => some (.h 0x9 f)
  | .addF32H f => some (.h 0xa f)
  | .subF32H f => some (.h 0xb f)
  | .mulF32H f => some (.h 0xc f)
  | .minF32H f => some (.h 0xd f)
  | .maxF32H f => some (.h 0xe f)
  | .negF32H f => some (.h 0xf f)
  | .movW f => some (.w 0x0 f)
  | .movL f => some (.l 0x0 f)
  | .li f => some (.li 0x1 f)
  | .addW f => some (.w 0x2 f)
  | .addWi f => some (.wi 0x42 f)
  | .addL f => some (.l 0x2 f)
  | .subW f => some (.w 0x3 f)
  | .subL f => some (.l 0x3 f)
  | .addSatW f => some (.w 0x4 f)
  | .addSatL f => some (.l 0x4 f)
  | .subSatW f => some (.w 0x5 f)
  | .subSatL f => some (.l 0x5 f)
  | .mulW f => some (.w 0x6 f)
  | .mulWi f => some (.wi 0x46 f)
  | .mulL f => some (.l 0x6 f)
  | .mulhiW f => some (.w 0x7 f)
  | .mulhiL f => some (.l 0x7 f)
  | .mulwW f => some (.w 0x8 f)
  | .mulwL f => some (.l 0x8 f)
  | .mad f => some (.l 0x9 f)
  | .madw f => some (.l 0xa f)
  | .minW f => some (.w 0xb f)
  | .minWi f => some (.wi 0x4b f)
  | .minL f => some (.l 0xb f)
  | .maxW f => some (.w 0xc f)
  | .maxWi f => some (.wi 0x4c f)
  | .maxL f => some (.l 0xc f)
  | .absW f => some (.w 0xd f)
  | .absL f => some (.l 0xd f)
  | .negW f => some (.w 0xe f)
  | .negL f => some (.l 0xe f)
  | .andW f => some (.w 0x10 f)
  | .andWi f => some (.wi 0x50 f)
  | .andL f => some (.l 0x10 f)
  | .orW f => some (.w 0x11 f)
  | .orWi f => some (.wi 0x51 f)
  | .orL f => some (.l 0x11 f)
  | .xorW f => some (.w 0x12 f)
  | .xorWi f => some (.wi 0x52 f)
  | .xorL f => some (.l 0x12 f)
  | .andnW f => some (.w 0x13 f)
  | .andnL f => some (.l 0x13 f)
  | .notW f => some (.w 0x14 f)
  | .notL f => some (.l 0x14 f)
  | .shlW f => some (.w 0x15 f)
  | .shlWi f => some (.wi 0x55 f)
  | .shlL f => some (.l 0x15 f)
  | .shrW f => some (.w 0x16 f)
  | .shrWi f => some (.wi 0x56 f)
  | .shrL f => some (.l 0x16 f)
  | .sarW f => some (.w 0x17 f)
  | .sarWi f => some (.wi 0x57 f)
  | .sarL f => some (.l 0x17 f)
  | .rotW f => some (.w 0x18 f)
  | .rotWi f => some (.wi 0x58 f)
  | .rotL f => some (.l 0x18 f)
  | .bfx f => some (.l 0x19 f)
  | .bfi f => some (.l 0x1a f)
  | .popcW f => some (.w 0x1b f)
  | .popcL f => some (.l 0x1b f)
  | .clzW f => some (.w 0x1c f)
  | .clzL f => some (.l 0x1c f)
  | .ctzW f => some (.w 0x1d f)
  | .ctzL f => some (.l 0x1d f)
  | .brevW f => some (.w 0x1e f)
  | .brevL f => some (.l 0x1e f)
  | .bsel f => some (.l 0x1f f)
  | .cmpEqW f => some (.w 0x20 f)
  | .cmpNeW f => some (.w 0x21 f)
  | .cmpLtW f => some (.w 0x22 f)
  | .cmpLeW f => some (.w 0x23 f)
  | .cmpGtW f => some (.w 0x24 f)
  | .cmpGeW f => some (.w 0x25 f)
  | .cmpEqWi f => some (.wi 0x60 f)
  | .cmpNeWi f => some (.wi 0x61 f)
  | .cmpLtWi f => some (.wi 0x62 f)
  | .cmpLeWi f => some (.wi 0x63 f)
  | .cmpGtWi f => some (.wi 0x64 f)
  | .cmpGeWi f => some (.wi 0x65 f)
  | .cmpEqL f => some (.l 0x20 f)
  | .cmpNeL f => some (.l 0x21 f)
  | .cmpLtL f => some (.l 0x22 f)
  | .cmpLeL f => some (.l 0x23 f)
  | .cmpGtL f => some (.l 0x24 f)
  | .cmpGeL f => some (.l 0x25 f)
  | .sel f => some (.l 0x26 f)
  | .add64 f => some (.l 0x28 f)
  | .lea64 f => some (.l 0x29 f)
  | .addF32W f => some (.w 0x80 f)
  | .addFloatL f => some (.l 0x80 f)
  | .subF32W f => some (.w 0x81 f)
  | .subFloatL f => some (.l 0x81 f)
  | .mulF32W f => some (.w 0x82 f)
  | .mulFloatL f => some (.l 0x82 f)
  | .fma f => some (.l 0x83 f)
  | .minF32W f => some (.w 0x84 f)
  | .minFloatL f => some (.l 0x84 f)
  | .maxF32W f => some (.w 0x85 f)
  | .maxFloatL f => some (.l 0x85 f)
  | .minpW f => some (.w 0x86 f)
  | .minpL f => some (.l 0x86 f)
  | .maxpW f => some (.w 0x87 f)
  | .maxpL f => some (.l 0x87 f)
  | .absF32W f => some (.w 0x88 f)
  | .absFloatL f => some (.l 0x88 f)
  | .negF32W f => some (.w 0x89 f)
  | .negFloatL f => some (.l 0x89 f)
  | .clsW f => some (.w 0x8a f)
  | .clsL f => some (.l 0x8a f)
  | .cmpEqF32W f => some (.w 0x90 f)
  | .cmpNeF32W f => some (.w 0x91 f)
  | .cmpLtF32W f => some (.w 0x92 f)
  | .cmpLeF32W f => some (.w 0x93 f)
  | .cmpGtF32W f => some (.w 0x94 f)
  | .cmpGeF32W f => some (.w 0x95 f)
  | .cmpEqFloatL f => some (.l 0x90 f)
  | .cmpNeFloatL f => some (.l 0x91 f)
  | .cmpLtFloatL f => some (.l 0x92 f)
  | .cmpLeFloatL f => some (.l 0x93 f)
  | .cmpGtFloatL f => some (.l 0x94 f)
  | .cmpGeFloatL f => some (.l 0x95 f)
  | .rcpW f => some (.w 0xa0 f)
  | .rcpL f => some (.l 0xa0 f)
  | .rsqW f => some (.w 0xa1 f)
  | .rsqL f => some (.l 0xa1 f)
  | .sqrtW f => some (.w 0xa2 f)
  | .sqrtL f => some (.l 0xa2 f)
  | .divW f => some (.w 0xa3 f)
  | .divL f => some (.l 0xa3 f)
  | .exp2W f => some (.w 0xa4 f)
  | .exp2L f => some (.l 0xa4 f)
  | .log2W f => some (.w 0xa5 f)
  | .log2L f => some (.l 0xa5 f)
  | .sinpW f => some (.w 0xa6 f)
  | .sinpL f => some (.l 0xa6 f)
  | .cospW f => some (.w 0xa7 f)
  | .cospL f => some (.l 0xa7 f)
  | .frcW f => some (.w 0xa8 f)
  | .frcL f => some (.l 0xa8 f)
  | .rintW f => some (.w 0xa9 f)
  | .rintL f => some (.l 0xa9 f)
  | .ldexpW f => some (.w 0xaa f)
  | .ldexpL f => some (.l 0xaa f)
  | .dot2 f => some (.l 0xb0 f)
  | .cmul f => some (.l 0xb1 f)
  | .bfly f => some (.l 0xb2 f)
  | .twid f => some (.l 0xb3 f)
  | .cvt f => some (.l 0x100 f)
  | .pkW f => some (.w 0x101 f)
  | .pkL f => some (.l 0x101 f)
  | .upkW f => some (.w 0x102 f)
  | .upkL f => some (.l 0x102 f)
  | .qblk f => some (.l 0x103 f)
  | .dqblk f => some (.l 0x104 f)
  | .shufIdxW f => some (.w 0x140 f)
  | .shufIdxL f => some (.l 0x140 f)
  | .shufUpW f => some (.w 0x141 f)
  | .shufUpL f => some (.l 0x141 f)
  | .shufDnW f => some (.w 0x142 f)
  | .shufDnL f => some (.l 0x142 f)
  | .shufXorW f => some (.w 0x143 f)
  | .shufXorL f => some (.l 0x143 f)
  | .voteAnyW f => some (.w 0x148 f)
  | .voteAnyL f => some (.l 0x148 f)
  | .voteAllW f => some (.w 0x149 f)
  | .voteAllL f => some (.l 0x149 f)
  | .voteBalW f => some (.w 0x14a f)
  | .voteBalL f => some (.l 0x14a f)
  | .redcAddW f => some (.w 0x150 f)
  | .redcAddL f => some (.l 0x150 f)
  | .redcMinW f => some (.w 0x151 f)
  | .redcMinL f => some (.l 0x151 f)
  | .redcMaxW f => some (.w 0x152 f)
  | .redcMaxL f => some (.l 0x152 f)
  | .ld z f => some (.l (BitVec.ofNat 10 (0x180 + z.code)) f)
  | .st z f => some (.l (BitVec.ofNat 10 (0x188 + z.code)) f)
  | .lds z f => some (.l (BitVec.ofNat 10 (0x190 + z.code)) f)
  | .sts z f => some (.l (BitVec.ofNat 10 (0x198 + z.code)) f)
  | .sldt f => some (.l 0x19e f)
  | .atom z f => some (.l (BitVec.ofNat 10 (0x1a0 + z.code)) f)
  | .atoms z f => some (.l (BitVec.ofNat 10 (0x1b0 + z.code)) f)
  | .pf f => some (.l 0x1c0 f)
  | .cpa f => some (.l 0x200 f)
  | .cpw f => some (.w 0x201 f)
  | .cpq f => some (.w 0x202 f)
  | .bcopy f => some (.l 0x208 f)
  | .lease f => some (.l 0x210 f)
  | .unlease f => some (.w 0x211 f)
  | .mtask f => some (.l 0x240 f)
  | .accz f => some (.l 0x241 f)
  | .accld f => some (.l 0x242 f)
  | .accst f => some (.l 0x243 f)
  | .accdrain f => some (.l 0x244 f)
  | .br f => some (.li 0x280 f)
  | .bcT f => some (.li 0x281 f)
  | .bcF f => some (.li 0x282 f)
  | .brx f => some (.w 0x283 f)
  | .call f => some (.li 0x284 f)
  | .ret f => some (.w 0x285 f)
  | .join => some (.w 0x286 ⟨0, 0, 63, 63, 63⟩)
  | .fork f => some (.l 0x287 f)
  | .halt f => some (.w 0x288 f)
  | .yield f => some (.w 0x289 f)
  | .nop => some (.w 0x28a ⟨0, 0, 63, 63, 63⟩)
  | .nopG => some (.w 0x28a ⟨1, 0, 63, 63, 63⟩)
  | .trap f => some (.wi 0x28b f)
  | .brk f => some (.wi 0x28c f)
  | .bar f => some (.wi 0x2c0 f)
  | .barArv f => some (.wi 0x2c1 f)
  | .barWt f => some (.wi 0x2c2 f)
  | .gbar f => some (.wi 0x2c3 f)
  | .fence f => some (.wi 0x2c8 f)
  | .vfence f => some (.w 0x2c9 f)
  | .sigAdd f => some (.l 0x2d0 f)
  | .sigSet f => some (.l 0x2d1 f)
  | .sigRead f => some (.l 0x2d2 f)
  | .sigw f => some (.l 0x2d3 f)
  | .enq f => some (.l 0x2d8 f)
  | .wwait f => some (.l 0x2dc f)
  | .ctrAdd f => some (.l 0x300 f)
  | .ctrRead f => some (.l 0x301 f)
  | .ctrSet f => some (.l 0x302 f)
  | .tsend f => some (.l 0x308 f)
  | .invoke f => some (.l 0x310 f)
  | .hwait f => some (.l 0x311 f)
  | .hstat f => some (.l 0x312 f)
  | .timeI f => some (.w 0x340 f)
  | .evt f => some (.l 0x341 f)
  | .perf f => some (.l 0x342 f)
  | .sysr f => some (.wi 0x343 f)
  | .resreq f => some (.l 0x344 f)
  | .doorbell _ _ => none
  | .packetFetch _ => none
  | .kernelPacket _ => none
  | .graphPacket _ => none
  | .copyPacket _ => none
  | .tilePacket _ => none
  | .collectivePacket _ => none
  | .invokePacket _ => none
  | .barrierAll _ => none
  | .barrierAny _ => none
  | .barrierEvaluate _ => none
  | .barrierPacketTimeout _ => none
  | .signalSet _ => none
  | .signalDec _ => none
  | .queueDrain _ => none
  | .queueMap _ => none
  | .quantumEnd _ => none
  | .priorityAging _ => none
  | .queueCreate _ => none
  | .queueReset _ => none
  | .queueSet _ => none
  | .queueDestroy _ => none
  | .decodeLoad _ => none
  | .regionSet _ => none
  | .regionClear _ => none
  | .templateSet _ => none
  | .templateClear _ => none
  | .genBump _ => none
  | .resDone _ => none
  | .resringSet _ => none
  | .kill _ => none
  | .traceLevel _ => none
  | .ringSize _ => none
  | .saggarRead _ => none
  | .saggarClear _ => none
  | .waitRead _ => none
  | .sampleSet _ => none
  | .perfSelect _ => none
  | .perfRead _ => none
  | .healthRead _ => none
  | .checkRead _ => none
  | .dbgAttach _ => none
  | .greenRead _ => none
  | .greenQuota _ => none
  | .commCreate _ => none
  | .commAdmit _ => none
  | .ckptSet _ => none
  | .ckptTake _ => none
  | .ckptTakeDone _ => none
  | .ckptRead _ => none
  | .spareFill _ => none
  | .spareFillDone _ _ => none
  | .exportMem _ => none
  | .unexportMem _ => none
  | .unexportTimeout _ => none
  | .partSet _ => none
  | .vfSlice _ => none
  | .vfQuota _ => none
  | .vfReset _ => none
  | .profileSet _ => none
  | .profilePauseEnd => none
  | .imageStage _ => none
  | .imageActivate _ => none
  | .schedPin _ => none
  | .flushInbound _ _ => none
  | .flushOutbound _ _ => none
  | .flushBoth _ _ => none
  | .flushDone _ => none
  | .featureCommit _ => none
  | .registerWrite _ _ _ => none
  | .barWrite _ _ _ => none
  | .barRead _ _ _ => none
  | .hostWindowAccess _ _ _ => none
  | .accessPerformed _ => none
  | .responseArrival _ => none
  | .errorResponse _ => none
  | .cpaLand _ => none
  | .wakeDelivery _ => none
  | .sigwEvaluate _ => none
  | .sigwTimeout _ => none
  | .hwaitTimeout _ => none
  | .joinRelease _ _ _ => none
  | .cohortMerge _ _ => none
  | .lateWriteSplit _ => none
  | .bankDrowsy _ _ _ => none
  | .crewStart _ _ _ => none
  | .crewRetire _ => none
  | .gridKill _ => none
  | .handlerFibreStart _ => none
  | .handlerWindowTimeout _ => none
  | .copyStart _ => none
  | .copyDone _ => none
  | .channelAccept _ => none
  | .apertureStart _ => none
  | .apertureJoin _ => none
  | .tileIssue _ => none
  | .tileDone _ => none
  | .accOpDone _ => none
  | .nodeDispatch _ _ => none
  | .nodeDone _ _ => none
  | .nodeScratchpadReserve _ => none
  | .dieIsolation _ => none
  | .dieBoundaryFailure _ => none
  | .boundaryMove _ _ => none
  | .patrolScrub _ _ => none
  | .scrubPendingZero _ => none
  | .channelFailure _ _ => none
  | .granuleMove _ => none
  | .refreshManagement _ _ _ => none
  | .throttleRetry _ => none
  | .generationBump _ => none
  | .pageMigration _ _ _ => none
  | .frameReassign _ _ _ _ _ => none
  | .residencyRequest _ => none
  | .residencyWaitTimeout _ => none
  | .stage2Repair _ => none
  | .leaseExpire _ => none
  | .preemptHalt _ _ => none
  | .ctxSaved _ => none
  | .ctxRestored _ _ => none
  | .migrateFwd _ => none
  | .forwardEntryRemoval _ _ => none
  | .moveReg _ _ _ => none
  | .sliceEnd _ => none
  | .fabRead _ => none
  | .fabWrite _ => none
  | .fabWriteWake _ => none
  | .fabAtomic _ => none
  | .respData _ => none
  | .respAck _ => none
  | .respErr _ => none
  | .ctrInc _ => none
  | .collData _ => none
  | .collRed _ => none
  | .collMcast _ => none
  | .collDone _ _ => none
  | .witnessExpire _ _ => none
  | .gwMsg _ _ => none
  | .handleFire _ _ _ _ _ => none
  | .handleCrack _ _ _ _ => none
  | .greenRetry _ _ => none
  | .retentionEnd _ _ => none
  | .greenOriginTimeout _ => none
  | .mgmt _ _ => none
  | .dtcSample _ _ _ => none
  | .dtcSampleSend _ => none
  | .lost _ _ => none
  | .fabTimeout _ => none
  | .seqGapTimeout _ _ => none
  | .linkRetryTimeout _ => none
  | .linkWidth _ _ => none
  | .linkStepUp _ _ => none
  | .remoteSignalPoll _ => none
  | .ptpMessage _ => none
  | .timeStepDeferred => none
  | .holdover => none
  | .tepochWrite _ => none
  | .flueWrite _ => none
  | .powerSample _ => none
  | .powerGood _ _ => none
  | .warmReset _ _ _ => none
  | .pcieFlr _ => none
  | .modulePowerLoss => none
  | .monitorReadyTimeout => none
  | .debugRead _ _ _ => none
  | .debugWrite _ _ _ _ => none
  | .debugStep _ _ => none
  | .debugRelease _ _ => none
  | .getVersion _ => none
  | .getCapabilities _ => none
  | .negotiateAlgorithms _ => none
  | .getDigests _ => none
  | .getCertificate _ => none
  | .challenge _ => none
  | .getMeasurements _ => none
  | .undefinedOpcode _ => none
  | .flit _ _ _ => none
  | .pageEviction _ _ => none
  | .slotDrainDone _ _ => none
  | .pkeyInstall _ _ => none
  | .ptpDomainSet _ => none
  | .pluginCallTimeout _ => none

/-- The use an encoded instruction makes of its fields. -/
def Instr.usage : Instr → Option Usage
  | .movH _ => some (hUse)
  | .addS32H _ => some (hUse)
  | .subS32H _ => some (hUse)
  | .mulS32H _ => some (hUse)
  | .andH _ => some (hUse)
  | .orH _ => some (hUse)
  | .xorH _ => some (hUse)
  | .shlH _ => some (hUse)
  | .shrH _ => some (hUse)
  | .sarH _ => some (hUse)
  | .addF32H _ => some (hUse)
  | .subF32H _ => some (hUse)
  | .mulF32H _ => some (hUse)
  | .minF32H _ => some (hUse)
  | .maxF32H _ => some (hUse)
  | .negF32H _ => some (hUse)
  | .movW _ => some (wUse .dst .src .unused)
  | .movL f => some (intUseR f .dst .src .unused .unused (intPlain f))
  | .li f => some (liUse .dst .unused true (f.mod == 0))
  | .addW _ => some (wUse .dst .src .src)
  | .addWi _ => some (wiUse .dst .src true true)
  | .addL f => some (intUse f .dst .unused)
  | .subW _ => some (wUse .dst .src .src)
  | .subL f => some (intUse f .dst .unused)
  | .addSatW _ => some (wUse .dst .src .src)
  | .addSatL f => some (intUse f .dst .unused)
  | .subSatW _ => some (wUse .dst .src .src)
  | .subSatL f => some (intUse f .dst .unused)
  | .mulW _ => some (wUse .dst .src .src)
  | .mulWi _ => some (wiUse .dst .src true true)
  | .mulL f => some (intUse f .dst .unused)
  | .mulhiW _ => some (wUse .dst .src .src)
  | .mulhiL f => some (intUse f .dst .unused)
  | .mulwW _ => some (wUse .dstPair .src .src)
  | .mulwL f => some (intUse f .dstPair .unused)
  | .mad f => some (intUse f .dst .src)
  | .madw f => some (intUse f .dstPair .srcPair)
  | .minW _ => some (wUse .dst .src .src)
  | .minWi _ => some (wiUse .dst .src true true)
  | .minL f => some (intUse f .dst .unused)
  | .maxW _ => some (wUse .dst .src .src)
  | .maxWi _ => some (wiUse .dst .src true true)
  | .maxL f => some (intUse f .dst .unused)
  | .absW _ => some (wUse .dst .src .unused)
  | .absL f => some (intUseR f .dst .src .unused .unused (f.mod == 0 && f.imm16 == 0))
  | .negW _ => some (wUse .dst .src .unused)
  | .negL f => some (intUseR f .dst .src .unused .unused (f.mod == 0 && f.imm16 == 0))
  | .andW _ => some (wUse .dst .src .src)
  | .andWi _ => some (wiUse .dst .src true true)
  | .andL f => some (intUse f .dst .unused)
  | .orW _ => some (wUse .dst .src .src)
  | .orWi _ => some (wiUse .dst .src true true)
  | .orL f => some (intUse f .dst .unused)
  | .xorW _ => some (wUse .dst .src .src)
  | .xorWi _ => some (wiUse .dst .src true true)
  | .xorL f => some (intUse f .dst .unused)
  | .andnW _ => some (wUse .dst .src .src)
  | .andnL f => some (intUse f .dst .unused)
  | .notW _ => some (wUse .dst .src .unused)
  | .notL f => some (intUseR f .dst .src .unused .unused (intPlain f))
  | .shlW _ => some (wUse .dst .src .src)
  | .shlWi _ => some (wiUse .dst .src true true)
  | .shlL f => some (intUse f .dst .unused)
  | .shrW _ => some (wUse .dst .src .src)
  | .shrWi _ => some (wiUse .dst .src true true)
  | .shrL f => some (intUse f .dst .unused)
  | .sarW _ => some (wUse .dst .src .src)
  | .sarWi _ => some (wiUse .dst .src true true)
  | .sarL f => some (intUse f .dst .unused)
  | .rotW _ => some (wUse .dst .src .src)
  | .rotWi _ => some (wiUse .dst .src true true)
  | .rotL f => some (intUse f .dst .unused)
  | .bfx f => some (intUseR f .dst .src .unused .unused (bfOk f))
  | .bfi f => some (intUseR f .dst .src .src .unused (bfOk f))
  | .popcW _ => some (wUse .dst .src .unused)
  | .popcL f => some (intUseR f .dst .src .unused .unused (intPlain f))
  | .clzW _ => some (wUse .dst .src .unused)
  | .clzL f => some (intUseR f .dst .src .unused .unused (intPlain f))
  | .ctzW _ => some (wUse .dst .src .unused)
  | .ctzL f => some (intUseR f .dst .src .unused .unused (intPlain f))
  | .brevW _ => some (wUse .dst .src .unused)
  | .brevL f => some (intUseR f .dst .src .unused .unused (intPlain f))
  | .bsel f => some (intUse f .dst .src)
  | .cmpEqW _ => some (numUse .src .src)
  | .cmpNeW _ => some (numUse .src .src)
  | .cmpLtW _ => some (numUse .src .src)
  | .cmpLeW _ => some (numUse .src .src)
  | .cmpGtW _ => some (numUse .src .src)
  | .cmpGeW _ => some (numUse .src .src)
  | .cmpEqWi _ => some (wiUse (.num 31) .src false true)
  | .cmpNeWi _ => some (wiUse (.num 31) .src false true)
  | .cmpLtWi _ => some (wiUse (.num 31) .src false true)
  | .cmpLeWi _ => some (wiUse (.num 31) .src false true)
  | .cmpGtWi _ => some (wiUse (.num 31) .src false true)
  | .cmpGeWi _ => some (wiUse (.num 31) .src false true)
  | .cmpEqL f => some (cmpIntUse f)
  | .cmpNeL f => some (cmpIntUse f)
  | .cmpLtL f => some (cmpIntUse f)
  | .cmpLeL f => some (cmpIntUse f)
  | .cmpGtL f => some (cmpIntUse f)
  | .cmpGeL f => some (cmpIntUse f)
  | .sel f => some (intUseR f .dst .src .src .unused (f.mod.toNat < 2 && natBits f.imm16.toNat 15 5 == 0))
  | .add64 f => some (intUsePair f)
  | .lea64 f => some (intUseR f .dstPair .srcPair .src .unused (f.mod.toNat < 2 && natBits f.imm16.toNat 15 4 == 0))
  | .addF32W _ => some (wUse .dst .src .src)
  | .addFloatL f => some (floatUse f 5 (.two) (modeOk f 0))
  | .subF32W _ => some (wUse .dst .src .src)
  | .subFloatL f => some (floatUse f 5 (.two) (modeOk f 0))
  | .mulF32W _ => some (wUse .dst .src .src)
  | .mulFloatL f => some (floatUse f 5 (.two) (modeOk f 0))
  | .fma f => some (floatUse f 5 (.three) (modeOk f 0))
  | .minF32W _ => some (wUse .dst .src .src)
  | .minFloatL f => some (floatUse f 5 (.two) (f.imm16 == 0))
  | .maxF32W _ => some (wUse .dst .src .src)
  | .maxFloatL f => some (floatUse f 5 (.two) (f.imm16 == 0))
  | .minpW _ => some (wUse .dst .src .src)
  | .minpL f => some (floatUse f 5 (.two) (f.imm16 == 0))
  | .maxpW _ => some (wUse .dst .src .src)
  | .maxpL f => some (floatUse f 5 (.two) (f.imm16 == 0))
  | .absF32W _ => some (wUse .dst .src .unused)
  | .absFloatL f => some (floatUse f 5 (.one) (f.imm16 == 0))
  | .negF32W _ => some (wUse .dst .src .unused)
  | .negFloatL f => some (floatUse f 5 (.one) (f.imm16 == 0))
  | .clsW _ => some (wUse .dst .src .unused)
  | .clsL f => some (floatUse f 5 (.cls) (f.imm16 == 0))
  | .cmpEqF32W _ => some (numUse .src .src)
  | .cmpNeF32W _ => some (numUse .src .src)
  | .cmpLtF32W _ => some (numUse .src .src)
  | .cmpLeF32W _ => some (numUse .src .src)
  | .cmpGtF32W _ => some (numUse .src .src)
  | .cmpGeF32W _ => some (numUse .src .src)
  | .cmpEqFloatL f => some (cmpFloatUse f)
  | .cmpNeFloatL f => some (cmpFloatUse f)
  | .cmpLtFloatL f => some (cmpFloatUse f)
  | .cmpLeFloatL f => some (cmpFloatUse f)
  | .cmpGtFloatL f => some (cmpFloatUse f)
  | .cmpGeFloatL f => some (cmpFloatUse f)
  | .rcpW _ => some (wUse .dst .src .unused)
  | .rcpL f => some (floatUse f 5 (.one) (modeOk f 0))
  | .rsqW _ => some (wUse .dst .src .unused)
  | .rsqL f => some (floatUse f 5 (.one) (f.imm16 == 0 && f.mod != 3))
  | .sqrtW _ => some (wUse .dst .src .unused)
  | .sqrtL f => some (floatUse f 5 (.one) (modeOk f 0))
  | .divW _ => some (wUse .dst .src .src)
  | .divL f => some (floatUse f 5 (.two) (modeOk f 0))
  | .exp2W _ => some (wUse .dst .src .unused)
  | .exp2L f => some (floatUse f 5 (.one) (f.imm16 == 0 && f.mod != 3))
  | .log2W _ => some (wUse .dst .src .unused)
  | .log2L f => some (floatUse f 5 (.one) (f.imm16 == 0 && f.mod != 3))
  | .sinpW _ => some (wUse .dst .src .unused)
  | .sinpL f => some (floatUse f 5 (.one) (f.imm16 == 0 && f.mod != 3))
  | .cospW _ => some (wUse .dst .src .unused)
  | .cospL f => some (floatUse f 5 (.one) (f.imm16 == 0 && f.mod != 3))
  | .frcW _ => some (wUse .dst .src .unused)
  | .frcL f => some (floatUse f 5 (.one) (f.imm16 == 0))
  | .rintW _ => some (wUse .dst .src .unused)
  | .rintL f => some (floatUse f 5 (.one) (modeOk f 0))
  | .ldexpW _ => some (wUse .dst .src .src)
  | .ldexpL f => some (floatUse f 5 (.ldexp) (modeOk f 0))
  | .dot2 f => some (⟨.dst, .src, .src, .src, true, (f.mod == 4 || f.mod == 5) && modeOk f 0⟩)
  | .cmul f => some (complexUse f .dst (modeOk f 1) true)
  | .bfly f => some (bflyUse f)
  | .twid f => some (⟨if f.mod == 0 then .dstPair else .dst, .src, .unused, .unused, true, complexTy f && (let g := f.imm16.toNat; 1 ≤ g && g ≤ 20)⟩)
  | .cvt f => some (cvtUse f)
  | .pkW _ => some (wUse .dst .src .src)
  | .pkL f => some (⟨.dst, .src, .src, .unused, true, f.mod.toNat < 2 && f.imm16 == 0⟩)
  | .upkW _ => some (wUse .dstPair .src .unused)
  | .upkL f => some (⟨.dstPair, .src, .unused, .unused, true, f.mod.toNat < 2 && f.imm16 == 0⟩)
  | .qblk f => some (qblkUse f)
  | .dqblk f => some (dqblkUse f)
  | .shufIdxW _ => some (wUse .dst .src .src)
  | .shufIdxL f => some (shufUse f)
  | .shufUpW _ => some (wUse .dst .src .src)
  | .shufUpL f => some (shufUse f)
  | .shufDnW _ => some (wUse .dst .src .src)
  | .shufDnL f => some (shufUse f)
  | .shufXorW _ => some (wUse .dst .src .src)
  | .shufXorL f => some (shufUse f)
  | .voteAnyW _ => some (numUse (.numOr63 31) .unused)
  | .voteAnyL f => some (⟨.num 31, .numOr63 31, .unused, .unused, false, lPlain f⟩)
  | .voteAllW _ => some (numUse (.numOr63 31) .unused)
  | .voteAllL f => some (⟨.num 31, .numOr63 31, .unused, .unused, false, lPlain f⟩)
  | .voteBalW _ => some (wUse .dst (.numOr63 31) .unused)
  | .voteBalL f => some (⟨.dst, .numOr63 31, .unused, .unused, true, lPlain f⟩)
  | .redcAddW _ => some (wUse .dst .src .unused)
  | .redcAddL f => some (⟨.dst, .src, .unused, .unused, true, f.mod.toNat ≤ 2 && f.imm16 == 0⟩)
  | .redcMinW _ => some (wUse .dst .src .unused)
  | .redcMinL f => some (⟨.dst, .src, .unused, .unused, true, f.mod.toNat ≤ 2 && f.imm16 == 0⟩)
  | .redcMaxW _ => some (wUse .dst .src .unused)
  | .redcMaxL f => some (⟨.dst, .src, .unused, .unused, true, f.mod.toNat ≤ 2 && f.imm16 == 0⟩)
  | .ld z f => some (ldUse z f)
  | .st z f => some (stUse z f)
  | .lds z f => some (ldsUse z f)
  | .sts z f => some (stsUse z f)
  | .sldt f => some (sldtUse f)
  | .atom z f => some (atomUse z f)
  | .atoms z f => some (atomsUse z f)
  | .pf f => some (⟨.unused, .srcPair, .unused, .unused, false, f.mod.toNat < 2 && natBits f.imm16.toNat 15 12 == 0⟩)
  | .cpa f => some (⟨.unused, .srcPair, .src, .src, false, f.mod.toNat < 4 && natBits f.imm16.toNat 15 15 == 0⟩)
  | .cpw _ => some (⟨.num 7, .num 63, .unused, .absent, false, true⟩)
  | .cpq _ => some (wUse .dst (.num 7) .unused)
  | .bcopy f => some (tokenUse f .src .unused)
  | .lease f => some (⟨.dst, .srcPair, .src, .unused, false, f.mod == 0 && f.imm16 != 0⟩)
  | .unlease _ => some (⟨.unused, .src, .unused, .absent, false, true⟩)
  | .mtask f => some (tokenUse f .src .unused)
  | .accz f => some (tokenUse f .src .unused)
  | .accld f => some (tokenUse f .src .src)
  | .accst f => some (tokenUse f .src .src)
  | .accdrain f => some (drainUse f)
  | .br f => some (liUse .unused .unused false (f.mod == 0))
  | .bcT f => some (liUse (.num 31) .unused false (f.mod == 0))
  | .bcF f => some (liUse (.num 31) .unused false (f.mod == 0))
  | .brx _ => some (⟨.unused, .srcPair, .unused, .absent, false, true⟩)
  | .call f => some (liUse .dstPair .unused true (f.mod == 0))
  | .ret _ => some (⟨.unused, .srcPair, .unused, .absent, false, true⟩)
  | .join => some (⟨.unused, .unused, .unused, .absent, false, true⟩)
  | .fork f => some (⟨.dst, .src, .unused, .unused, true, f.mod == 0⟩)
  | .halt _ => some (⟨.unused, .unused, .unused, .absent, false, true⟩)
  | .yield _ => some (⟨.unused, .unused, .unused, .absent, false, true⟩)
  | .nop => some (⟨.unused, .unused, .unused, .absent, false, true⟩)
  | .nopG => some (⟨.unused, .unused, .unused, .absent, false, true⟩)
  | .trap _ => some (wiUse .unused .unused false true)
  | .brk _ => some (wiUse .unused .unused false true)
  | .bar f => some (wiUse .unused .unused false (f.imm8.toNat < 16))
  | .barArv f => some (wiUse .unused .unused false (f.imm8.toNat < 16))
  | .barWt f => some (wiUse .unused .unused false (f.imm8.toNat < 16))
  | .gbar f => some (wiUse .unused .src false (f.imm8 == 0))
  | .fence f => some (wiUse .unused .unused false (fenceOk f))
  | .vfence _ => some (⟨.unused, .unused, .unused, .absent, false, true⟩)
  | .sigAdd f => some (⟨.dstPair, .srcPair, .srcPair, .unused, false, f.mod.toNat < 4 && orderOk f⟩)
  | .sigSet f => some (⟨.unused, .srcPair, if f.mod.getLsbD 2 then .src else .srcPair, .unused, false, (let o := f.mod.toNat % 4; o == 0 || o == 2) && !f.mod.getLsbD 3 && orderOk f⟩)
  | .sigRead f => some (⟨.dstPair, .srcPair, .unused, .unused, false, f.mod.toNat < 2 && orderOk f⟩)
  | .sigw f => some (⟨.dstPair, .srcPair, .srcPair, .src, false, f.mod.toNat < 3 && natBits f.imm16.toNat 15 15 == 0⟩)
  | .enq f => some (⟨.dst, .srcPair, .srcBlock, .unused, false, lPlain f⟩)
  | .wwait f => some (⟨.dst, .srcPair, .srcPair, .unused, false, f.mod == 0 && natBits f.imm16.toNat 15 15 == 0⟩)
  | .ctrAdd f => some (⟨.dstPair, .src, .src, .unused, false, lPlain f⟩)
  | .ctrRead f => some (⟨.dstPair, .src, .unused, .unused, false, lPlain f⟩)
  | .ctrSet f => some (⟨.unused, .src, .srcPair, .unused, false, lPlain f⟩)
  | .tsend f => some (tokenUse f .src .unused)
  | .invoke f => some (⟨.dstPair, .srcPair, .unused, .unused, false, lPlain f⟩)
  | .hwait f => some (⟨.dst, .srcPair, .unused, .src, false, lPlain f⟩)
  | .hstat f => some (⟨.dst, .srcPair, .unused, .unused, false, lPlain f⟩)
  | .timeI _ => some (wUse .dstPair .unused .unused)
  | .evt f => some (⟨.unused, .src, .srcPair, .unused, false, f.mod == 0 && f.imm16.toNat < 256⟩)
  | .perf f => some (⟨.dstPair, .unused, .unused, .unused, true, f.mod.toNat < 2 && f.imm16.toNat < 16⟩)
  | .sysr f => some (wiUse .dst .unused true (f.imm8.toNat ≤ 25))
  | .resreq f => some (⟨.dst, .srcPair, .unused, .unused, false, lPlain f⟩)
  | .doorbell _ _ => none
  | .packetFetch _ => none
  | .kernelPacket _ => none
  | .graphPacket _ => none
  | .copyPacket _ => none
  | .tilePacket _ => none
  | .collectivePacket _ => none
  | .invokePacket _ => none
  | .barrierAll _ => none
  | .barrierAny _ => none
  | .barrierEvaluate _ => none
  | .barrierPacketTimeout _ => none
  | .signalSet _ => none
  | .signalDec _ => none
  | .queueDrain _ => none
  | .queueMap _ => none
  | .quantumEnd _ => none
  | .priorityAging _ => none
  | .queueCreate _ => none
  | .queueReset _ => none
  | .queueSet _ => none
  | .queueDestroy _ => none
  | .decodeLoad _ => none
  | .regionSet _ => none
  | .regionClear _ => none
  | .templateSet _ => none
  | .templateClear _ => none
  | .genBump _ => none
  | .resDone _ => none
  | .resringSet _ => none
  | .kill _ => none
  | .traceLevel _ => none
  | .ringSize _ => none
  | .saggarRead _ => none
  | .saggarClear _ => none
  | .waitRead _ => none
  | .sampleSet _ => none
  | .perfSelect _ => none
  | .perfRead _ => none
  | .healthRead _ => none
  | .checkRead _ => none
  | .dbgAttach _ => none
  | .greenRead _ => none
  | .greenQuota _ => none
  | .commCreate _ => none
  | .commAdmit _ => none
  | .ckptSet _ => none
  | .ckptTake _ => none
  | .ckptTakeDone _ => none
  | .ckptRead _ => none
  | .spareFill _ => none
  | .spareFillDone _ _ => none
  | .exportMem _ => none
  | .unexportMem _ => none
  | .unexportTimeout _ => none
  | .partSet _ => none
  | .vfSlice _ => none
  | .vfQuota _ => none
  | .vfReset _ => none
  | .profileSet _ => none
  | .profilePauseEnd => none
  | .imageStage _ => none
  | .imageActivate _ => none
  | .schedPin _ => none
  | .flushInbound _ _ => none
  | .flushOutbound _ _ => none
  | .flushBoth _ _ => none
  | .flushDone _ => none
  | .featureCommit _ => none
  | .registerWrite _ _ _ => none
  | .barWrite _ _ _ => none
  | .barRead _ _ _ => none
  | .hostWindowAccess _ _ _ => none
  | .accessPerformed _ => none
  | .responseArrival _ => none
  | .errorResponse _ => none
  | .cpaLand _ => none
  | .wakeDelivery _ => none
  | .sigwEvaluate _ => none
  | .sigwTimeout _ => none
  | .hwaitTimeout _ => none
  | .joinRelease _ _ _ => none
  | .cohortMerge _ _ => none
  | .lateWriteSplit _ => none
  | .bankDrowsy _ _ _ => none
  | .crewStart _ _ _ => none
  | .crewRetire _ => none
  | .gridKill _ => none
  | .handlerFibreStart _ => none
  | .handlerWindowTimeout _ => none
  | .copyStart _ => none
  | .copyDone _ => none
  | .channelAccept _ => none
  | .apertureStart _ => none
  | .apertureJoin _ => none
  | .tileIssue _ => none
  | .tileDone _ => none
  | .accOpDone _ => none
  | .nodeDispatch _ _ => none
  | .nodeDone _ _ => none
  | .nodeScratchpadReserve _ => none
  | .dieIsolation _ => none
  | .dieBoundaryFailure _ => none
  | .boundaryMove _ _ => none
  | .patrolScrub _ _ => none
  | .scrubPendingZero _ => none
  | .channelFailure _ _ => none
  | .granuleMove _ => none
  | .refreshManagement _ _ _ => none
  | .throttleRetry _ => none
  | .generationBump _ => none
  | .pageMigration _ _ _ => none
  | .frameReassign _ _ _ _ _ => none
  | .residencyRequest _ => none
  | .residencyWaitTimeout _ => none
  | .stage2Repair _ => none
  | .leaseExpire _ => none
  | .preemptHalt _ _ => none
  | .ctxSaved _ => none
  | .ctxRestored _ _ => none
  | .migrateFwd _ => none
  | .forwardEntryRemoval _ _ => none
  | .moveReg _ _ _ => none
  | .sliceEnd _ => none
  | .fabRead _ => none
  | .fabWrite _ => none
  | .fabWriteWake _ => none
  | .fabAtomic _ => none
  | .respData _ => none
  | .respAck _ => none
  | .respErr _ => none
  | .ctrInc _ => none
  | .collData _ => none
  | .collRed _ => none
  | .collMcast _ => none
  | .collDone _ _ => none
  | .witnessExpire _ _ => none
  | .gwMsg _ _ => none
  | .handleFire _ _ _ _ _ => none
  | .handleCrack _ _ _ _ => none
  | .greenRetry _ _ => none
  | .retentionEnd _ _ => none
  | .greenOriginTimeout _ => none
  | .mgmt _ _ => none
  | .dtcSample _ _ _ => none
  | .dtcSampleSend _ => none
  | .lost _ _ => none
  | .fabTimeout _ => none
  | .seqGapTimeout _ _ => none
  | .linkRetryTimeout _ => none
  | .linkWidth _ _ => none
  | .linkStepUp _ _ => none
  | .remoteSignalPoll _ => none
  | .ptpMessage _ => none
  | .timeStepDeferred => none
  | .holdover => none
  | .tepochWrite _ => none
  | .flueWrite _ => none
  | .powerSample _ => none
  | .powerGood _ _ => none
  | .warmReset _ _ _ => none
  | .pcieFlr _ => none
  | .modulePowerLoss => none
  | .monitorReadyTimeout => none
  | .debugRead _ _ _ => none
  | .debugWrite _ _ _ _ => none
  | .debugStep _ _ => none
  | .debugRelease _ _ => none
  | .getVersion _ => none
  | .getCapabilities _ => none
  | .negotiateAlgorithms _ => none
  | .getDigests _ => none
  | .getCertificate _ => none
  | .challenge _ => none
  | .getMeasurements _ => none
  | .undefinedOpcode _ => none
  | .flit _ _ _ => none
  | .pageEviction _ _ => none
  | .slotDrainDone _ _ => none
  | .pkeyInstall _ _ => none
  | .ptpDomainSet _ => none
  | .pluginCallTimeout _ => none

/-- The fields D, A, B, C of an encoded word; a field its format lacks counts as 63. -/
def Enc.fields : Enc → Nat × Nat × Nat × Nat
  | .h _ _ => (63, 63, 63, 63)
  | .w _ f => (f.d.toNat, f.a.toNat, f.b.toNat, 63)
  | .wi _ f => (f.d.toNat, f.a.toNat, 63, 63)
  | .l _ f => (f.d.toNat, f.a.toNat, f.b.toNat, f.c.toNat)
  | .li _ f => (f.d.toNat, f.a.toNat, 63, 63)

/-- The native opcode (H operations are outside the opcode map: none). -/
def Enc.opn : Enc → Option Nat
  | .h _ _ => none
  | .w op _ | .wi op _ | .l op _ | .li op _ => some op.toNat

/-- Length in bytes (R39). -/
def Enc.len : Enc → Nat
  | .h _ _ => 2
  | .w _ _ | .wi _ _ => 4
  | .l _ _ | .li _ _ => 8

/-- The NW bit; format WI has none. -/
def Enc.nw : Enc → Bool
  | .h _ f => f.nw == 1
  | .w _ f => f.nw == 1
  | .wi _ _ => false
  | .l _ f => f.nw == 1
  | .li _ f => f.nw == 1

/-- A field's value obeys its use where the fault would be ILL_RESERVED (R43: an unused field holds 63; a number is in range). -/
def FieldUse.reservedOk : FieldUse → Nat → Bool
  | .unused, n => n == 63
  | .num m, n => n ≤ m
  | .numOr63 m, n => n ≤ m || n == 63
  | _, _ => true

/-- A latch named as destination: ILL_DEST (R42). -/
def FieldUse.destOk : FieldUse → Nat → Bool
  | .dst, n | .dstPair, n | .dstQuad, n => !(60 ≤ n && n ≤ 62)
  | _, _ => true

/-- ILL_PAIR (R43, R54): an odd pair field, a quad or block field that is no multiple of 4 or names a latch; 63 is `z`. -/
def FieldUse.pairOk : FieldUse → Nat → Bool
  | .srcPair, n | .dstPair, n => n % 2 == 0 || n == 63
  | .srcQuad, n | .dstQuad, n | .srcBlock, n => (n % 4 == 0 && n < 60) || n == 63
  | _, _ => true

/-- Registers a field takes from its number on. -/
def FieldUse.width : FieldUse → Nat
  | .src | .dst => 1
  | .srcPair | .dstPair => 2
  | .srcQuad | .dstQuad => 4
  | .srcBlock => 16
  | _ => 0

/-- ILL_WINDOW (R43): every register of a used field lies in the window of `ws` registers. -/
def FieldUse.windowOk (ws : Nat) (u : FieldUse) (n : Nat) : Bool :=
  u.width == 0 || 60 ≤ n || n + u.width ≤ ws

/-- R40, R44, R48: the zero field of LI, the guard fields of L without a guard, NW with its D. -/
def Enc.commonOk (e : Enc) (u : Usage) : Bool :=
  (match e with
   | .h _ _ => true
   | .l _ f => f.gon == 1 || (f.gbit == 0 && f.ginv == 0)
   | .li _ f => f.zero == 0
   | _ => true) &&
  (match e with
   | .h _ _ => true
   | _ => !e.nw || (u.nwOk && e.fields.1 == 63))

/-- Every field obeys a test of its use. -/
def Enc.allFields (e : Enc) (u : Usage) (t : FieldUse → Nat → Bool) : Bool :=
  let (d, a, b, c) := e.fields
  t u.d d && t u.a a && t u.b b && t u.c c

/-- The checks of R54 that the word alone decides, in their order; none when the word passes. -/
def Enc.staticCheck (e : Enc) (u : Usage) : Option IllCode :=
  if (match e with | .h op f => op == 0 && f.nw == 0 && f.s == 0 && f.d == 0 | _ => false) then some .marker
  else if !(u.extra && e.commonOk u && e.allFields u FieldUse.reservedOk) then some .reserved
  else if !e.allFields u FieldUse.destOk then some .dest
  else if !e.allFields u FieldUse.pairOk then some .pair
  else none

/-- The window check of R43 and R54. -/
def Enc.windowOk (e : Enc) (u : Usage) (ws : Nat) : Bool :=
  match e with
  | .h _ f => f.d.toNat < ws && f.s.toNat < ws
  | _ => e.allFields u (FieldUse.windowOk ws)

/-- The first check of R54 that an instruction's own fields fail; an instruction without encoding fails none (log 59, DEDUCED). -/
def Instr.staticCheck (i : Instr) : Option IllCode :=
  match i.enc, i.usage with
  | some e, some u => e.staticCheck u
  | _, _ => none

/-- The native opcode of an instruction (R52). -/
def Instr.opn (i : Instr) : Option Nat := i.enc.bind Enc.opn

/-- The feature an operation needs, by its bit number (R56). -/
def featureOf (opn : Nat) : Option Nat :=
  if opn == 0xB2 || opn == 0xB3 then some 12
  else if opn == 0x210 || opn == 0x211 then some 13
  else if opn == 0x2DC then some 14
  else if opn == 0x300 || opn == 0x301 || opn == 0x302 || opn == 0x308 then some 15
  else if opn == 0x310 || opn == 0x311 || opn == 0x312 then some 16
  else none

/-- The native operations that are always switch points (R46); `bc.t` and `bc.f` (0x281, 0x282) are ones only when taken. -/
def alwaysSwitch (opn : Nat) : Bool :=
  (0x180 ≤ opn && opn ≤ 0x27F) || (0x2C0 ≤ opn && opn ≤ 0x33F) || opn == 0x344 ||
  opn == 0x280 || (0x283 ≤ opn && opn ≤ 0x286) || opn == 0x288 || opn == 0x289 || opn == 0x28B || opn == 0x28C

end Sys2Proof
end

