-- ==== Sys2Proof/Machine/Operands.lean ====
section
/-! DEFINITION. Operands and the issue of an encoded instruction: sources and destinations in every width, latches, guards, busy
registers, parity (spec/03 R42 to R50, spec/11 R224, R225), and the checks of R54 and R47 that come before an effect. -/

namespace Sys2Proof.Machine

/-! ### Registers and latches -/

/-- Register `v`n of the fibre's window. -/
def Fibre.reg (f : Fibre) (n : Nat) : Word := f.regs.getD n 0

/-- `pw` is `v0` (R49). -/
def Fibre.pw (f : Fibre) : Word := f.reg 0

/-- Write a register: good parity is formed, a duplicate is updated (R224). -/
def Fibre.setReg (f : Fibre) (n : Nat) (v : Word) : Fibre :=
  { f with
    regs := f.regs.set n v
    badParity := f.badParity.filter (· != n)
    dup := f.dup.map fun p => if p.1 == n then (n, v) else p }

/-- Write registers one by one. -/
def Fibre.setRegs (f : Fibre) : List (Nat × Word) → Fibre
  | [] => f
  | (n, v) :: ws => (f.setReg n v).setRegs ws

/-- The latch a field of 60 to 62 names (R42). -/
def Fibre.latch (f : Fibre) (n : Nat) : Latch := if n == 60 then f.b0 else if n == 61 then f.b1 else f.b2

/-- A 32-bit source (R42, R64). -/
def Fibre.src (f : Fibre) (n : Nat) : Word :=
  if n < 60 then f.reg n else if n < 63 then (f.latch n).val.setWidth 32 else 0

/-- Two registers as one value, the even one below. -/
def pairVal (lo hi : Word) : DWord := hi ++ lo

/-- A 64-bit source (R43). -/
def Fibre.src64 (f : Fibre) (n : Nat) : DWord :=
  if n < 60 then pairVal (f.reg n) (f.reg (n + 1)) else if n < 63 then (f.latch n).val else 0

/-- `k` registers from a quad or block field on; `z` supplies zeros (R43). -/
def Fibre.srcMany (f : Fibre) (n k : Nat) : List Word :=
  (List.range k).map fun i => if n < 60 then f.reg (n + i) else 0

/-- Shift the latches and put a result in front (R45). -/
def Fibre.shift (f : Fibre) (r : Latch) : Fibre := { f with b2 := f.b1, b1 := f.b0, b0 := r }

/-- The low and the high word of a 64-bit value. -/
def lo32 (x : DWord) : Word := x.setWidth 32
def hi32 (x : DWord) : Word := (x >>> 32).setWidth 32

/-! ### Fields of an encoded word -/

/-- The first source field; format H reads D (R41). -/
def aField : Enc → Nat
  | .h _ f => f.d.toNat
  | e => e.fields.2.1

/-- The second source field; format H reads S (R41). -/
def bField : Enc → Nat
  | .h _ f => f.s.toNat
  | e => e.fields.2.2.1

def cField (e : Enc) : Nat := e.fields.2.2.2

/-- The destination register, or none under NW = 1 and for `z` (R42, R44). -/
def dField : Enc → Option Nat
  | .h _ f => if f.nw == 1 then none else some f.d.toNat
  | e => if e.nw || e.fields.1 == 63 then none else some e.fields.1

/-- MOD of the L and LI formats. -/
def modOf : Enc → Nat
  | .l _ f => f.mod.toNat
  | .li _ f => f.mod.toNat
  | _ => 0

/-- IMM16 of the L format, as a number. -/
def imm16Of : Enc → Nat
  | .l _ f => f.imm16.toNat
  | _ => 0

/-- How an immediate is extended (R66). -/
inductive Ext where
  | sign | zero
deriving DecidableEq, Repr

/-- Source B in 32 bits: a register, IMM8 of WI, or IMM16 of L under MOD[47] (R66). -/
def bVal (x : Ext) (e : Enc) (f : Fibre) : Word :=
  match e with
  | .wi _ g => match x with | .sign => g.imm8.signExtend 32 | .zero => g.imm8.setWidth 32
  | .l _ g =>
    if g.mod.getLsbD 3 then (match x with | .sign => g.imm16.signExtend 32 | .zero => g.imm16.setWidth 32)
    else f.src (bField e)
  | _ => f.src (bField e)

/-- The integer type `.n32`: MOD[44] in L; W and WI are `.s32` (R65). -/
def isN32 : Enc → Bool
  | .l _ f => f.mod.getLsbD 0
  | _ => false

/-- Displacement of an L instruction: sign-extended IMM16[11:0] (R129). -/
def disp12 (e : Enc) : DWord := (BitVec.ofNat 12 (imm16Of e)).signExtend 64

/-! ### Guards, registers read and written -/

/-- Whether the instruction is guarded (R48). -/
def isGuarded : Enc → Bool
  | .w _ f => f.g == 1
  | .l _ f => f.gon == 1
  | _ => false

/-- `guard(l)` of R48. -/
def laneGuard (e : Enc) (f : Fibre) : Bool :=
  match e with
  | .w _ g => if g.g == 1 then f.pw.getLsbD 0 else true
  | .l _ g => if g.gon == 1 then xor (f.pw.getLsbD g.gbit.toNat) (g.ginv == 1) else true
  | _ => true

/-- The registers a field takes in the window: none for a latch or `z`. -/
def fieldRegs (u : FieldUse) (n : Nat) : List Nat := if n < 60 then (List.range u.width).map (n + ·) else []

def useIsSrc : FieldUse → Bool
  | .src | .srcPair | .srcQuad | .srcBlock => true
  | _ => false

def useIsDst : FieldUse → Bool
  | .dst | .dstPair | .dstQuad => true
  | _ => false

/-- Whether the native operation reads `pw` besides its guard: compares, `sel`, votes on a bit, `bc` (R72, R73, R76, R118, R148). -/
def readsPw (e : Enc) : Bool :=
  match e.opn with
  | none => false
  | some o =>
    (0x20 ≤ o && o ≤ 0x26) || (0x60 ≤ o && o ≤ 0x65) || (0x90 ≤ o && o ≤ 0x95) || o == 0x281 || o == 0x282 ||
    (0x148 ≤ o && o ≤ 0x14A && e.fields.2.1 != 63) || o == 0x148 || o == 0x149

/-- Whether it writes bits of `pw`: compares, `vote.any`, `vote.all`, `ld.rz` (R73, R118, R136, R148). -/
def writesPw (e : Enc) : Bool :=
  match e.opn with
  | none => false
  | some o =>
    (0x20 ≤ o && o ≤ 0x25) || (0x60 ≤ o && o ≤ 0x65) || (0x90 ≤ o && o ≤ 0x95) || o == 0x148 || o == 0x149 ||
    (0x180 ≤ o && o ≤ 0x186 && modOf e ≥ 8)

/-- The window registers the instruction reads. -/
def regReads (e : Enc) (u : Usage) : List Nat :=
  (match e with
   | .h op f => if op == 0 || op == 15 then [f.s.toNat] else [f.d.toNat, f.s.toNat]
   | _ =>
     let (_, a, b, c) := e.fields
     (if useIsSrc u.a then fieldRegs u.a a else []) ++ (if useIsSrc u.b then fieldRegs u.b b else []) ++
       (if useIsSrc u.c then fieldRegs u.c c else [])) ++
  (if readsPw e then [0] else [])

/-- The window registers the instruction writes. -/
def regWrites (e : Enc) (u : Usage) : List Nat :=
  (match e with
   | .h _ f => if f.nw == 1 then [] else [f.d.toNat]
   | _ => if useIsDst u.d && !e.nw then fieldRegs u.d e.fields.1 else []) ++
  (if writesPw e then [0] else [])

/-- A register with an outstanding write is busy (R50). -/
def Fibre.isBusy (f : Fibre) (n : Nat) : Bool := f.busy.any (·.1 == n)

/-- Whether an operand of the instruction is busy in this lane (R50, R214, R225). -/
def laneBusy (e : Enc) (u : Usage) (f : Fibre) : Bool :=
  (regReads e u).any f.isBusy || (regWrites e u).any f.isBusy

/-- Whether the cohort waits: a busy `pw` under a guard, or a busy operand in a lane of `exec` (R50, R214). -/
def cohortWaits (e : Enc) (u : Usage) (lanes : List Fibre) : Bool :=
  (isGuarded e && lanes.any (·.isBusy 0)) || lanes.any fun f => laneGuard e f && laneBusy e u f

/-- R47: the field that reads a void latch, or a 32-bit latch as a pair. -/
def latchFault (e : Enc) (u : Usage) (f : Fibre) : Option Nat :=
  let bad : FieldUse × Nat → Bool := fun p =>
    60 ≤ p.2 && p.2 ≤ 62 &&
      match p.1 with
      | .src => decide ((f.latch p.2).mark = .void)
      | .srcPair => decide ((f.latch p.2).mark ≠ .w64)
      | _ => false
  match e with
  | .h _ _ => none
  | _ => ((([(u.a, e.fields.2.1), (u.b, e.fields.2.2.1), (u.c, e.fields.2.2.2)].filter bad).map (·.2)).head?)

/-- Whether the parity of a register fails and it has no duplicate (R224). -/
def Fibre.unreadable (f : Fibre) (n : Nat) : Bool := f.badParity.contains n && !(f.dup.any (·.1 == n))

/-- A register read whose parity fails and that has no duplicate (R224). -/
def parityFault (e : Enc) (u : Usage) (f : Fibre) : Option Nat :=
  ((regReads e u).filter f.unreadable).head?

/-- Whether a lane's guard reads a `pw` that cannot be read (R48, R224). -/
def guardFault (e : Enc) (f : Fibre) : Bool := isGuarded e && f.unreadable 0

/-- Whether a lane is in `exec`, as far as its guard can be read (R48). -/
def laneIn (e : Enc) (f : Fibre) : Bool := !guardFault e f && laneGuard e f

/-- The trap of a lane that cannot read its guard or its operands: ILL_LATCH (R47) or REG_PARITY (R224). -/
def operandTrap (e : Enc) (u : Usage) (f : Fibre) : Option Trap :=
  if guardFault e f then some ⟨0x80, f.pc, f.pc, 0, 0, false⟩
  else match latchFault e u f with
  | some n => some ⟨0x19, f.pc, f.pc, 0, n, false⟩
  | none =>
    match parityFault e u f with
    | some n => some ⟨0x80, f.pc, f.pc, 0, n, false⟩
    | none => none

/-- Registers read whose parity fails take their duplicate's value (R224). -/
def repairParity (e : Enc) (u : Usage) (f : Fibre) : Fibre :=
  f.setRegs (((regReads e u).filter fun n => f.badParity.contains n).filterMap fun n =>
    (f.dup.find? (·.1 == n)).map fun p => (n, p.2))

/-! ### Issue -/

/-- What a cohort that issues an instruction has: the word, the lanes of `exec` that read their operands, the lanes guarded off,
whether a lane parked at this issue. -/
structure Issue where
  enc : Enc
  use : Usage
  exec : List Fibre
  off : List Fibre
  parked : Bool
deriving DecidableEq, Repr

def Issue.ids (w : Issue) : List Nat := w.exec.map (·.id)
def Issue.offIds (w : Issue) : List Nat := w.off.map (·.id)
def Issue.allIds (w : Issue) : List Nat := w.ids ++ w.offIds

/-- The program counter behind the instruction: `next_pc` (R63). Whether it wraps at the top of the 57-bit space is not stated: it goes on to 2^57, where the
fetch fails (log 145, DESIGN CHOICE). -/
def nextPc (e : Enc) (f : Fibre) : DWord := f.pc + BitVec.ofNat 64 e.len

/-- Add to the counters of a core that count an event (R197, R322). -/
def perfAdd (s : State) (core ev n : Nat) : State :=
  let f : Core → Core := fun c =>
    { c with perfCounts := (c.perfEvents.zip c.perfCounts).map fun p => if p.1 == ev then (p.2 + n) % 2 ^ 48 else p.2 }
  { s with cores := mapIf (·.num == core) f s.cores }

/-- The banks of a fibre's registers (R223). -/
def banksOf (f : Fibre) (regs : List Nat) : List Nat := distinct (regs.map fun r => (f.wb + r) / 64)

/-- Drowsy banks that an access reaches wake (R223), counted as event 14 (R322). -/
def wakeBanks (s : State) (core part : Nat) (banks : List Nat) : State :=
  if s.drowsy.isEmpty then s
  else
    let hit (d : Nat × Nat × Nat) : Bool := d.1 == core && d.2.1 == part && banks.contains d.2.2
    perfAdd { s with drowsy := s.drowsy.filter fun d => !hit d } core 14 (s.drowsy.filter hit).length

/-- The native operations that count as memory instructions (R320, R322). -/
def isMemOp (o : Nat) : Bool := 0x180 ≤ o && o ≤ 0x1FF

/-- Lanes that the debugger steps or has released have issued (R325). -/
def markStepped (s : State) (ids : List Nat) : State :=
  let f (c : Ctx) : Ctx :=
    { c with stepping := (c.stepping.filter fun p => !(ids.contains p.1 && p.2 == 0)).map fun p =>
        if ids.contains p.1 then (p.1, 2) else p }
  { s with ctxs := s.ctxs.map f }

/-- Count an issue on the core (R322: events 2, 3, 4). -/
def countIssue (s : State) (core : Nat) (e : Enc) (lanes : Nat) : State :=
  perfAdd (perfAdd (perfAdd s core 2 1) core 3 lanes) core 4 (if (e.opn.map isMemOp).getD false then 1 else 0)

/-- The banks that an issue reads and writes wake (R223), the guard's read of `pw` in every lane. -/
def wakeIssue (s : State) (core : Nat) (e : Enc) (u : Usage) (lanes : List Fibre) : State :=
  lanes.foldl (fun s f => wakeBanks s core f.part
    (banksOf f ((if isGuarded e then [0] else []) ++ (if laneIn e f then regReads e u ++ regWrites e u else [])))) s

/-- The feature check of R54. -/
def featureMissing (s : State) (i : Instr) (f : Fibre) : Bool :=
  match i.opn.bind featureOf with
  | some b => !(s.hasFeature (s.fibreVf f) b)
  | none => false

/-- The lanes of `exec` that can read their operands (log 55, DEDUCED). -/
def readyExec (e : Enc) (u : Usage) (lanes : List Fibre) : List Fibre :=
  lanes.filter fun f => laneIn e f && (operandTrap e u f).isNone

/-- The lanes that park at the issue. -/
def trappedExec (e : Enc) (u : Usage) (lanes : List Fibre) : List Fibre :=
  lanes.filter fun f => (guardFault e f || laneGuard e f) && (operandTrap e u f).isSome

/-- Park the lanes that cannot read their operands, repair what a duplicate repairs (R47, R224). -/
def prepare (e : Enc) (u : Usage) (lanes : List Fibre) (s : State) : State :=
  let s1 := (trappedExec e u lanes).foldl
    (fun s f => match operandTrap e u f with | some t => softPark s f.id t | none => s) s
  let fixed := (readyExec e u lanes).filter fun f => (regReads e u).any fun n => f.badParity.contains n
  fixed.foldl (fun s f => healthAdd (perfAdd (s.setFibre f.id (repairParity e u)) (s.fibreCore f) 15 1) 0) s1

/-- A `pw` that a guard reads and whose parity fails takes its duplicate's value (R48, R224). -/
def repairGuards (e : Enc) (s : State) : State :=
  let bad := s.lanes.filter fun f => isGuarded e && f.badParity.contains 0 && f.dup.any (·.1 == 0)
  let fix (f : Fibre) : Fibre := match f.dup.find? (·.1 == 0) with
    | some p => f.setReg 0 p.2
    | none => f
  bad.foldl (fun s f => healthAdd (perfAdd (s.setFibre f.id fix) (s.fibreCore f) 15 1) 0) s

/-- Lanes that still stand at the instruction, ready to issue it again: none of what it reads has been lost to them (R47). -/
def stillThere (lanes : List Fibre) (t : State) : List Nat :=
  (lanes.filter fun f => match t.fibre? f.id with
    | some g => g.status.isReady && g.pc == f.pc
    | none => false).map (·.id)

/-- Lanes keep the latches they had before another lane of their cohort parked: the instruction still reads them (R47). -/
def keepLatches (before : List Fibre) (s : State) : State :=
  { s with fibres := s.fibres.map fun f =>
      match before.find? (·.id == f.id) with
      | some g => { f with b0 := g.b0, b1 := g.b1, b2 := g.b2 }
      | none => f }

/-- Issue a checked instruction: counters, operand traps, then the effect for the other lanes, whose latches are void behind it when a lane
has parked (R46, R47). -/
def issueBody (e : Enc) (u : Usage) (s : State) (lanes : List Fibre) (k : Issue → State → State) : State :=
  let core := (s.cur.map (·.core)).getD 0
  let s0 := wakeIssue (countIssue (markStepped s (lanes.map (·.id))) core e (lanes.filter (laneIn e)).length) core e u lanes
  let bad := trappedExec e u lanes
  let s1 := if bad.isEmpty then prepare e u lanes s0 else keepLatches lanes (prepare e u lanes s0)
  let ids := (readyExec e u lanes).map (·.id)
  let t := k { enc := e, use := u, exec := s1.fibres.filter fun f => ids.contains f.id,
               off := s1.fibres.filter fun f => (lanes.filter fun g => !guardFault e g && !laneGuard e g).any (·.id == f.id),
               parked := !bad.isEmpty } s1
  if bad.isEmpty then t
  else t.setFibres ((lanes.map (·.id)).filter fun i => !(stillThere lanes t).contains i) Fibre.voidLatches

/-- The checks of R54 in order, the wait of R50 and of the instruction itself, then the effect. -/
def issueLanes (i : Instr) (e : Enc) (u : Usage) (s : State) (lanes : List Fibre) (ready : Bool) (k : Issue → State → State) :
    State :=
  if lanes.any (featureMissing s i) then ill s .feature
  else
    match e.staticCheck u with
    | some c => ill s c
    | none =>
      if !(lanes.all fun f => e.windowOk u f.ws) then ill s .window
      else if cohortWaits e u lanes || !ready then s
      else issueBody e u s lanes k

/-- Issue an encoded instruction for the issuing cohort once `ready` holds of the lanes of `exec`; without a cohort nothing
happens. -/
def issueWhen (i : Instr) (s : State) (ready : List Fibre → Bool) (k : Issue → State → State) :
    Host.Outcome State Fault Refusal :=
  match i.enc, i.usage with
  | some e, some u =>
    let t := repairGuards e s
    if s.lanes.isEmpty then .next s else .next (issueLanes i e u t t.lanes (ready (t.lanes.filter (laneIn e))) k)
  | _, _ => .next s

/-- Issue an encoded instruction that waits for nothing but its operands. -/
def issue (i : Instr) (s : State) (k : Issue → State → State) : Host.Outcome State Fault Refusal :=
  issueWhen i s (fun _ => true) k

/-! ### Results -/

/-- What an instruction does in one lane: the registers it writes and what `b0` receives (R45). -/
structure LaneOut where
  writes : List (Nat × Word)
  latch : Latch
deriving DecidableEq, Repr

/-- No register is written and `b0` becomes void: an instruction without result. -/
def LaneOut.nothing : LaneOut := ⟨[], .void⟩

/-- A 32-bit result to D (R44, R45). -/
def out32 (e : Enc) (v : Word) : LaneOut :=
  ⟨match dField e with | some d => [(d, v)] | none => [], ⟨.w32, v.setWidth 64⟩⟩

/-- A 64-bit result to the pair D (R44, R45). -/
def out64 (e : Enc) (v : DWord) : LaneOut :=
  ⟨match dField e with | some d => [(d, lo32 v), (d + 1, hi32 v)] | none => [], ⟨.w64, v⟩⟩

/-- A new `pw`; `b0` receives the whole of it (R45, R73). -/
def outPw (v : Word) : LaneOut := ⟨[(0, v)], ⟨.w32, v.setWidth 64⟩⟩

/-- One lane of `exec` behind the instruction. -/
def laneDone (w : Issue) (f : Fibre) (o : LaneOut) : Fibre :=
  let g := f.setRegs o.writes
  { (if w.parked then g.voidLatches else g.shift o.latch) with pc := nextPc w.enc f }

/-- One lane guarded off behind the instruction (R45, R48). -/
def laneSkipped (w : Issue) (f : Fibre) : Fibre :=
  { (if w.parked then f.voidLatches else f.shift .void) with pc := nextPc w.enc f }

/-- The instruction completes in every lane of the cohort: `out` says what it does in each lane of `exec` (log 32, DESIGN CHOICE). -/
def complete (w : Issue) (s : State) (out : Fibre → LaneOut) : State :=
  { s with fibres := s.fibres.map fun f =>
      if w.ids.contains f.id then laneDone w f (out f)
      else if w.offIds.contains f.id then laneSkipped w f
      else f }

/-- An instruction that computes in each lane of `exec` from that lane's operands. -/
def lanewise (i : Instr) (s : State) (out : Enc → Fibre → LaneOut) : Host.Outcome State Fault Refusal :=
  issue i s fun w s => complete w s (out w.enc)

/-- An instruction that computes in each lane of `exec` from the lanes of the cohort (R146). -/
def crosswise (i : Instr) (s : State) (out : Issue → Fibre → LaneOut) : Host.Outcome State Fault Refusal :=
  issue i s fun w s => complete w s (out w)

/-- A switch point: every lane of the cohort goes on behind the instruction with void latches (R46); effects follow. -/
def passSwitch (w : Issue) (s : State) : State :=
  s.setFibres w.allIds fun f => { f.voidLatches with pc := nextPc w.enc f }

end Sys2Proof.Machine
end

