-- ==== Sys2Proof/Machine/Blocks.lean ====
section
/-! DEFINITION. Block and group formats: scales, quantisation, decoding, and the sums of the matrix engine (spec/05 R92 to R105,
spec/06 R122, R123). -/

namespace Sys2Proof

/-- Element width of a block format (R122, R167). -/
def elemWidth (c : Nat) : Nat :=
  match c with
  | 0 => 32 | 1 | 2 => 16 | 6 | 7 | 13 => 8 | 8 | 9 => 6 | _ => 4
/-- INT8 and INT4 (R119). -/
def isIntCode (c : Nat) : Bool := c == 13 || c == 14
/-- Code range of an integer format (R96). -/
def qRange (c : Nat) : Int × Int := if c == 13 then (-128, 127) else (-8, 7)
/-- emax of an element format (R94): the exponent of its largest finite value. -/
def emaxOf (c : Nat) : Int :=
  match c with
  | 6 => 8 | 7 => 15 | 8 => 4 | _ => 2
/-- Element `i` of `w` bits in a packed string (R95, R96). -/
def packedElem (w i bits : Nat) : Nat := bits / 2 ^ (w * i) % 2 ^ w

/-- The value of an E8M0 code (R94). -/
def e8m0 (c : Nat) : FVal :=
  if c % 256 == 255 then .nan else let p := pow2 ((c % 256 : Nat) - 127 : Int); .fin false p.1 p.2
/-- A group record that R96 refuses. -/
def recordRefused (fmt rec : Nat) : Bool :=
  natBits rec 31 24 != 0 || (fmt == 14 && natBits rec 23 20 != (if rec.testBit 19 then 15 else 0))
/-- The zero point of a group record. -/
def recordZp (rec : Nat) : Int := (BitVec.ofNat 8 (natBits rec 23 16)).toInt
/-- An integer element's code as a signed number. -/
def intElem (fmt code : Nat) : Int := if fmt == 13 then (BitVec.ofNat 8 code).toInt else (BitVec.ofNat 4 code).toInt

/-- `dec(F, code, scale)` (R92, R94, R96), NaN under a refused record (R123). -/
def decElem (fmt code scale : Nat) : FVal :=
  if isIntCode fmt then
    if recordRefused fmt scale then .nan
    else (Fmt.f16.dec scale).mul (.ofInt false (intElem fmt code - recordZp scale) 1)
  else ((codeFmt fmt).dec code).mul (e8m0 scale)

/-- The value of largest magnitude. -/
def amaxOf (vs : List FVal) : Nat × Nat :=
  vs.foldl (fun m v => match v with
    | .fin _ n d => if m.1 * d < n * m.2 then (n, d) else m
    | _ => m) (0, 1)

/-- `blockscale` (R100). -/
def blockScale (fmt : Nat) (vs : List FVal) : Nat :=
  if vs.any (fun v => v.isNan || v.isInf false || v.isInf true) then 255
  else
    let a := amaxOf vs
    if a.1 == 0 then 0 else (clampInt 0 254 (floorLog2 a.1 a.2 - emaxOf fmt + 127)).toNat

/-- One element under a block scale (R100): `rnd(v / X, F, m, s)`, +0 under scale 255. -/
def encodeElem (fmt code : Nat) (m : Mode) (draw : Nat) (v : FVal) : Nat :=
  if code == 255 then 0 else (codeFmt fmt).rnd m draw (v.div (e8m0 code))

/-- `rint_rne (v / SCALE)` (R101); SCALE = 0 leaves it open (log 7, DESIGN CHOICE). -/
def quantInt (scale : FVal) (v : Int × Nat) : Int :=
  match scale with
  | .fin _ n d => if n == 0 then Config.quantByZero v.1 v.2 else rndInt .rne 0 (v.1 < 0) (v.1.natAbs * d) (v.2 * n)
  | _ => 0

/-- Compare of two fractions. -/
def fracLt (a b : Int × Nat) : Bool := a.1 * b.2 < b.1 * a.2

/-- The group record and the codes of R101. -/
def quantGroup (fmt : Nat) (vs : List FVal) : Nat × List Nat :=
  let w := elemWidth fmt
  let q := qRange fmt
  if vs.any (fun v => v.isNan || v.isInf false || v.isInf true) then (0x7E00, vs.map fun _ => 0)
  else
    let fs := vs.map FVal.frac
    let lo := fs.foldl (fun m v => if fracLt v m then v else m) (0, 1)
    let hi := fs.foldl (fun m v => if fracLt m v then v else m) (0, 1)
    if !fracLt lo hi then (0x3C00, vs.map fun _ => 0)
    else
      let span := addFrac hi (-lo.1, lo.2)
      let sc := Fmt.f16.rne (.ofInt false span.1 (span.2 * (q.2 - q.1).toNat))
      let scv := Fmt.f16.dec sc
      let zp := clampInt q.1 q.2 (q.1 - quantInt scv lo)
      (sc + 2 ^ 16 * (BitVec.ofInt 8 zp).toNat,
       fs.map fun v => (BitVec.ofInt w (clampInt q.1 q.2 (quantInt scv v + zp))).toNat)

/-- `qblk` (R122) over the executing lanes and their values: the even and odd result words of each. -/
def qblkLanes (fmt : Nat) (m : Mode) (pk : Bool) (seed : Nat → Nat) (vs : List (Nat × FVal)) : List (Nat × Nat × Nat) :=
  let w := elemWidth fmt
  let sideElems : Nat × List Nat :=
    if isIntCode fmt then quantGroup fmt (vs.map (·.2))
    else
      let c := blockScale fmt (vs.map (·.2))
      (c, vs.map fun (l, v) => encodeElem fmt c m (srDraw (seed l) l l) v)
  let es := (vs.map (·.1)).zip sideElems.2
  let str := es.foldl (fun s (l, e) => s + e * 2 ^ (w * l)) 0
  es.map fun (l, e) => (l, (if pk then (if l < w then packedElem 32 l str else 0) else e), sideElems.1)

/-- `dqblk` (R123): a lane's result from its element, the scale if present, and the output type (true `.f32`). -/
def dqblkElem (fmt : Nat) (f32 : Bool) (code : Nat) (scale : Option Nat) : Nat :=
  let v := match scale with
    | none => FVal.nan
    | some s => decElem fmt code s
  if f32 then Fmt.f32.rne v else Fmt.bf16.rne v

/-! The matrix engine's sums (R103, R104). -/

/-- One segment of a chunk: element values of A and B after their zero points, the scales, whether a group record covering it
is refused. -/
structure MxSeg where
  pairs : List (FVal × FVal)
  scaleA : FVal
  scaleB : FVal
  refused : Bool
deriving DecidableEq, Repr

/-- Neither NaN nor infinite. -/
def FVal.finite : FVal → Bool
  | .fin _ _ _ => true
  | _ => false

/-- The skip condition of R104 (log 60, DEDUCED). -/
def mxSkipped (segs : List MxSeg) : Bool :=
  segs.all fun g => !g.refused && g.scaleA.finite && g.scaleB.finite &&
    g.pairs.all fun p => p.1.isZero && p.2.finite

/-- One chunk's update of an accumulator (R103). -/
def mxUpdate (acc : Nat) (segs : List MxSeg) : Nat :=
  let x := Fmt.f32.dec acc
  if mxSkipped segs then acc
  else
    let prods (g : MxSeg) := g.pairs.map fun p => p.1.mul p.2
    let terms := segs.map fun g =>
      if g.refused then FVal.nan else ((FVal.sum false (prods g)).mul g.scaleA).mul g.scaleB
    if x.isZero && terms.all FVal.isZero && segs.all (fun g => (prods g).all FVal.isZero) then acc
    else
      let s := FVal.sum false terms
      if s.isZero && x.isZero then 0 else Fmt.f32.rne (FVal.sum false [x, s])

/-- Chunk class Kc of a matrix format (R167). -/
def chunkClass (c : Nat) : Nat :=
  match c with
  | 0 => 8 | 1 | 2 => 32 | 6 | 7 | 13 => 64 | _ => 128
/-- Formats a tile task may name (R167). -/
def matrixCode (c : Nat) : Bool := c ≤ 2 || (6 ≤ c && c ≤ 10) || c == 13 || c == 14
/-- Bytes of a chunk. -/
def chunkBytes (c : Nat) : Nat := chunkClass c * elemWidth c / 8
/-- Scale bytes: none, one E8M0 byte, or a 4-byte group record (R167, R168). -/
def scaleBytes (c : Nat) : Nat := if c ≤ 2 then 0 else if isIntCode c then 4 else 1
/-- Elements one scale covers (R168): 32 under E8M0, the group size for integers. -/
def scaleGroup (c g : Nat) : Nat := if isIntCode c then 32 * 2 ^ g else 32

end Sys2Proof
end

