-- ==== Sys2Proof/Machine/Views.lean ====
section
/-! DEFINITION. View regions: register fields, the storage byte behind each view, decoded elements (spec/13 R237 to R240). -/

namespace Sys2Proof.Machine

/-- The fields of a region register (R237). -/
structure Region where
  stack : Nat
  grp : Nat
  dout : Bool
  fmt : Nat
  esz : Nat
  rows : Nat
  rb : Nat
  sbase : Nat
  base : Nat
deriving DecidableEq, Repr

/-- The fields of a register image, ROWS and RB in rows and bytes (R237). -/
def regionOf (stack : Nat) (image : Nat) : Region :=
  { stack := stack, grp := natBits image 121 120, dout := natBits image 119 119 == 1, fmt := natBits image 118 115,
    esz := natBits image 114 113, rows := 16 * natBits image 111 92, rb := 64 * natBits image 91 78,
    sbase := 1024 * natBits image 51 26, base := 1024 * natBits image 25 0 }

/-- E of R237. -/
def elemBytes (r : Region) : Nat := 2 ^ r.esz
/-- D of R237. -/
def outBytes (r : Region) : Nat := if r.dout then 4 else 2
/-- K of R237: formatted elements in a row; 0 without a format. -/
def rowElems (r : Region) : Nat := if r.fmt == 0 then 0 else r.rb * 8 / elemWidth r.fmt
/-- Elements that share a scale (R238). -/
def groupElems (r : Region) : Nat := scaleGroup r.fmt r.grp
/-- Bytes of one scale (R238). -/
def scaleSize (r : Region) : Nat := if isIntCode r.fmt then 4 else 1
/-- SRB of R238. -/
def scaleRow (r : Region) : Nat := ceilDiv (rowElems r / groupElems r * scaleSize r) 64 * 64
/-- The size of a view (R239). -/
def viewSize (r : Region) (sel : Nat) : Nat :=
  if sel ≤ 2 then r.rows * r.rb else r.rows * rowElems r * outBytes r

/-- S(r, cb) of R238, as a physical offset. -/
def storageByte (r : Region) (row cb : Nat) : Nat :=
  r.stack * 2 ^ 36 + r.base + 1024 * (row / 16 * (r.rb / 64) + cb / 64) + 64 * (row % 16) + cb % 64

/-- The physical offset of the scale of group `b` of a row (R238). -/
def scaleByte (r : Region) (row b : Nat) : Nat := r.stack * 2 ^ 36 + r.sbase + row * scaleRow r + b * scaleSize r

/-- The valid regions of a stack. -/
def State.regionsOf (s : State) (stack : Nat) : List Region :=
  (s.regions.filter fun g => g.stack == stack && g.image.getLsbD 127).map fun g => regionOf stack g.image.toNat

/-- The region whose view `sel` holds an offset of the stack, with the offset in the view (R239); in Bisque views are out of service (R391). -/
def State.regionAt (s : State) (stack sel t : Nat) : Option (Region × Nat) :=
  if s.dev.dstate == 2 then none else ((s.regionsOf stack).find? fun r => r.base ≤ t && t < r.base + viewSize r sel).map fun r => (r, t - r.base)

/-- The storage byte that byte `o` of a view of selector 0, 1 or 2 names (R239). -/
def viewByte (r : Region) (sel o : Nat) : Nat :=
  if sel == 0 then storageByte r (o / r.rb) (o % r.rb)
  else if sel == 1 then
    let e := o / elemBytes r
    storageByte r (e % r.rows) (e / r.rows * elemBytes r + o % elemBytes r)
  else
    let t := o / 64
    storageByte r (4 * (t / (r.rb / 16)) + o % 64 / 16) (16 * (t % (r.rb / 16)) + o % 16)

/-- Row and index of the decoded element `e` of a view (R239: selector 3 by rows, 4 by columns). -/
def decodedElem (r : Region) (sel e : Nat) : Nat × Nat :=
  if sel == 3 then (e / rowElems r, e % rowElems r) else (e % r.rows, e / r.rows)

/-- The code of element `k` of a row: packed along the row (R95, R96, R238). -/
def elemCode (s : State) (r : Region) (row k : Nat) : Nat :=
  let w := elemWidth r.fmt
  let cb := w * k / 8
  (bytesNat ((List.range 2).map fun i => s.getByte (storageByte r row (cb + i)))) / 2 ^ (w * k % 8) % 2 ^ w

/-- The scale of group `b` of a row. -/
def groupScale (s : State) (r : Region) (row b : Nat) : Nat := s.getNat (scaleByte r row b) (scaleSize r)

/-- The decoded value of an element under a code and a scale, as bytes in the output format (R102, R240). -/
def decodedBytes (r : Region) (code scale : Nat) : List Byte :=
  let v := decElem r.fmt code scale
  if r.dout then natBytes 4 (Fmt.f32.rne v) else natBytes 2 (Fmt.bf16.rne v)

/-- Write the code of element `k` of a row. -/
def putCode (s : State) (r : Region) (row k code : Nat) : State :=
  let w := elemWidth r.fmt
  let cb := w * k / 8
  let sh := w * k % 8
  let old := bytesNat ((List.range 2).map fun i => s.getByte (storageByte r row (cb + i)))
  let new := old - (old / 2 ^ sh % 2 ^ w) * 2 ^ sh + code % 2 ^ w * 2 ^ sh
  if sh + w ≤ 8 then s.putByte (storageByte r row cb) (BitVec.ofNat 8 new)
  else (s.putByte (storageByte r row cb) (BitVec.ofNat 8 new)).putByte (storageByte r row (cb + 1)) (BitVec.ofNat 8 (new / 256))

/-- The codes and the scale of a block or group of values (R100, R101). -/
def encodeBlock (fmt : Nat) (vs : List FVal) : List Nat × Nat :=
  if isIntCode fmt then ((quantGroup fmt vs).2, (quantGroup fmt vs).1)
  else (vs.map (encodeElem fmt (blockScale fmt vs) .rne 0), blockScale fmt vs)

/-- The value of decoded bytes in the output format of a region. -/
def outValue (r : Region) (bs : List Byte) : FVal :=
  if r.dout then Fmt.f32.dec (bytesNat bs) else Fmt.bf16.dec (bytesNat bs)

/-- The stack and the offset in it that a view address names: a view may reach beyond the backed part of its stack's window (R232, R241). -/
def viewPlace (off : Nat) : Option (Nat × Nat) := if off < 2 ^ 40 then some (off / 2 ^ 36, off % 2 ^ 36) else none

/-- The region and the offset in the view that an address of selectors 1 to 4 names (R239). -/
def State.viewAt (s : State) (sel off : Nat) : Option (Region × Nat) :=
  (viewPlace off).bind fun p => s.regionAt p.1 sel p.2

/-- The storage bytes of a decoded element: those of its code, and those of its scale (R238, R239). -/
def codePlace (r : Region) (row k : Nat) : List Nat :=
  let b := elemWidth r.fmt * k
  (List.range ((b % 8 + elemWidth r.fmt + 7) / 8)).map fun i => storageByte r row (b / 8 + i)
def scalePlace (r : Region) (row k : Nat) : List Nat :=
  (List.range (scaleSize r)).map fun i => scaleByte r row (k / groupElems r) + i

/-- The decoded elements that `n` bytes of a view from offset `o` on touch. -/
def decodedElems (r : Region) (sel o n : Nat) : List (Nat × Nat) :=
  let d := outBytes r
  (List.range ((o + n + d - 1) / d - o / d)).map fun i => decodedElem r sel (o / d + i)

/-- The storage bytes behind `n` bytes of a view from offset `o` on (R239). -/
def viewBytes (r : Region) (sel o n : Nat) : List Nat :=
  if 3 ≤ sel then (decodedElems r sel o n).flatMap fun e => codePlace r e.1 e.2 ++ scalePlace r e.1 e.2
  else (List.range n).map fun i => viewByte r sel (o + i)

/-- The storage bytes an access of `n` bytes reaches, or the code of the error response (R138, R232, R239, R245, R246, R300). -/
def storageOf (s : State) (spa n : Nat) : Except Nat (List Nat) :=
  let sel := spa / 2 ^ 49
  let off := spa % 2 ^ 49
  let lost (bs : List Nat) : Except Nat (List Nat) := if bs.any fun b => s.isLost b || !s.isBacked b then .error 0x47 else .ok bs
  if 4 < sel then .error 0x44
  else if sel != 0 then
    match s.viewAt sel off with
    | some (r, o) => lost (viewBytes r sel o n)
    | none => .error 0x45
  else
    match s.place off with
    | .aperture _ _ => .error 0x47
    | .window _ => .ok ((List.range n).map (off + ·))
    | .nothing => .error 0x47
    | .hbm st t =>
      match s.regionAt st 0 t with
      | some (r, o) => lost (viewBytes r 0 o n)
      | none => lost ((List.range n).map (off + ·))

/-- Read an access of `n` bytes at its homes through any selector, or the code of the error response (R138, R239, R240, R244). -/
def readAt (s : State) (spa n : Nat) : Except Nat (List Byte) :=
  match storageOf s spa n with
  | .error c => .error c
  | .ok bs =>
    if eccFails s bs then .error 0x48
    else
      match (if 3 ≤ spa / 2 ^ 49 then s.viewAt (spa / 2 ^ 49) (spa % 2 ^ 49) else none) with
      | none => .ok (bs.map s.getByte)
      | some (r, o) =>
        .ok ((List.range n).map fun i =>
          let e := decodedElem r (spa / 2 ^ 49) ((o + i) / outBytes r)
          (decodedBytes r (elemCode s r e.1 e.2) (groupScale s r e.1 (e.2 / groupElems r))).getD ((o + i) % outBytes r) 0)

/-- The storage byte of a signal or of a wake line at a physical address (R248): what its watchers are kept under. -/
def homeByte (s : State) (spa : Nat) : Nat :=
  match storageOf s spa 8 with
  | .ok (b :: _) => b
  | _ => spa % 2 ^ 49

/-- A line of HBM that is written whole is readable again (R244). -/
def State.heal (s : State) (bs : List Nat) : State :=
  if s.eccBad.isEmpty then s
  else { s with eccBad := s.eccBad.filter fun l => !((List.range 64).all fun i => bs.contains (64 * l + i)) }

/-- Write bytes by position through selectors 0 to 2; the addresses are those of `storageOf`. -/
def writeStorage (s : State) (bs : List Nat) (data : List (Nat × Byte)) : State :=
  data.foldl (fun s p => s.putByte (bs.getD p.1 0) p.2) s

end Sys2Proof.Machine
end

