-- ==== Sys2Proof/Machine/Translate.lean ====
section
/-! DEFINITION. Translation: the two stages of tables, the combined TLB, generations (spec/15 R265 to R272). -/

namespace Sys2Proof.Machine

/-- What an access needs of a page (R267). -/
inductive Need where
  | read | write | fetch
deriving DecidableEq, Repr

/-- The outcome of translation: the physical address and device; a page that is not resident; a held write to a migrating page;
a failure with its code and stage (R267, R268). -/
inductive Xlate where
  | ok (spa : Nat) (dev : Option Nat)
  | nonres
  | held
  | fail (code stage : Nat)
deriving DecidableEq, Repr

/-- Index of a table level (R265). -/
def tableIndex (stage2 : Bool) (level a : Nat) : Nat :=
  if level == 5 then (if stage2 then natBits a 51 48 else natBits a 56 48) else natBits a (12 + 9 * level - 1) (12 + 9 * (level - 1))

/-- Bytes that a leaf at a level maps (R265). -/
def leafBytes (level : Nat) : Nat := 2 ^ (12 + 9 * (level - 1))

/-- PFN as an address (R266). -/
def pfnOf (e : Nat) : Nat := natBits e 51 12 * 4096

/-- An entry that breaks R265 or R266. -/
def badEntry (stage2 : Bool) (level e : Nat) : Bool :=
  let leaf := e.testBit 1
  natBits e 8 6 != 0 || e.testBit 2 || (level == 1 && !leaf) || (4 ≤ level && leaf) ||
  (if leaf then
    (e.testBit 11 && !stage2) || (e.testBit 9 && !stage2) || (e.testBit 10 && level != 1) ||
    (natBits e 63 52 != 0 && !e.testBit 11) || (e.testBit 5 && pfnOf e % leafBytes level != 0)
   else natBits e 63 52 != 0 || natBits e 11 9 != 0 || natBits e 5 3 != 0)

/-- Walk the stage-2 tables for a guest address: the leaf and its level (R267). -/
def walk2 (s : State) (gpa : Nat) : Nat → List Nat → Except (Nat × Nat) (Nat × Nat)
  | _, [] => .error (0x93, 2)
  | tbl, lv :: ls =>
    match readAt s (tbl + 8 * tableIndex true lv gpa) 8 with
    | .error _ => .error (0x94, 2)
    | .ok bs =>
      let e := bytesNat bs
      if !e.testBit 0 then .error (0x92, 2)
      else if badEntry true lv e then .error (0x93, 2)
      else if e.testBit 1 then .ok (e, lv)
      else walk2 s gpa (pfnOf e) ls

/-- Stage 2 of one guest address under a function's root (R267). -/
def stage2 (s : State) (vf gpa : Nat) : Except (Nat × Nat) (Nat × Nat) :=
  match (s.fn? vf).bind (·.root2) with
  | none => .error (0x92, 2)
  | some root => walk2 s gpa root [5, 4, 3, 2, 1]

/-- The physical address a leaf gives. -/
def leafAddr (e lv a : Nat) : Nat := pfnOf e + a % leafBytes lv

/-- Read a stage-1 entry: its guest address goes through stage 2 (R267). A table frame in another device's memory holds a free value
here (log 10, DESIGN CHOICE). -/
def readEntry1 (s : State) (vf gpa : Nat) : Except (Option (Nat × Nat)) Nat :=
  match stage2 s vf gpa with
  | .error c => .error (some c)
  | .ok (e, lv) =>
    if !e.testBit 5 then .error none
    else if e.testBit 11 then .ok (Config.freeNat (s.free + gpa))
    else
      match readAt s (leafAddr e lv gpa) 8 with
      | .error _ => .error (some (0x94, 2))
      | .ok bs => .ok (bytesNat bs)

/-- Walk the stage-1 tables: the leaf and its level; `none` where a table page is not resident (log 11, DESIGN CHOICE). -/
def walk1 (s : State) (vf va : Nat) : Nat → List Nat → Except (Option (Nat × Nat)) (Nat × Nat)
  | _, [] => .error (some (0x93, 1))
  | tbl, lv :: ls =>
    match readEntry1 s vf (tbl + 8 * tableIndex false lv va) with
    | .error c => .error c
    | .ok e =>
      if !e.testBit 0 then .error (some (0x90, 1))
      else if badEntry false lv e then .error (some (0x93, 1))
      else if e.testBit 1 then .ok (e, lv)
      else walk1 s vf va (pfnOf e) ls

/-- What a full walk finds: both leaves (R267). -/
structure Leaves where
  e1 : Nat
  lv1 : Nat
  e2 : Nat
  lv2 : Nat
  gpa : Nat
deriving DecidableEq, Repr

/-- Both leaves of a VA, or the first failure (R267). -/
def walkBoth (s : State) (vf asid va : Nat) : Except (Option (Nat × Nat)) Leaves :=
  match s.ctx? asid with
  | none => .error (some (0x90, 1))
  | some c =>
    match walk1 s vf va c.root [5, 4, 3, 2, 1] with
    | .error e => .error e
    | .ok (e1, lv1) =>
      match stage2 s vf (leafAddr e1 lv1 va) with
      | .error e => .error (some e)
      | .ok (e2, lv2) => if e1.testBit 5 then .ok ⟨e1, lv1, e2, lv2, leafAddr e1 lv1 va⟩ else .error none

/-- Permission under a need; the stage that refuses. -/
def permStage (n : Need) (l : Leaves) : Option Nat :=
  let bit := match n with | .read => 1 | .write => 3 | .fetch => 4
  if n = .read then none else if !l.e1.testBit bit then some 1 else if !l.e2.testBit bit then some 2 else none

/-- `translate` by a fresh walk (R267). -/
def translateWalk (s : State) (vf asid va : Nat) (n : Need) : Xlate :=
  match walkBoth s vf asid va with
  | .error none => .nonres
  | .error (some c) => .fail c.1 c.2
  | .ok l =>
    if !l.e2.testBit 5 then .nonres
    else
      match permStage n l with
      | some st => .fail 0x91 st
      | none =>
        if l.e2.testBit 9 && n = .write then .held
        else .ok (leafAddr l.e2 l.lv2 l.gpa) (if l.e2.testBit 11 then some (natBits l.e2 63 52) else none)

/-- The combined entry a walk gives the TLB: the smaller leaf, the AND of the permissions (R269). -/
def tlbEntryOf (cluster vf asid gen va : Nat) (l : Leaves) : TlbEntry :=
  let size := min (leafBytes l.lv1) (leafBytes l.lv2)
  let spa := leafAddr l.e2 l.lv2 l.gpa
  { cluster := cluster, vf := vf, asid := asid, gen := gen, va := va - va % size, size := size, spa := spa - va % size,
    dev := if l.e2.testBit 11 then some (natBits l.e2 63 52) else none, w := l.e1.testBit 3 && l.e2.testBit 3,
    x := l.e1.testBit 4 && l.e2.testBit 4, mig := l.e2.testBit 9 }

/-- The entry of a cluster's TLB that a VA may hit: tagged with the current generation (R269). -/
def tlbHit (s : State) (cluster vf asid va : Nat) (n : Need) : Option TlbEntry :=
  s.tlb.find? fun t => t.cluster == cluster && t.vf == vf && t.asid == asid && t.gen == s.gen asid && t.va ≤ va && va < t.va + t.size &&
    (match n with | .read => true | .write => t.w | .fetch => t.x)

/-- Write bytes where an access to a physical address would find them. -/
def pokeAt (s : State) (spa : Nat) (bs : List Byte) : State :=
  match storageOf s spa bs.length with
  | .ok st => writeStorage s st ((List.range bs.length).zip bs)
  | .error _ => s

/-- The valid entries that a stage-2 walk reads, with their addresses (R269). -/
def path2 (s : State) (gpa : Nat) : Nat → List Nat → List (Nat × Nat)
  | _, [] => []
  | tbl, lv :: ls =>
    let p := tbl + 8 * tableIndex true lv gpa
    match readAt s p 8 with
    | .error _ => []
    | .ok bs =>
      let e := bytesNat bs
      if !e.testBit 0 || badEntry true lv e || (e.testBit 1 && !e.testBit 5) then []
      else (p, e) :: (if e.testBit 1 then [] else path2 s gpa (pfnOf e) ls)

/-- The entries that a walk leaves in the walk caches (R269): stage, address, entry. -/
def path1 (s : State) (vf root va : Nat) : Nat → List Nat → List (Nat × Nat × Nat)
  | _, [] => []
  | tbl, lv :: ls =>
    let two (g : Nat) : List (Nat × Nat × Nat) := (path2 s g root [5, 4, 3, 2, 1]).map (2, ·)
    let g := tbl + 8 * tableIndex false lv va
    match stage2 s vf g, readEntry1 s vf g with
    | .ok (e2, lv2), .ok e =>
      two g ++
        (if !e.testBit 0 || badEntry false lv e then []
         else if e.testBit 1 then two (leafAddr e lv va)
         else (1, leafAddr e2 lv2 g, e) :: path1 s vf root va (pfnOf e) ls)
    | _, _ => two g

/-- The first `n` entries of a list that a cache holds, with all that it does not. -/
def keepMost {α : Type} (p : α → Bool) : Nat → List α → List α
  | _, [] => []
  | n, x :: xs => if !p x then x :: keepMost p n xs else match n with
    | 0 => keepMost p 0 xs
    | k + 1 => x :: keepMost p k xs

/-- Keep what a walk read in the cluster's walk caches: 1,024 stage-2 entries, 256 of stage 1 that are no leaves (R269); a full cache loses its oldest (log
12, DESIGN CHOICE). -/
def walkFill (s : State) (cluster vf asid va : Nat) : State :=
  match s.ctx? asid, (s.fn? vf).bind (·.root2) with
  | some c, some root =>
    let es := (path1 s vf root va c.root [5, 4, 3, 2, 1]).map fun p => (⟨cluster, vf, asid, s.gen asid, p.1, p.2.1, p.2.2⟩ : WalkEntry)
    let all := distinct es ++ s.walks.filter fun w => !es.contains w
    let most := keepMost (fun w => w.cluster == cluster && w.stage == 2) 1024 all
    { s with walks := keepMost (fun w => w.cluster == cluster && w.stage == 1) 256 most }
  | _, _ => s

/-- The tables as a walk of a cluster reads them: each cached entry of the current generation may serve it, which is a free choice (R269, R270) (log 12,
DESIGN CHOICE). -/
def walkCached (s : State) (cluster vf asid : Nat) : State :=
  (s.walks.filter fun w => w.cluster == cluster && w.vf == vf && w.asid == asid && w.gen == s.gen asid &&
      (match readAt s w.place 8 with | .ok bs => bytesNat bs != w.val | .error _ => false)).foldl
    (fun s w =>
      let c := choose s 2
      if c.1 == 0 then pokeAt c.2 w.place (natBytes 8 w.val) else c.2) s

/-- Keep what a walk found in the cluster's TLB, 4,096 entries: only leaves with RES = 1 (R269). -/
def tlbFill (s : State) (cluster vf asid va : Nat) : State :=
  match walkBoth s vf asid va with
  | .ok l =>
    if l.e2.testBit 5 then
      let t := tlbEntryOf cluster vf asid (s.gen asid) va l
      if s.tlb.contains t then s else { s with tlb := keepMost (·.cluster == cluster) 4096 (t :: s.tlb) }
    else s
  | .error _ => s

/-- A walk in a cluster's memory interface, with its walk caches (R267, R269); a missing permission is confirmed by a walk that reads every entry afresh. -/
def walkHere (s : State) (cluster vf asid va : Nat) (n : Need) : Xlate × State :=
  let v := walkCached s cluster vf asid
  let f := walkFill (tlbFill v cluster vf asid va) cluster vf asid va
  let t := { s with tlb := f.tlb, walks := f.walks, free := f.free }
  match translateWalk v vf asid va n with
  | .fail 0x91 _ => (translateWalk s vf asid va n, tlbFill s cluster vf asid va)
  | x => (x, t)

/-- Translation in a cluster's memory interface (R267, R269). An entry that hits may have been discarded meanwhile: whether it serves
the access or a walk does is a free choice (log 12, DESIGN CHOICE). A missing permission is confirmed by a fresh walk. -/
def translate (s : State) (cluster vf asid va : Nat) (n : Need) : Xlate × State :=
  match tlbHit s cluster vf asid va n with
  | none => walkHere s cluster vf asid va n
  | some t =>
    let c := choose s 2
    if c.1 == 0 then
      (if t.mig && n = .write then .held else .ok (t.spa + (va - t.va)) t.dev, c.2)
    else walkHere c.2 cluster vf asid va n

/-- Discard what is cached of an address space on every core: TLB entries and L1 lines (R271). -/
def discardAsid (s : State) (asid : Nat) : State :=
  { s with tlb := s.tlb.filter (·.asid != asid)
           walks := s.walks.filter (·.asid != asid)
           cores := s.cores.map fun c => { c with l1 := c.l1.filter (·.asid != asid) } }

/-- A generation bump of one address space: the new generation at every home, nothing cached stays (R262, R271). -/
def bumpGen (s : State) (asid : Nat) : State := discardAsid (s.setCtx asid fun c => { c with gen := (c.gen + 1) % 256 }) asid

/-- A bump of every address space of a function, as a stage-2 change needs (R270). -/
def bumpFn (s : State) (vf : Nat) : State :=
  ((s.ctxs.filter (·.vf == vf)).map (·.asid)).foldl bumpGen s

/-- The trap of a failed translation: ARG the VA, AUX the stage (R364, R268). -/
def xlateTrap (x : Xlate) (pc va : DWord) : Trap :=
  match x with
  | .fail c st => ⟨c, pc, pc, va, st, false⟩
  | _ => ⟨0x42, pc, pc, va, 0, false⟩

end Sys2Proof.Machine
end

