-- ==== Sys2Proof/Machine/Access.lean ====
section
/-! DEFINITION. Memory accesses as the machine makes them: forming and checking an address, sending, performing at the home in the
order the memory model asks, clock stamps, landing, replay (spec/07 R131 to R141, R398; spec/14 R249 to R259). -/

namespace Sys2Proof.Machine

/-! ### Clock stamps -/

/-- The count a stamp holds for a die and a home (R251). -/
def stampAt (st : Stamp) (die home : Nat) : Nat := ((st.find? fun c => c.1 == die && c.2.1 == home).map (·.2.2)).getD 0

/-- Raise one count of a stamp. -/
def stampSet (st : Stamp) (die home n : Nat) : Stamp :=
  setOr (fun c => c.1 == die && c.2.1 == home) (fun c => (c.1, c.2.1, max c.2.2 n)) (die, home, 0) st

/-- The larger of two stamps, count by count (R251). -/
def stampMerge (a b : Stamp) : Stamp := b.foldl (fun st c => stampSet st c.1 c.2.1 c.2.2) a

/-- The writes of each die that a home has applied (R252). -/
def appliedAt (s : State) (home : Nat) : List (Nat × Nat) := (s.counts.filter (·.2.1 == home)).map fun c => (c.1, c.2.2)

/-- The stamp of what stands in some bytes: that of the last write to each (R251). -/
def stampOf (s : State) (bs : List Nat) : Stamp :=
  bs.foldl (fun st b =>
    match s.stamps.find? fun w => w.1 ≤ b && b < w.1 + w.2.1 with
    | some w => stampMerge st w.2.2
    | none => st) []

/-- Count a write of a die at a home and stamp the bytes it wrote (R251); the writes it follows in coherence order come before it (R250). -/
def stampWrite (s : State) (die : Nat) (bs : List Nat) (st : Stamp) : Stamp × State :=
  match bs with
  | [] => (st, s)
  | b :: _ =>
    let h := s.homeOf b
    let n := stampAt s.counts die h + 1
    let st' := stampSet (stampMerge st (stampOf s bs)) die h n
    (st', { s with counts := stampSet s.counts die h n
                   stamps := (bs.map fun x => (x, 1, st')) ++ s.stamps.filter fun w => !(bs.any fun x => w.1 == x) })

/-! ### Clocks -/

/-- The frontier kept under a key (R251, R255, R260); nothing is known where there is none. -/
def State.clockOf (s : State) (k : ClockKey) : Stamp := ((s.clocks.find? fun c => decide (c.key = k)).map (·.st)).getD []

/-- A frontier learns a stamp. -/
def State.addClock (s : State) (k : ClockKey) (st : Stamp) : State :=
  if st.isEmpty then s
  else { s with clocks := setOr (fun c => decide (c.key = k)) (fun c => { c with st := stampMerge c.st st }) ⟨k, [], []⟩ s.clocks }

/-- A frontier is known no longer, or begins anew. -/
def State.dropClock (s : State) (k : ClockKey) : State := { s with clocks := s.clocks.filter fun c => !decide (c.key = k) }
def State.setClock (s : State) (k : ClockKey) (st : Stamp) : State := (s.dropClock k).addClock k st

/-- One frontier learns what another holds. -/
def State.passClock (s : State) (a b : ClockKey) : State := s.addClock b (s.clockOf a)

/-- A fibre's frontier learns a stamp (R251). -/
def State.teach (s : State) (id : Nat) (st : Stamp) : State :=
  if st.isEmpty then s else s.setFibre id fun f => { f with frontier := stampMerge f.frontier st }

/-- The frontier of a fibre. -/
def State.frontierOf (s : State) (id : Nat) : Stamp := ((s.fibre? id).map (·.frontier)).getD []

/-! ### Forming and checking an address -/

/-- What the checks of R131 make of an address. -/
inductive Addr where
  | ok (spa : Nat) (dev : Option Nat)
  | nonres
  | held
  | bad (t : Trap)
deriving DecidableEq, Repr

/-- Memory as a fibre's walk reads it: with the fibre's own stores that are on their way (R250, R269). -/
def walkView (s : State) (id : Nat) : State :=
  (s.accesses.filter fun a => decide (a.agent = .fibre id) && a.dev.isNone && decide (a.resp = .none)).foldl
    (fun s a => match a.op with
      | .write d _ =>
        (match storageOf s a.spa (d.foldl (fun m p => max m (p.1 + 1)) 0) with
         | .ok bs => if a.spa / 2 ^ 49 ≤ 2 then writeStorage s bs d else s
         | .error _ => s)
      | _ => s) s

/-- Range, alignment and translation of an address, in the order of R131. `size` 0 checks no alignment. -/
def checkAddr (s : State) (f : Fibre) (va : DWord) (size : Nat) (n : Need) : Addr × State :=
  if 2 ^ 57 ≤ va.toNat then (.bad ⟨0x41, f.pc, f.pc, va, 0, false⟩, s)
  else if size != 0 && va.toNat % size != 0 then (.bad ⟨0x40, f.pc, f.pc, va, 0, false⟩, s)
  else
    let r := translate (walkView s f.id) (coreCluster (s.fibreCore f)) (s.fibreVf f) (s.fibreAsid f) va.toNat n
    let t := { s with tlb := r.2.tlb, walks := r.2.walks, free := r.2.free }
    match r.1 with
    | .ok spa dev => (.ok spa dev, t)
    | .nonres => (.nonres, t)
    | .held => (.held, t)
    | x => (.bad (xlateTrap x f.pc va), t)

/-- The lanes of an instruction in ascending lane order (R175). -/
def byLane (fs : List Fibre) : List Fibre := (List.range 32).filterMap fun l => fs.find? (·.lane == l)

/-! ### Accesses in flight -/

/-- An access a fibre makes: the fields that do not depend on the operation. -/
def fibreAccess (s : State) (f : Fibre) (va : DWord) (spa : Nat) (dev : Option Nat) (held : Bool) (op : MemOp)
    (dest : Option Dest) (order scope : Nat) : Access :=
  { ref := s.nextId, agent := .fibre f.id, pc := f.pc, die := coreDie (s.fibreCore f), vf := s.fibreVf f, asid := s.fibreAsid f,
    gen := s.gen (s.fibreAsid f), va := va, spa := spa, dev := dev, op := op, dest := dest, order := order, scope := scope,
    nc := false, cpa := false, scrOff := 0, scrLen := 0, group := 0,
    needs := ((s.fibre? f.id).map (·.acqSet)).getD [], req := s.frontierOf f.id, sent := false, done := 0, got := [], half := none,
    gotSt := [], seen := none, resp := if held then .held else .none, replays := 0, opid := s.fibreOp f }

/-- A `cpa` without a valid byte reads and translates nothing (R151). -/
def Access.scrOnly (a : Access) : Bool := a.cpa && decide (a.op = .read 0)

/-- An access that is sent again begins anew at its home. -/
def Access.again (a : Access) : Access := { a with resp := .none, sent := false, done := 0, got := [], half := none, gotSt := [], seen := none }

/-- An access sent again after a new translation (R132). -/
def Access.moved (a : Access) (spa : Nat) (dev : Option Nat) (gen : Nat) : Access := { a.again with spa := spa, dev := dev, gen := gen }

/-- Change an access in flight. -/
def State.setAccess (s : State) (ref : Nat) (f : Access → Access) : State := { s with accesses := mapIf (·.ref == ref) f s.accesses }

/-- Whether an access reads: loads, atomics, signal operations with a result. -/
def MemOp.reads : MemOp → Bool
  | .read _ => true
  | .write _ _ => false
  | .sigSet _ => false
  | .sigAbort _ => false
  | .sigDec => false
  | _ => true

/-- Whether an access writes. -/
def MemOp.writes : MemOp → Bool
  | .read _ => false
  | .sigRead _ => false
  | _ => true

/-- Bytes of an access. -/
def opSize : MemOp → Nat
  | .read n => n
  | .write d _ => d.foldl (fun m p => max m (p.1 + 1)) 0
  | .atom _ _ w _ _ => if w then 8 else 4
  | _ => 8

/-- The view selector of an access. -/
def Access.sel (a : Access) : Nat := a.spa / 2 ^ 49

/-- A write through a decoded view (R138, R259). -/
def Access.decodedWrite (a : Access) : Bool := a.op.writes && (a.sel == 3 || a.sel == 4) && a.dev.isNone

/-- The fibre an access belongs to. -/
def Access.owner (a : Access) : Option Nat :=
  match a.agent with
  | .fibre f => some f
  | _ => none

/-- Mark registers busy with the reference of their outstanding write (R50). -/
def markBusy (s : State) (id : Nat) (regs : List Nat) (ref : Nat) : State :=
  s.setFibre id fun f => { f with busy := f.busy ++ regs.map fun r => (r, ref) }

/-- The registers a landing result writes, `pw` for the flag of `.rz` included. -/
def destRegs (d : Dest) : List Nat :=
  ((List.range d.words).map (d.reg + ·)) ++ (match d.flag with | some _ => [0] | none => [])

/-- Send an access on its way; its destination becomes busy. -/
def sendAccess (s : State) (a : Access) : State :=
  let s1 := { s with accesses := s.accesses ++ [a], nextId := s.nextId + 1 }
  match a.dest with
  | some d => markBusy s1 d.fibre (destRegs d) a.ref
  | none => s1

/-- After an acquire of a fibre its later accesses come after every load and atomic it has in flight (R256). -/
def setAcquire (s : State) (id : Nat) : State :=
  let refs := (s.accesses.filter fun a => decide (a.agent = .fibre id) && a.op.reads && !a.nc && !a.cpa).map (·.ref)
  s.setFibre id fun f => { f with acqSet := refs }

/-- Whether an acquire is part of an order field: `.acq`, `.ar` (R130). -/
def isAcquire (order : Nat) : Bool := order == 1 || order == 3
/-- Whether a release is: `.rel`, `.ar`. -/
def isRelease (order : Nat) : Bool := order == 2 || order == 3

/-- Whether a release at a scope must wait for an access of the fibre: not for `.nc` loads, nor for decoded writes (R259), and for accesses to other
devices only at `.fab`, the one scope that covers a device beside this (R253) (log 70, DEDUCED). -/
def releaseWaits (scope : Nat) (a : Access) : Bool :=
  !a.nc && !a.decodedWrite && (a.dev.isNone || scope == 6) && !a.cpa

/-- Whether a fibre's stores and atomics are applied as `fence.rel` waits for them (R180); under `.fab` also its other accesses to other
devices have returned (R257). -/
def fibreApplied (s : State) (scope : Nat) (id : Nat) : Bool :=
  !(s.accesses.any fun a => decide (a.agent = .fibre id) && releaseWaits scope a && (a.op.writes || a.dev.isSome))

/-- The fibre's first store or atomic after a release fence at `.fab` is a release at that scope (R254): it also comes after every access in flight. -/
def withRelease (s : State) (id : Nat) (a : Access) : Access :=
  match (s.fibre? id).bind (·.relScope) with
  | some 6 => { a with needs := a.needs ++ (s.accesses.filter fun b => decide (b.agent = .fibre id) && releaseWaits 6 b).map (·.ref) }
  | _ => a

/-- Its fence is spent. -/
def dropRelease (s : State) (id : Nat) : State := s.setFibre id fun f => { f with relScope := none }

/-- Whether a fibre's acquires let it go on: what came before them has returned (R255, R256). -/
def acquired (s : State) (f : Fibre) : Bool := f.acqSet.all fun r => !(s.accesses.any (·.ref == r))

/-- Whether a fibre has nothing outstanding that a release at `scope` waits for (R180, R254, R256). -/
def fibreQuiet (s : State) (scope : Nat) (id : Nat) : Bool :=
  !(s.accesses.any fun a => decide (a.agent = .fibre id) && releaseWaits scope a)

/-! ### Scratchpad writes that other fibres may not see yet -/

/-- A scratchpad byte as a fibre sees it: its own writes first (R142). -/
def scrGet (s : State) (f : Fibre) (o : Nat) : Byte :=
  match f.scr.find? (·.1 == o) with
  | some p => p.2
  | none => memGet ((s.fibreCrew f).map (·.scratch) |>.getD []) o

/-- Scratchpad bytes as a fibre sees them. -/
def scrRead (s : State) (f : Fibre) (o n : Nat) : List Byte := (List.range n).map fun i => scrGet s f (o + i)

/-- A fibre's writes reach the crew's scratchpad: what a release of it does (R142). -/
def scrFlush (s : State) (id : Nat) : State :=
  match s.fibre? id with
  | none => s
  | some f =>
    if f.scr.isEmpty then s
    else
      (s.setCrew f.crew fun c => { c with scratch := f.scr.reverse.foldl (fun m p => memSet m p.1 p.2) c.scratch }).setFibre id
        fun g => { g with scr := [] }

/-- A fibre writes scratchpad bytes: its own view has them at once (R142). -/
def scrWrite (s : State) (id o : Nat) (bs : List (Nat × Byte)) : State :=
  s.setFibre id fun f => { f with scr := (bs.map fun p => (o + p.1, p.2)) ++ f.scr.filter fun q => !(bs.any fun p => o + p.1 == q.1) }

/-- The pending writes of one fibre to some bytes reach the crew's scratchpad; its other writes stay pending. -/
def scrShow (s : State) (id o n : Nat) : State :=
  match s.fibre? id with
  | none => s
  | some f =>
    let hit (p : Nat × Byte) : Bool := o ≤ p.1 && p.1 < o + n
    (s.setCrew f.crew fun c => { c with scratch := ((f.scr.filter hit).reverse).foldl (fun m p => memSet m p.1 p.2) c.scratch }).setFibre id
      fun g => { g with scr := g.scr.filter fun p => !hit p }

/-- Scratchpad words of 8 bytes that are written whole are correct again (R228). -/
def scrGood (s : State) (crew o n : Nat) : State :=
  match s.crew? crew with
  | some c =>
    if (s.core c.core).eccScr.isEmpty then s
    else s.setCore c.core fun k =>
      { k with eccScr := k.eccScr.filter fun w => !(c.scrBase + o ≤ 8 * w && 8 * w + 8 ≤ c.scrBase + o + n) }
  | none => s

/-- Writes of other fibres of the crew to these bytes may already be seen: a free choice for each fibre (R142, R203, log 13, DESIGN CHOICE). -/
def scrPeek (s : State) (f : Fibre) (o n : Nat) : State :=
  ((s.fibres.filter fun g => g.crew == f.crew && g.id != f.id && g.scr.any fun p => o ≤ p.1 && p.1 < o + n).map (·.id)).foldl
    (fun s id =>
      let c := choose s 2
      if c.1 == 0 then c.2 else scrShow c.2 id o n) s

/-! ### Performing an access at its home -/

/-- What an atomic leaves (R141): operation, type, width in bits. -/
def atomNew (op : AtomOp) (ty : BitVec 2) (w old b c : Nat) : Nat :=
  let sg (x : Nat) : Int := if ty == 1 || ty == 3 then x else (if x < 2 ^ (w - 1) then x else (x : Int) - 2 ^ w)
  match op with
  | .add => (old + b) % 2 ^ w
  | .min => if sg b < sg old then b else old
  | .max => if sg old < sg b then b else old
  | .and => old &&& b
  | .or => old ||| b
  | .xor => old ^^^ b
  | .xchg => b
  | .cas => if old == b then c else old
  | .fadd =>
    let t : FTy := if ty == 0 then .f32 else if ty == 1 then .f16x2 else if ty == 2 then .bf16x2 else .f64
    fpAdd t .rne old b

/-- The signed value of a signal word. -/
def sigVal (n : Nat) : Int := (BitVec.ofNat 64 n).toInt

/-- `sig.add` on a signal (R183): negative values stay; the sum is clamped to [0, 2^63 - 1]. -/
def sigAddVal (old : Nat) (b : DWord) : Nat :=
  if sigVal old < 0 then old
  else
    let x := sigVal old + b.toInt
    (if x < 0 then (0 : Int) else if 2 ^ 63 - 1 < x then 2 ^ 63 - 1 else x).toNat

/-- What an operation leaves in the word it reads; none for plain reads and writes. -/
def opNew (op : MemOp) (old : Nat) : Option Nat :=
  match op with
  | .atom o ty w b c => some (atomNew o ty (if w then 64 else 32) old (b.toNat % 2 ^ (if w then 64 else 32)) (c.toNat % 2 ^ (if w then 64 else 32)))
  | .sigAdd b => some (sigAddVal old b)
  | .sigSet v => some v.toNat
  | .sigAbort c => some (if sigVal old < 0 then old else (BitVec.ofInt 64 (-(c : Int))).toNat)
  | .sigDec => some (sigAddVal old (-1))
  | _ => none

/-- Notify a remote waiter (R338): a packet of virtual channel 1 with the TAG of the wait's read; its OP is the model's choice (log 25, DESIGN CHOICE). -/
def sendNotice (s : State) (r : RemoteWaiter) (op : DWord) : State :=
  sendPkt s { blankPkt s r.dev r.plane with cid := op, op := 6, vc := 1, homeOp := .sigRead true, tag := BitVec.ofNat 16 r.tag }

/-- Notifications to those who watch a signal whose word was written: barrier packets, fibres in `sigw`, other devices (R28, R184, R338, R401). They watch
its storage bytes (R248). -/
def notify (s : State) (bs : List Nat) (op : DWord) : State :=
  let hit (spa : Nat) : Bool := bs.any fun b => homeByte s spa ≤ b && b < homeByte s spa + 8
  let ps := (s.packets.filter fun p => p.watch.any hit).map fun p => Notif.packet p.id op
  let fs := s.fibres.filterMap fun f =>
    match f.status with
    | .waitSig w => if w.dev.isNone && hit w.spa then some (Notif.fibre f.id op) else none
    | _ => none
  (s.remoteWaiters.filter fun r => hit r.off).foldl (fun s r => sendNotice s r op)
    { s with notifs := s.notifs ++ ps ++ fs, remoteWaiters := s.remoteWaiters.filter fun r => !hit r.off }

/-- A device write to lines of the coherent window that the host caches sends back-invalidations (R263). -/
def hostStale (s : State) (bs : List Nat) : State :=
  if s.hostLines.isEmpty then s else { s with hostLines := mapIf (fun h => bs.any (· / 64 == h.line)) (fun h => { h with inval := true }) s.hostLines }

/-- Every back-invalidation on its way completes: a release at `.host` waits for that (R263). -/
def hostSettle (s : State) : State := if s.hostLines.isEmpty then s else { s with hostLines := s.hostLines.filter (!·.inval) }

/-- A write or an atomic that is a release at `.host`. -/
def Access.hostRelease (a : Access) : Bool := isRelease a.order && a.scope == 7

/-- A write applied at its home: bytes, stamp, notifications (R249, R251). Answers the new stamp. -/
def applyWrite (s : State) (die : Nat) (bs : List Nat) (data : List (Nat × Byte)) (st : Stamp) (op : DWord) : Stamp × State :=
  let touched := data.map fun p => bs.getD p.1 0
  let r := stampWrite (hostStale ((writeStorage s bs data).heal touched) touched) die touched st
  (r.1, notify r.2 touched op)

/-- The armings on a line of storage of the fibres of a core (R187). -/
def armsAt (s : State) (core line : Nat) : List Nat :=
  s.fibres.filterMap fun f => match f.status with
    | .waitWake w => if w.line == line && s.fibreCore f == core then some w.arm else none
    | _ => none

/-- The cores registered for a line get a wake (R137, R187, R363): it releases what is armed there when the write is applied. -/
def sendWakes (s : State) (line : Nat) (op : DWord) : State :=
  (s.registrations.filter (·.1 == line)).foldl
    (fun s r => { (fresh s).2 with wakes := s.wakes ++ [⟨(fresh s).1, r.2, line, op, some (armsAt s r.2 line)⟩] }) s

/-- The wakes of a wake write to some bytes of storage. -/
def wakeBytes (s : State) (bs : List Nat) (op : DWord) : State :=
  (distinct (bs.map (· / 64))).foldl (fun s l => sendWakes s l op) s

/-- SIG_WRITE of a signal's home (R311). -/
def sigRecord (s : State) (off : Nat) (op : DWord) (arg vf : Nat) : State := emit s (s.homeSrc off) 0x0701 op op arg vf

/-- Set the answer of an access. -/
def setResp (s : State) (ref : Nat) (r : Resp) : State :=
  { s with accesses := mapIf (·.ref == ref) (fun a => { a with resp := r }) s.accesses }

/-- An access leaves the state. -/
def dropAccess (s : State) (ref : Nat) : State := { s with accesses := s.accesses.filter (·.ref != ref) }

/-- Whether an access is still to be performed: turned back and refused ones are sent again (R132, R247). -/
def Access.waits (a : Access) : Bool :=
  match a.resp with
  | .ok _ _ _ => false
  | .err _ => false
  | _ => true

/-- Whether two accesses come from one source (R235): a fibre, a fabric port, a function of the host, one operation of an engine. -/
def oneSource (a b : Access) : Bool :=
  decide (a.agent = b.agent) && (decide (a.agent ≠ .engine) || (a.opid == b.opid && a.die == b.die))

/-- The accesses of the same source made before this one. -/
def earlierAccesses (s : State) (a : Access) : List Access :=
  (s.accesses.takeWhile (·.ref != a.ref)).filter fun b => oneSource b a && !b.nc

/-- Whether two accesses have one home in this package. -/
def oneHome (s : State) (a b : Access) : Bool :=
  a.dev.isNone && b.dev.isNone && s.homeOf (a.spa % 2 ^ 49) == s.homeOf (b.spa % 2 ^ 49)

/-- Whether a value read is stale: its source knows of writes at that home beyond those applied when it was read (R252). -/
def isStale (s : State) (a : Access) (applied : List (Nat × Nat)) : Bool :=
  let h := s.homeOf (a.spa % 2 ^ 49)
  a.req.any fun c => c.2.1 == h && ((applied.find? (·.1 == c.1)).map (·.2)).getD 0 < c.2.2

/-- Whether the read of a `cpa` has its final value (R155). -/
def cpaRead (s : State) (b : Access) : Bool :=
  match b.resp with
  | .ok _ _ applied => b.dev.isSome || !isStale s b applied
  | .err _ => true
  | _ => false

/-- The order among the accesses of one fibre (R235, R250, R251, R256): requests to one home keep their order; a write comes after every
earlier access in the package; a release at `.fab` also after those to other devices; accesses to one line of another device
keep their order (R257, R329). A `cpa` reads as a load issued there does (R155). -/
def fibreOrder (s : State) (a : Access) : Bool :=
  let es := earlierAccesses s a
  match a.dev with
  | some d => es.all fun b => !(b.dev == some d && b.spa / 64 == a.spa / 64 && !b.sent) &&
      !(isRelease a.order && releaseWaits a.scope b)
  | none =>
    es.all fun b =>
      b.decodedWrite || b.dev.isSome && !(isRelease a.order && releaseWaits a.scope b) ||
      (if a.op.writes then b.cpa && cpaRead s b else !(b.waits && oneHome s a b))

/-- The order among the accesses of one fabric source, of the host or of an engine's operation: those to one home keep their order (R235, R330). -/
def portOrder (s : State) (a : Access) : Bool := (earlierAccesses s a).all fun b => !(b.waits && oneHome s a b)

/-- Whether an access may be performed now: its home is there and not held, what it needs has returned, and its source's order allows it. -/
def canPerform (s : State) (a : Access) : Bool :=
  !(a.dev.isNone && (memHeld s || s.dev.lostDies.contains (homeDie (s.homeOf (a.spa % 2 ^ 49))))) &&
  decide (a.resp = .none) && !a.sent && (a.needs.all fun r => !(s.accesses.any (·.ref == r))) &&
  (match a.agent with
   | .fibre _ => a.nc || fibreOrder s a
   | _ => portOrder s a)

/-- Whether the answer of an access may reach its source now: the answers of one home return in order (R235). -/
def answerTurn (s : State) (a : Access) : Bool :=
  a.dev.isSome || (s.accesses.takeWhile (·.ref != a.ref)).all fun b => !(oneSource b a && oneHome s a b && !b.cpa && !b.waits)

/-- Whether every earlier load and atomic of the fibre in this package has landed: what they teach it may make a later value stale (R250, R252). -/
def copyTurn (s : State) (a : Access) : Bool :=
  (earlierAccesses s a).all fun b => !(b.dev.isNone && !b.cpa && b.op.reads)

/-- Whether the value of a load may land now. -/
def landTurn (s : State) (a : Access) : Bool := a.dev.isSome || answerTurn s a && (a.nc || copyTurn s a)

/-- What a write or an atomic carries beside its own count: what its source has sent or learnt before it (R251). A write that comes from the fabric carries
nothing of its remote writer's, but for a release, which carries what its operation has written here (R255, R257) (log 130, DEDUCED). -/
def accessStamp (s : State) (a : Access) : Stamp :=
  match a.agent with
  | .fibre _ => a.req
  | .engine => stampMerge a.req (s.clockOf (.op a.opid))
  | .port _ => if isRelease a.order then s.clockOf (.op a.opid) else []
  | .host _ => []

/-- An access of a fibre enters its frontier, what its later accesses carry, and the operations it has issued since (R251, R260); one of an engine or of a
port the frontier of its operation. -/
def learn (s : State) (a : Access) (st : Stamp) : State :=
  match a.agent with
  | .fibre f =>
    let after := (s.accesses.dropWhile (·.ref != a.ref)).map (·.ref)
    let s1 := { s with accesses := mapIf (fun b => decide (b.agent = a.agent) && after.contains b.ref)
                         (fun b => { b with req := stampMerge b.req st }) s.accesses
                       clocks := mapIf (·.needs.contains a.ref) (fun c => { c with st := stampMerge c.st st }) s.clocks }
    s1.setFibre f fun g => { g with frontier := stampMerge g.frontier st }
  | .host _ => s
  | _ => if a.opid == 0 then s else s.addClock (.op a.opid) st

/-- L1 copies of a line on the storing core take the fibre's own store (R135). -/
def l1Store (s : State) (a : Access) (data : List (Nat × Byte)) : State :=
  match a.owner with
  | none => s
  | some f =>
    match s.fibre? f with
    | none => s
    | some g =>
      let up (l : L1Line) : L1Line :=
        if l.asid == a.asid && l.va == a.va.toNat / 64 then
          { l with data := data.foldl (fun d p => d.set (a.va.toNat % 64 + p.1) p.2) l.data }
        else l
      { s with cores := mapIf (·.num == s.fibreCore g) (fun c => { c with l1 := c.l1.map up }) s.cores }

/-- The width an atomic must have under a view (R138), and its storage. -/
def atomStorage (s : State) (spa n : Nat) : Except Nat (List Nat) :=
  let sel := spa / 2 ^ 49
  match storageOf s spa n with
  | .error c => .error c
  | .ok bs =>
    if sel == 1 || sel == 2 then
      match s.place (spa % 2 ^ 49) with
      | .hbm st t =>
        match s.regionAt st sel t with
        | some (r, _) => if elemBytes r == n then .ok bs else .error 0x45
        | none => .error 0x45
      | _ => .error 0x45
    else .ok bs

/-- Whether a SIG_WRITE is asked of this home by the packet an access serves (R311). -/
def portRecorded (s : State) (ref : Nat) : Bool :=
  s.served.any fun x => x.1 == ref && match x.2.homeOp with
    | .sigAdd r => r
    | .sigSet r => r
    | _ => false

/-- Whether an operation's SIG_WRITE is recorded (R311): abort writes and the updates of packets and engines always, `sig.add` and `sig.set` under
detail. -/
def sigRecorded (s : State) (a : Access) : Bool :=
  match a.op with
  | .sigAbort _ => true
  | .sigAdd _ | .sigSet _ | .sigDec =>
    (match a.agent with
     | .fibre f => ((s.fibre? f).bind s.fibreGrid |>.map (·.detail)).getD false
     | .port _ => portRecorded s a.ref
     | _ => true)
  | _ => false

/-- The abort code in a SIG_WRITE (R311). -/
def sigArg : MemOp → Nat
  | .sigAbort c => c
  | _ => 0

/-- A read-modify-write at its home (R141, R183). -/
def performRmw (s : State) (a : Access) : State :=
  let n := opSize a.op
  match (if a.sel == 3 || a.sel == 4 then Except.error 0x45 else atomStorage s a.spa n) with
  | .error c => setResp s a.ref (.err c)
  | .ok bs =>
    if eccFails s bs then setResp (eccNote s bs) a.ref (.err 0x48)
    else
      let s := eccNote s bs
      let oldBytes := bs.map s.getByte
      let old := bytesNat oldBytes
      let st := stampMerge (accessStamp s a) (stampOf s bs)
      match opNew a.op old with
      | none => setResp s a.ref (.ok oldBytes st (appliedAt s (s.homeOf (bs.getD 0 0))))
      | some new =>
        let r := applyWrite (if a.hostRelease then hostSettle s else s) a.die bs ((List.range n).zip (natBytes n new)) st a.opid
        let s1 := if sigRecorded s a then sigRecord r.2 (bs.getD 0 0) a.opid (sigArg a.op) a.vf else r.2
        if a.op.reads then
          setResp (if a.owner.isSome then s1 else learn s1 a r.1) a.ref (.ok oldBytes r.1 (appliedAt s1 (s.homeOf (bs.getD 0 0))))
        else dropAccess (learn s1 a r.1) a.ref

/-- Bytes of a view access that are performed at one moment: all of it under selectors 0 and 2, whole elements under 1, 3 and 4 (R240);
how many is a free choice (log 122, DESIGN CHOICE). -/
def viewChunk (s : State) (a : Access) (n : Nat) : Nat × State :=
  if a.sel == 1 || a.sel == 3 || a.sel == 4 then
    match s.viewAt a.sel (a.spa % 2 ^ 49) with
    | some (r, o) =>
      let e := if a.sel == 1 then elemBytes r else outBytes r
      let at_ := o + a.done
      let c := choose s ((at_ % e + (n - a.done) + e - 1) / e)
      (min (n - a.done) ((c.1 + 1) * e - at_ % e), c.2)
    | none => (n, s)
  else (n, s)

/-- A step of a decoded read (R240, R259): for some elements the codes and the scales at one moment, or one of them now and the other later (log 122, DESIGN
CHOICE). Answers the bytes it completes, what is kept of the first half, the storage bytes read. -/
def decodedStep (s : State) (a : Access) (n : Nat) (r : Region) (o : Nat) : (List Byte × Option (Bool × List Nat) × List Nat) × State :=
  let d := outBytes r
  let from_ := o + a.done
  let piece (k : Nat) : List (Nat × Nat) := (decodedElems r a.sel from_ (n - a.done)).take k
  let codes (es : List (Nat × Nat)) : List Nat := es.map fun e => elemCode s r e.1 e.2
  let scales (es : List (Nat × Nat)) : List Nat := es.map fun e => groupScale s r e.1 (e.2 / groupElems r)
  let codeAt (es : List (Nat × Nat)) : List Nat := es.flatMap fun e => codePlace r e.1 e.2
  let scaleAt (es : List (Nat × Nat)) : List Nat := es.flatMap fun e => scalePlace r e.1 e.2
  let bytes (cs ss : List Nat) : List Byte :=
    (((cs.zip ss).flatMap fun p => decodedBytes r p.1 p.2).drop (from_ % d)).take (n - a.done)
  match a.half with
  | some (true, cs) => ((bytes cs (scales (piece cs.length)), none, scaleAt (piece cs.length)), s)
  | some (false, ss) => ((bytes (codes (piece ss.length)) ss, none, codeAt (piece ss.length)), s)
  | none =>
    let c := choose s (decodedElems r a.sel from_ (n - a.done)).length
    let m := choose c.2 3
    let es := piece (c.1 + 1)
    ((if m.1 == 0 then (bytes (codes es) (scales es), none, codeAt es ++ scaleAt es)
      else if m.1 == 1 then ([], some (true, codes es), codeAt es)
      else ([], some (false, scales es), scaleAt es)), m.2)

/-- A load at its home: the elements performed now join those of before (R133, R240, R249). The counts it answers with are those of its first element
(R252). -/
def performRead (s0 : State) (a : Access) (n : Nat) : State :=
  let stor := match storageOf s0 a.spa n with | .ok bs => bs | .error _ => []
  let s := eccNote s0 stor
  match readAt s a.spa n with
  | .error c => setResp s a.ref (.err c)
  | .ok bytes =>
    let seen := a.seen.getD (appliedAt s (s.homeOf (a.spa % 2 ^ 49)))
    let x : (List Byte × Option (Bool × List Nat) × List Nat) × State :=
      match (if 3 ≤ a.sel then s.viewAt a.sel (a.spa % 2 ^ 49) else none) with
      | some (r, o) => decodedStep s a n r o
      | none => let ch := viewChunk s a n; (((bytes.drop a.done).take ch.1, none, (stor.drop a.done).take ch.1), ch.2)
    let got := a.got ++ x.1.1
    let st := stampMerge a.gotSt (stampOf s x.1.2.2)
    if got.length < n then
      x.2.setAccess a.ref fun b => { b with done := got.length, got := got, half := x.1.2.1, gotSt := st, seen := some seen }
    else setResp x.2 a.ref (.ok got st seen)

/-- A store at its home through selectors 0 to 2 (R133, R134, R137, R240). -/
def performWrite (s : State) (a : Access) (data : List (Nat × Byte)) (wake : Bool) : State :=
  let n := opSize a.op
  match storageOf s a.spa n with
  | .error c => setResp s a.ref (.err c)
  | .ok bs =>
    let ch := viewChunk s a n
    let part := data.filter fun p => a.done ≤ p.1 && p.1 < a.done + ch.1
    let r := applyWrite (if a.hostRelease then hostSettle ch.2 else ch.2) a.die bs part (accessStamp s a) a.opid
    let s0 := learn r.2 a r.1
    if a.done + ch.1 < n then s0.setAccess a.ref fun b => { b with done := a.done + ch.1 }
    else
      let s1 := dropAccess (l1Store s0 a data) a.ref
      if wake then wakeBytes s1 (data.map fun p => bs.getD p.1 0) a.opid else s1

/-- Whether two accesses are lanes of one store (R138). -/
def oneInstr (a b : Access) : Bool := a.ref == b.ref || a.group != 0 && a.group == b.group

/-- The decoded stores of one instruction to one region (R138): their bytes by offset in the view. -/
def decodedGroup (s : State) (a : Access) : List Access :=
  s.accesses.filter fun b => b.decodedWrite && oneInstr b a && b.sel == a.sel

/-- The bytes a group of decoded stores writes, by physical offset, those of the highest lane first (R134). -/
def groupBytes (g : List Access) : List (Nat × Byte) :=
  g.foldl (fun l b => match b.op with
    | .write d _ => (d.map fun p => (b.spa % 2 ^ 49 + p.1, p.2)) ++ l
    | _ => l) []

/-- The (row, block) pairs that decoded bytes touch. -/
def touchedBlocks (r : Region) (sel : Nat) (offs : List Nat) : List (Nat × Nat) :=
  distinct (offs.map fun o =>
    let e := decodedElem r sel ((o - (r.stack * 2 ^ 36 + r.base)) / outBytes r)
    (e.1, e.2 / groupElems r))

/-- The offset in the view of element `k` of a row (R239). -/
def decodedOffset (r : Region) (sel row k : Nat) : Nat :=
  r.stack * 2 ^ 36 + r.base + (if sel == 3 then row * rowElems r + k else k * r.rows + row) * outBytes r

/-- The bytes of a block's whole decoded extent, or none where one is missing (R138). -/
def blockData (r : Region) (sel : Nat) (bytes : List (Nat × Byte)) (blk : Nat × Nat) : Option (List FVal) :=
  ((List.range (groupElems r)).mapM fun i =>
    ((List.range (outBytes r)).mapM fun j =>
      (bytes.find? (·.1 == decodedOffset r sel blk.1 (blk.2 * groupElems r + i) + j)).map (·.2)).map (outValue r))

/-- Write the codes, or the scale, of a block (R240: first the codes, then the scale). -/
def writeBlock (s : State) (r : Region) (blk : Nat × Nat) (vs : List FVal) (scale : Bool) : State :=
  let c := encodeBlock r.fmt vs
  if scale then s.putBytes (scaleByte r blk.1 blk.2) (natBytes (scaleSize r) c.2)
  else ((List.range (groupElems r)).zip c.1).foldl (fun s p => putCode s r blk.1 (blk.2 * groupElems r + p.1) p.2) s

/-- The storage bytes of a block: its codes and its scale. -/
def blockBytes (r : Region) (blk : Nat × Nat) : List Nat :=
  distinct ((List.range (groupElems r)).flatMap fun i => codePlace r blk.1 (blk.2 * groupElems r + i)) ++
    scalePlace r blk.1 (blk.2 * groupElems r)

/-- A lane's write to a region is complete: its later `vfence` brings the storage into the causal order (R259), a wake write wakes (R137), the core's L1
copy takes what stands there now (R135). -/
def endDecoded (s : State) (r : Region) (b : Access) : State :=
  let blks := touchedBlocks r b.sel ((groupBytes [b]).map (·.1))
  let bs := blks.flatMap (blockBytes r)
  let s1 := match b.owner with
    | some f => s.setFibre f fun g => { g with unfenced := g.unfenced ++ bs.filter fun x => !g.unfenced.contains x }
    | none => s
  let s2 := match readAt s1 b.spa (opSize b.op) with
    | .ok now => l1Store s1 b ((List.range now.length).zip now)
    | .error _ => s1
  let s3 := dropAccess s2 b.ref
  match b.op with
  | .write _ true => wakeBytes s3 bs b.opid
  | _ => s3

/-- A decoded write of one instruction is performed: a block not wholly covered is refused with VIEW_OP in every lane that writes into it
(R138); of the others the codes are applied first, at a later moment the scales (R240). The bytes of all its lanes count together: while one of them is
to be sent again, the others wait for it (R132, R138). -/
def performDecoded (s : State) (a : Access) : State :=
  match s.viewAt a.sel (a.spa % 2 ^ 49), storageOf s a.spa (opSize a.op) with
  | some (r, _), .ok _ =>
    let all := s.accesses.filter fun b => oneInstr b a
    let old := (decodedGroup s a).filter fun b => b.gen != s.gen b.asid && decide (b.resp = .none)
    if !old.isEmpty then old.foldl (fun s b => setResp s b.ref .stale) s
    else if all.any fun b => b.waits && decide (b.resp ≠ .none) then s
    else
      let g := (decodedGroup s a).filter fun b => decide (b.resp = .none) && ((s.viewAt b.sel (b.spa % 2 ^ 49)).map (·.1)) == some r
      let bytes := groupBytes g
      let blks := touchedBlocks r a.sel (bytes.map (·.1))
      let whole := blks.filterMap fun b => (blockData r a.sel bytes b).map fun vs => (b, vs)
      let good := whole.map (·.1)
      let s1 := notify (whole.foldl (fun s b => writeBlock s r b.1 b.2 (a.done == 1)) s)
        (good.flatMap fun b => if a.done == 1 then scalePlace r b.1 (b.2 * groupElems r)
          else (List.range (groupElems r)).flatMap fun i => codePlace r b.1 (b.2 * groupElems r + i)) a.opid
      if a.done == 0 then
        g.foldl (fun s b =>
          let mine := touchedBlocks r a.sel ((groupBytes [b]).map (·.1))
          if mine.all good.contains then s.setAccess b.ref fun c => { c with done := 1 } else setResp s b.ref (.err 0x45)) s1
      else g.foldl (fun s b => endDecoded s r b) s1
  | none, _ => setResp s a.ref (.err 0x45)
  | _, .error c => setResp s a.ref (.err c)

/-- The rows of DRAM that hold an access's storage (R233, R247): stack, channel, row; a row is taken as the 32 granules with one index (log 33, DESIGN
CHOICE). -/
def rowsOf (s : State) (a : Access) : List RowThrottle :=
  match storageOf s a.spa (opSize a.op) with
  | .error _ => []
  | .ok bs => distinct (bs.filterMap fun b => match s.place b with
    | .hbm st t => some ⟨st, s.channelNow st t, t / 1024 / 32⟩
    | _ => none)

/-- Whether a row an access needs is throttled (R247). -/
def isThrottled (s : State) (a : Access) : Bool := (rowsOf s a).any s.throttled.contains

/-- Storage of an access, none where it is answered with an error. -/
def accessStorage (s : State) (a : Access) : List Nat :=
  match storageOf s a.spa (opSize a.op) with
  | .ok bs => bs
  | .error _ => []

/-- A request for a throttled row waits in the side buffer of its channel, 64 entries; with the buffer full it is refused with a retry response (R247). -/
def throttle (s : State) (a : Access) : State :=
  match (rowsOf s a).find? s.throttled.contains with
  | none => s
  | some r =>
    let t := memCount s ((accessStorage s a).take 1) a.vf 0x42
    if (s.sideBuf.filter fun x => x.2.1 == r.stack && x.2.2 == r.channel && s.accesses.any (·.ref == x.1)).length < 64 then
      { t with sideBuf := t.sideBuf ++ [(a.ref, r.stack, r.channel)] }
    else setResp t a.ref .retry

/-- The activations of an access's rows are counted, and a row whose count reaches the threshold is throttled (R247). -/
def noteRow (s : State) (a : Access) : State :=
  (rowsOf s a).foldl
    (fun s r =>
      let n := ((s.rowActs.find? fun x => decide (x.1 = r)).map (·.2)).getD 0 + 1
      let s1 := { s with rowActs := setOr (fun x => decide (x.1 = r)) (fun x => (x.1, n)) (r, 0) s.rowActs }
      if Config.rowThreshold ≤ n && !s.throttled.contains r then { s1 with throttled := s1.throttled ++ [r] } else s1) s

/-- An access leaves its side buffer, if it is in one, and meets the stack cache (R247, R322): a hit activates no row. -/
def meetCache (s : State) (a : Access) (hit : Bool) : State :=
  let t := { s with sideBuf := s.sideBuf.filter (·.1 != a.ref) }
  let u := if a.done == 0 then cacheCount t (accessStorage t a) a.vf hit (!a.op.writes) else t
  if hit then u else noteRow u a

/-- An access is performed at its home in this package (R131, R138, R249): first its generation, then selector and view. Whether the stack cache holds its
line is a free choice (log 33, DESIGN CHOICE); a miss in a throttled row waits in the side buffer (R247). -/
def performLocal (s : State) (a : Access) : State :=
  if a.gen != s.gen a.asid then setResp s a.ref .stale
  else
    let c := choose s 2
    if c.1 == 1 && isThrottled s a && !s.sideBuf.any (·.1 == a.ref) then throttle c.2 a
    else
      let t := meetCache c.2 a (c.1 == 0)
      match a.op with
      | .read n => performRead t a n
      | .write d wake => if a.decodedWrite then performDecoded t a else performWrite t a d wake
      | _ => performRmw t a

/-! ### Landing -/

/-- A value as register words, sign-extended from `sext` bits where asked (R133). -/
def landWords (d : Dest) (val : List Byte) : List (Nat × Word) :=
  let v := bytesNat val
  let x : Nat := if d.sext != 0 && v.testBit (d.sext - 1) then (BitVec.ofInt 32 ((v : Int) - 2 ^ d.sext)).toNat else v
  (List.range d.words).map fun i => (d.reg + i, BitVec.ofNat 32 (x / 2 ^ (32 * i)))

/-- Whether a halted fibre owes and awaits nothing any more: its window is free (R83) and no operation of it is outstanding (R212). -/
def canReap (s : State) (f : Fibre) : Bool :=
  decide (f.status = .halted) && f.busy.isEmpty && !(s.accesses.any fun a => decide (a.agent = .fibre f.id)) &&
    !(s.owed.any (·.fibre == f.id))

/-- What a fibre that leaves has seen and done is its crew's (R250, R291). -/
def keepEnded (s : State) (f : Fibre) : State :=
  match s.fibreCrew f with
  | some c => s.addClock (.crew c.grid c.linear) f.frontier
  | none => s

/-- A halted fibre without an outstanding operation leaves the state. -/
def reap (s : State) (id : Nat) : State :=
  let s1 := (s.fibres.filter fun f => f.id == id && canReap s f).foldl keepEnded s
  { s1 with fibres := s.fibres.filter fun f => !(f.id == id && canReap s f) }

/-- Every such fibre leaves. -/
def reapAll (s : State) : State :=
  let s1 := (s.fibres.filter (canReap s)).foldl keepEnded s
  { s1 with fibres := s.fibres.filter fun f => !canReap s f }

/-- A result lands in its registers, which are no longer busy with it (R50); the `.rz` flag is written after the data (R136). -/
def landDest (s : State) (d : Dest) (ref : Nat) (val : List Byte) : State :=
  reap (s.setFibre d.fibre fun f =>
    let g := f.setRegs (landWords d val)
    let h := match d.flag with
      | some b => g.setReg 0 (g.pw &&& ~~~(BitVec.ofNat 32 (2 ^ b)))
      | none => g
    { h with busy := h.busy.filter (·.2 != ref) }) d.fibre

/-- The registers of an access that writes nothing are no longer busy (R398). -/
def unbusy (s : State) (ref : Nat) : State :=
  { s with fibres := s.fibres.map fun f => { f with busy := f.busy.filter (·.2 != ref) } }

/-- The queue times and the latency of a sampled report are free values (R321), QL1 zero where the issue does not wait at L1. -/
def sampleBytes (s : State) (x : Sample) : List Byte :=
  let q (k : Nat) : List Byte := natBytes 2 (Config.freeNat (s.free + k))
  natBytes 8 x.dtc ++ natBytes 8 x.op.toNat ++ natBytes 8 x.pc.toNat ++ natBytes 4 x.lanes ++ natBytes 2 x.sectors ++
    natBytes 1 (min x.replays 255) ++ natBytes 1 x.last ++ natBytes 2 (x.core % 1024 + x.part * 1024) ++ natBytes 2 x.vf ++
    natBytes 4 (Config.freeNat s.free) ++ ((if x.queued then q 1 else natBytes 2 0) ++ q 2 ++ q 3 ++ q 4 ++ q 5) ++ natBytes 2 x.opn ++ natBytes 12 0

/-- A report that cannot be written is counted as lost (R320): the function keeps the count until the buffer's header takes it (log 61, DESIGN
CHOICE). -/
def sampleLost (s : State) (vf : Nat) : State := s.setFn vf fun f => { f with sampleLost := f.sampleLost + 1 }

/-- The header of a sample buffer takes the lost reports that the function has counted (R320). -/
def tellLost (s : State) (vf header : Nat) : State :=
  match s.fn? vf with
  | none => s
  | some f =>
    if f.sampleLost == 0 then s
    else (s.putBytes (header + 8) (natBytes 8 (s.getNat (header + 8) 8 + f.sampleLost))).setFn vf fun f => { f with sampleLost := 0 }

/-- Write a report into the function's sample buffer, or count it as lost (R320). -/
def writeSample (s : State) (x : Sample) : State :=
  let s0 := { s with free := s.free + 6 }
  match (s.fn? x.vf).bind (·.sampleBuf) with
  | none => sampleLost s0 x.vf
  | some (va, size) =>
    match translateWalk s x.vf x.asid va.toNat .write with
    | .ok spa none =>
      let header := spa % 2 ^ 49
      let count := s.getNat header 8
      let slots := size / 64 - 1
      match translateWalk s x.vf x.asid (va.toNat + 64 + 64 * (count % slots)) .write with
      | .ok slot none => tellLost ((s0.putBytes (slot % 2 ^ 49) (sampleBytes s x)).putBytes header (natBytes 8 (count + 1))) x.vf header
      | _ => tellLost (sampleLost s0 x.vf) x.vf header
    | _ => sampleLost s0 x.vf

/-- Sampled issues whose accesses have all left are complete: their reports are written (R320), behind the step in which that happens. -/
def endSamples (s : State) : State :=
  let live (r : Nat × Nat) : Bool := s.accesses.any (·.ref == r.1)
  let step (x : Sample) : Sample :=
    { x with refs := x.refs.filter live, last := ((x.refs.filter fun r => !live r).getLast?.map (·.2)).getD x.last }
  let l := s.samples.map step
  (l.filter (·.refs.isEmpty)).foldl writeSample { s with samples := l.filter fun x => !x.refs.isEmpty }

/-- A replay of an access is counted: in its sampled report and in its core's event 5 (R321, R322). -/
def countReplay (s : State) (a : Access) : State :=
  let hit (x : Sample) : Sample := if x.refs.any (·.1 == a.ref) then { x with replays := x.replays + 1 } else x
  let t := { s with samples := s.samples.map hit }
  match a.owner.bind s.fibre? with
  | some f => perfAdd t (s.fibreCore f) 5 1
  | none => t

/-- Lines that the L1 share of a core holds at most (R228, R229). -/
def l1Lines (c : Core) : Nat := (524288 - c.boundary) / 64

/-- Fill an L1 line from its home for an `.nc` load or a prefetch (R135, R145, R229): where the share is full the oldest line goes (log 12, DESIGN CHOICE). -/
def l1Fill (s : State) (core asid va spa : Nat) : State :=
  match readAt s (spa - spa % 64) 64 with
  | .ok bs => s.setCore core fun c =>
      { c with l1 := (⟨asid, va / 64, bs⟩ :: c.l1.filter fun l => !(l.asid == asid && l.va == va / 64)).take (l1Lines c) }
  | .error _ => s

/-- A stale value is read again (R252): the replay is counted. -/
def readAgain (s : State) (a : Access) : State :=
  countReplay (s.setAccess a.ref fun b => { b.again with replays := b.replays + 1 }) a

/-- The landing of a load or atomic (R50, R252): stale values are read again; otherwise the registers take the value and the fibre's frontier the
stamp; what an `.nc` load missed is filled into L1 (R135). -/
def landAccess (s : State) (a : Access) (val : List Byte) (st : Stamp) (applied : List (Nat × Nat)) : State :=
  if !a.nc && a.dev.isNone && isStale s a applied then readAgain s a
  else
    let s0 := if a.nc && a.dev.isNone then
        (match a.owner.bind s.fibre? with
         | some f => l1Fill s (s.fibreCore f) a.asid a.va.toNat a.spa
         | none => s)
      else s
    let s1 := if a.nc then s0 else learn s0 a st
    let s2 := dropAccess s1 a.ref
    match a.dest with
    | some d => landDest s2 d a.ref val
    | none => s2

/-- The clock of an operation a fibre issues, before it starts: what the fibre has seen, and will have seen of its accesses in flight, which the operation
comes after (R260). -/
def issueClock (s : State) (f : Fibre) (id : Nat) : State :=
  let refs := (s.accesses.filter fun a => decide (a.agent = .fibre f.id) && !a.nc && !a.cpa && a.dev.isNone && !a.decodedWrite).map (·.ref)
  { s with clocks := s.clocks ++ [⟨.work id, s.frontierOf f.id, refs⟩] }

/-- What an operation must still come after (R260). -/
def clockNeeds (s : State) (id : Nat) : List Nat :=
  match s.clocks.find? fun c => decide (c.key = .work id) with
  | some c => c.needs.filter fun r => s.accesses.any (·.ref == r)
  | none => []

/-- An operation starts under its identifier: its clock begins with what its issuer had seen, and `more`. -/
def startClock (s : State) (id : Nat) (op : DWord) (more : Stamp) : State :=
  ({ s with clocks := mapIf (fun c => decide (c.key = ClockKey.work id)) (fun c => { c with key := .op op }) s.clocks }).addClock (.op op) more

/-- An engine reads bytes: its operation has seen their writes (R251). -/
def readClock (s : State) (op : DWord) (spa n : Nat) : State :=
  match storageOf s spa n with
  | .ok bs => if op == 0 then s else s.addClock (.op op) (stampOf s bs)
  | .error _ => s

/-- The error park of R398 and R156: the lane parks at its next boundary; a lane that waits or is parked does so when it goes on; for a halted
fibre the record is written and the grid is to be killed. `pc` is the record's PC where the rule names another than the boundary, at which a resume
goes on (log 52, DEDUCED). -/
def deferPark (s : State) (id code : Nat) (arg : DWord) (aux : Nat) (pc : Option DWord) : State :=
  match s.fibre? id with
  | none => s
  | some f =>
    if f.status.isReady then park s id ⟨code, pc.getD f.pc, f.pc, arg, aux, false⟩
    else if f.status = .halted then
      let m := mint s (coreDie (s.fibreCore f))
      let s1 := emit m.2 (coreSrc (s.fibreCore f)) 0x0901 m.1 (s.fibreOp f) code (s.fibreVf f)
      let s2 := { s1 with lateFaults := s1.lateFaults ++ [faultRec s f ⟨code, pc.getD f.pc, f.pc, arg, aux, false⟩] }
      match s.fibreGrid f with
      | some g => s2.setGrid g.id fun g => { g with doom := some ((g.doom.getD (2, m.1))) }
      | none => s2
    else s.setFibre id fun f => { f with deferred := f.deferred ++ [⟨code, arg, aux, pc⟩] }

/-- What stands at the boundary of an issue: the first deferred error of each lane parks it (R398). -/
def boundary (s : State) : State :=
  (s.lanes.filter fun f => !f.deferred.isEmpty).foldl
    (fun s f =>
      match f.deferred with
      | d :: ds =>
        park (s.setFibre f.id fun g => { g with deferred := ds }) f.id ⟨d.code, d.pc.getD f.pc, f.pc, d.arg, d.aux, false⟩
      | [] => s) s

/-- The replay of an `ld.rz` finds its page not resident: zero, then the flag (R136). -/
def landMissing (s : State) (a : Access) (d : Dest) (b : Nat) : State :=
  (unbusy (dropAccess s a.ref) a.ref).setFibre d.fibre fun f =>
    let g := f.setRegs ((List.range d.words).map fun i => (d.reg + i, 0))
    g.setReg 0 (g.pw ||| BitVec.ofNat 32 (2 ^ b))

/-- A lane whose access has been turned back waits parked until it has been performed (R132); it leaves its cohort and its join group (R216). A lane that
already waits, or is parked or held, keeps that state. -/
def replayPark (s : State) (f : Fibre) (ref : Nat) : State :=
  let m := mint s (coreDie (s.fibreCore f))
  let s1 := emit m.2 (coreSrc (s.fibreCore f)) 0x0901 m.1 (s.fibreOp f) 0x43 (s.fibreVf f)
  let leave (s : State) : State := newJgrp (newCohort (voidCohort s f.cohort) [f.id]) [f.id]
  match f.status with
  | .ready => (leave s1).setFibre f.id fun g => { g.voidLatches with status := .replay [ref] }
  | .heldJoin => (leave s1).setFibre f.id fun g => { g.voidLatches with status := .replay [ref] }
  | .replay rs => s1.setFibre f.id fun g => { g with status := .replay (rs ++ [ref]) }
  | .parked _ => s1
  | .halted => s1
  | .heldIssue => s1
  | _ => leave s1

/-- Lanes that waited for a replay go on once their accesses have been performed. -/
def endReplays (s : State) : State :=
  let open_ (r : Nat) : Bool := s.accesses.any fun a => a.ref == r && a.waits
  { s with fibres := s.fibres.map fun f => match f.status with
      | .replay rs => if rs.any open_ then f else { f with status := .ready }
      | _ => f }

/-- The replay of an access fails a check of R131 (R132): the lane parks at the instruction, which a resume there makes again. -/
def replayFails (s : State) (a : Access) (f : Fibre) (x : Xlate) : State :=
  match x, a.dest, a.dest.bind (·.flag) with
  | .nonres, some d, some b => landMissing s a d b
  | _, _, _ =>
    let t := xlateTrap x a.pc a.va
    let wake (g : Fibre) : Fibre := match g.status with
      | .replay _ => { g with status := .ready }
      | _ => g
    deferPark ((setResp s a.ref .failed).setFibre f.id wake) f.id t.code a.va t.aux (some a.pc)

/-- The replay of a rejected access (R132): LANE_PARK, then the core translates again and sends the access again (log 52, DEDUCED). -/
def replayStale (s : State) (a : Access) : State :=
  match a.owner.bind s.fibre? with
  | none => dropAccess s a.ref
  | some f =>
    match translateWalk s a.vf a.asid a.va.toNat (if a.op.writes then .write else .read) with
    | .held => setResp (countReplay (replayPark s f a.ref) a) a.ref .held
    | .ok spa dev =>
      (countReplay (replayPark s f a.ref) a).setAccess a.ref fun b => { b.moved spa dev (s.gen a.asid) with replays := b.replays + 1 }
    | x => replayFails (replayPark s f a.ref) a f x

/-- A held access is translated again (R274): it is sent once the page has moved. -/
def releaseHeld (s : State) (a : Access) : State :=
  match a.owner.bind s.fibre? with
  | none => dropAccess s a.ref
  | some f =>
    match translateWalk s a.vf a.asid a.va.toNat .write with
    | .held => s
    | .ok spa dev => s.setAccess a.ref fun b => b.moved spa dev (s.gen a.asid)
    | x => replayFails s a f x

end Sys2Proof.Machine
end

