-- ==== Sys2Proof/Machine/Waits.lean ====
section
/-! DEFINITION. Waiting fibres: the wait table, going on behind a wait, crew barriers and group barriers, the barrier checker, and what
the end of a fibre does (spec/09 R176 to R179, R200; spec/18 R317, R318, R324; spec/04 R83). -/

namespace Sys2Proof.Machine

/-! ### The wait table -/

/-- The lowest free slot of a die's wait table, if one of the 65,536 is free (R317) (log 53, DESIGN CHOICE). -/
def freeWaitSlot (s : State) (die : Nat) : Option Nat :=
  let used := (s.waits.filter (·.die == die)).map (·.slot)
  if used.length < 65536 then (List.range (used.length + 1)).find? fun n => !used.contains n else none

/-- A wait begins: it joins the record of its crew and object, takes a free slot, or is counted as lost (R317, R318). -/
def waitRecord (s : State) (die kind owner obj member : Nat) : State :=
  let same (w : WaitRec) : Bool := w.die == die && w.kind == kind && w.owner == owner && w.obj == obj
  let grow (w : WaitRec) : WaitRec := { w with members := w.members ++ [(member, s.time.dtc)] }
  if s.waits.any same then { s with waits := mapIf same grow s.waits }
  else
    match freeWaitSlot s die with
    | some n => { s with waits := s.waits ++ [⟨n, die, kind, owner, obj, [(member, s.time.dtc)]⟩] }
    | none => { s with lostWaits := setOr (·.1 == die) (fun p => (p.1, p.2 + 1)) (die, 0) s.lostWaits }

/-- A wait of a fibre begins (KIND 1 to 5). -/
def waitBegin (s : State) (f : Fibre) (kind obj : Nat) : State :=
  waitRecord s (coreDie (s.fibreCore f)) kind f.crew obj f.id

/-- The records of a list of waiters lose those that `p` picks. -/
def waitDrop (s : State) (p : WaitRec → Nat → Bool) : State :=
  let cut (w : WaitRec) : WaitRec := { w with members := w.members.filter fun m => !p w m.1 }
  { s with waits := (s.waits.map cut).filter fun w => !w.members.isEmpty }

/-- The wait of a fibre ends (R200). -/
def waitEnd (s : State) (id : Nat) : State := waitDrop s fun w m => w.kind ≤ 5 && m == id

/-- A waiting fibre goes on at `pc`: void latches, its record removed, an acquire at `scope` where one is asked for (R178, R184). -/
def goOn (s : State) (id : Nat) (pc : DWord) (scope : Nat) : State :=
  let s1 := (waitEnd s id).setFibre id fun f => { f.voidLatches with status := .ready, pc := pc }
  if scope == 0 then s1 else setAcquire s1 id

/-- The same for a fibre that splits from its cohort (R78, R184). -/
def goOnAlone (s : State) (id : Nat) (pc : DWord) (scope : Nat) : State := newCohort (goOn s id pc scope) [id]

/-- After an instruction at which some lanes wait, those that go on split from them (R78, R214): they take a cohort for each program counter. -/
def splitReady (s : State) (ids : List Nat) : State :=
  let stay := s.fibres.any fun f => ids.contains f.id && !f.status.isReady && !f.status.isParked
  let go := (s.fibres.filter fun f => ids.contains f.id && f.status.isReady).map (·.id)
  if stay && !go.isEmpty then regroup (newCohort s go) go else regroup s go

/-! ### The barrier checker -/

/-- Write an entry into a function's check log, a ring of 256 (R324). -/
def checkLog (s : State) (vf : Nat) (e : CheckEntry) : State :=
  s.setFn vf fun f =>
    let l := f.checkLog ++ [e]
    { f with checkLog := l.drop (l.length - 256), checkCount := f.checkCount + 1 }

/-! ### Crew barriers -/

/-- Barrier `n` of a crew; it starts in phase 0 with no arrival. -/
def Crew.bar (c : Crew) (n : Nat) : CrewBar := (c.bars.find? (·.num == n)).getD ⟨n, 0, [], []⟩

/-- Change barrier `n` of a crew. -/
def Crew.setBar (c : Crew) (n : Nat) (f : CrewBar → CrewBar) : Crew :=
  { c with bars := setOr (·.num == n) f ⟨n, 0, [], []⟩ c.bars }

/-- The expected set: the fibres of the crew that have not halted (R177). -/
def State.expected (s : State) (crew : Nat) : List Fibre :=
  s.fibres.filter fun f => f.crew == crew && decide (f.status ≠ .halted)

/-- The phase in which a fibre has arrived and that it has not yet completed (R178). -/
def CrewBar.arrival (b : CrewBar) (id : Nat) : Option Nat := (b.arr.find? (·.1 == id)).map (·.2)

/-- What the arrivals of a phase have seen (R255). -/
def CrewBar.stamp (b : CrewBar) (phase : Nat) : Stamp := ((b.sts.find? (·.1 == phase)).map (·.2)).getD []

/-- The arrival of a fibre in the barrier's phase (R177), a release of what it has seen (R254). -/
def barArrive (s : State) (crew n id : Nat) : State :=
  let st := s.frontierOf id
  s.setCrew crew fun c => c.setBar n fun b =>
    { b with arr := b.arr ++ [(id, b.phase)], sts := setOr (·.1 == b.phase) (fun x => (x.1, stampMerge x.2 st)) (b.phase, []) b.sts }

/-- A fibre has completed the phase it had arrived in, an acquire (R254, R255). -/
def barLeave (s : State) (crew n id : Nat) : State :=
  let b := ((s.crew? crew).map fun c => c.bar n).getD ⟨n, 0, [], []⟩
  (s.setCrew crew fun c => c.setBar n fun b =>
    let left := b.arr.filter (·.1 != id)
    { b with arr := left, sts := b.sts.filter fun x => x.1 == b.phase || left.any (·.2 == x.1) }).teach id
      (match b.arrival id with | some p => b.stamp p | none => [])

/-- Whether a fibre waits at barrier `n`. -/
def Fibre.waitsBar (f : Fibre) (n : Nat) : Bool := decide (f.status = .waitBar n)

/-- The completion of a barrier's phase (R177): when every fibre expected has arrived in it, the waiting ones acquire at `.crew` and go on
together. -/
def barEval (s : State) (crew n : Nat) : State :=
  match s.crew? crew with
  | none => s
  | some c =>
    let b := c.bar n
    let ex := s.expected crew
    if !ex.isEmpty && ex.all fun f => b.arrival f.id == some b.phase then
      let s1 := s.setCrew crew fun c => c.setBar n fun b => { b with phase := b.phase + 1 }
      (ex.filter (·.waitsBar n)).foldl (fun s f => barLeave (goOn s f.id (f.pc + 4) 1) crew n f.id) s1
    else s

/-- Every barrier of a crew, after a fibre has left the expected set (R177). -/
def barEvalAll (s : State) (crew : Nat) : State := (List.range 16).foldl (fun s n => barEval s crew n) s

/-- The checker's entries for a fibre that halts while others wait in a phase it has not reached (R324 KIND 2). -/
def checkHalt (s : State) (f : Fibre) : State :=
  match s.fibreCrew f with
  | none => s
  | some c =>
    (List.range 16).foldl
      (fun s n =>
        let b := c.bar n
        if (s.fibres.any fun g => g.crew == c.id && g.id != f.id && g.waitsBar n && b.arrival g.id == some b.phase) &&
            b.arrival f.id != some b.phase then
          checkLog s (s.fibreVf f) ⟨2, n, f.idx, c.linear, f.pc, s.fibreOp f, s.time.dtc⟩
        else s) s

/-! ### Group barriers -/

/-- Whether a crew has arrived at a group: every fibre of its expected set is in `gbar` on it (R179). -/
def crewArrived (s : State) (crew g : Nat) : Bool := (s.expected crew).all fun f => decide (f.status = .waitGbar g)

/-- The crews of a group that are expected, as indices in the grid: those that have not retired (R179), and were not lost with a die (R221). -/
def groupLeft (s : State) (gr : Grid) (g : GroupSt) : List Nat :=
  g.crews.filter fun l =>
    !gr.retired.contains l && !gr.queued.contains l && (!gr.dieLost || s.crews.any fun c => c.grid == gr.id && c.linear == l)

/-- The completion of a group's phase (R179): when every crew not retired has arrived, the waiting fibres acquire at `.pkg` and go on. -/
def gbarEval (s : State) (grid num : Nat) : State :=
  match (s.grid? grid).bind fun gr => (gr.groups.find? (·.num == num)).map fun g => (gr, g) with
  | none => s
  | some (gr, g) =>
    let left := groupLeft s gr g
    let crews := s.crews.filter fun c => c.grid == grid && left.contains c.linear
    let waiting := s.fibres.filter fun f => decide (f.status = .waitGbar num) && crews.any (·.id == f.crew)
    if !waiting.isEmpty && left.all (fun l => crews.any (·.linear == l)) && crews.all fun c => crewArrived s c.id num then
      let st := waiting.foldl (fun st f => stampMerge st f.frontier) []
      let step (g : GroupSt) : GroupSt := { g with phase := g.phase + 1, arrived := [] }
      let s1 := s.setGrid grid fun gr => { gr with groups := mapIf (·.num == num) step gr.groups }
      waiting.foldl (fun s f => (goOn s f.id (f.pc + 4) 4).teach f.id st) s1
    else s

/-- Every group of a grid, after a fibre or a crew has left (R177, R179). -/
def gbarEvalAll (s : State) (grid : Nat) : State :=
  match s.grid? grid with
  | none => s
  | some gr => (gr.groups.map (·.num)).foldl (fun s n => gbarEval s grid n) s

/-- Both kinds of barrier of a crew. -/
def crewEval (s : State) (crew : Nat) : State :=
  match s.crew? crew with
  | none => s
  | some c => gbarEvalAll (barEvalAll s crew) c.grid

/-! ### The end of a fibre -/

/-- A fibre ends (R83): its writes to the scratchpad are the crew's, it leaves its cohort, its join group and every expected set (R80,
R177). Its window is freed once its outstanding writes have landed. -/
def endFibre (s : State) (id : Nat) : State :=
  match s.fibre? id with
  | none => s
  | some f =>
    let s1 := scrFlush (forget (waitEnd s id) id) id
    let s2 := (newJgrp (newCohort s1 [id]) [id]).setFibre id fun g => { g.voidLatches with status := .halted, deferred := [] }
    let s3 := s2.setCrew f.crew fun c => { c with bars := c.bars.map fun b => { b with arr := b.arr.filter (·.1 != id) } }
    reap (crewEval s3 f.crew) id

/-- Several fibres end, in ascending lane order. -/
def endFibres (s : State) (ids : List Nat) : State := ids.foldl endFibre s

end Sys2Proof.Machine
end

