-- ==== Sys2Proof/Machine/Control.lean ====
section
/-! DEFINITION. Meanings: branches, fork, halt, join, yield, nop, traps, breakpoints and undefined words (spec/04 R75 to R86; spec/03
R54; spec/24 R367). -/

namespace Sys2Proof.Machine

/-! ### Branches -/

/-- A target that a branch does not take (R75). -/
def badTarget (t : DWord) : Bool := t.getLsbD 0 || 2 ^ 57 ≤ t.toNat

/-- The target of an LI branch: `pc + 2 * sext(imm32)` (R75). -/
def relTarget (e : Enc) (f : Fibre) : DWord :=
  match e with
  | .li _ g => f.pc + 2 * g.imm32.signExtend 64
  | .l _ g => f.pc + 2 * g.imm16.signExtend 64
  | _ => f.pc

/-- The lanes of `exec` whose target is ill-formed. -/
def badLanes (w : Issue) (tgt : Fibre → Option DWord) : List Fibre :=
  w.exec.filter fun f => match tgt f with | some t => badTarget t | none => false

/-- A lane behind a branch: at its target, or at `next_pc`; void latches where the branch is a switch point (R46, R76). -/
def branchLane (w : Issue) (switch : Bool) (tgt : Fibre → Option DWord) (link : Fibre → Fibre) (f : Fibre) : Fibre :=
  let g := if w.ids.contains f.id then link f else f
  let h := if switch then g.voidLatches else g.shift .void
  { h with pc := if w.ids.contains f.id then (tgt f).getD (nextPc w.enc f) else nextPc w.enc f }

/-- A branch (R75 to R78): lanes with an ill-formed target park with BAD_TARGET, the others go to their targets, and the lanes are grouped
by their program counters. -/
def branch (w : Issue) (s : State) (always : Bool) (tgt : Fibre → Option DWord) (link : Fibre → Fibre) : State :=
  let bad := (badLanes w tgt).map (·.id)
  let s1 := if bad.isEmpty then s else keepLatches (w.exec.filter fun f => !bad.contains f.id) (parkAll s bad fun f => Trap.here 0x21 f.pc)
  let go := w.allIds.filter fun i => !bad.contains i
  let switch := always || w.parked || w.exec.any fun f => (tgt f).isSome
  regroup (s1.setFibres go (branchLane w switch tgt link)) go

/-- `br` (R76): every lane goes to the target. -/
def execBr (f : LIF) (s : State) : Host.Outcome State Fault Refusal :=
  issue (.br f) s fun w s => branch w s true (fun l => some (relTarget w.enc l)) id

/-- `bc.t` (R76): lanes whose `pw` bit D is 1 go to the target. -/
def execBcT (f : LIF) (s : State) : Host.Outcome State Fault Refusal :=
  issue (.bcT f) s fun w s =>
    branch w s false (fun l => if l.pw.getLsbD f.d.toNat then some (relTarget w.enc l) else none) id

/-- `bc.f` (R76): lanes whose `pw` bit D is 0 go to the target. -/
def execBcF (f : LIF) (s : State) : Host.Outcome State Fault Refusal :=
  issue (.bcF f) s fun w s =>
    branch w s false (fun l => if l.pw.getLsbD f.d.toNat then none else some (relTarget w.enc l)) id

/-- `brx` (R77): the lanes of `exec` go to the value of the pair A. -/
def execBrx (f : WF) (s : State) : Host.Outcome State Fault Refusal :=
  issue (.brx f) s fun w s => branch w s true (fun l => some (l.src64 f.a.toNat)) id

/-- `ret` (R77): as `brx`. -/
def execRet (f : WF) (s : State) : Host.Outcome State Fault Refusal :=
  issue (.ret f) s fun w s => branch w s true (fun l => some (l.src64 f.a.toNat)) id

/-- The link of `call`: `next_pc` to the pair D (R77). -/
def writeLink (e : Enc) (f : Fibre) : Fibre :=
  match dField e with
  | some d => f.setRegs [(d, lo32 (nextPc e f)), (d + 1, hi32 (nextPc e f))]
  | none => f

/-- `call` (R77). NW may be 1: the link is a result (R44; log 127, DEDUCED). -/
def execCall (f : LIF) (s : State) : Host.Outcome State Fault Refusal :=
  issue (.call f) s fun w s => branch w s true (fun l => some (relTarget w.enc l)) (writeLink w.enc)

/-! ### The issue order -/

/-- Whether the cohort's context runs (R371). -/
def ctxRuns (s : State) (f : Fibre) : Bool :=
  match s.ctx? (s.fibreAsid f) with
  | some c => decide (c.state = .running)
  | none => false

/-- The ready cohorts of a partition (R214). -/
def readyCohorts (s : State) (core part : Nat) : List Nat :=
  distinct ((s.fibres.filter fun f => f.status.isReady && f.part == part && s.fibreCore f == core && ctxRuns s f).map (·.cohort))

/-- A cohort's place in the issue order. -/
def State.turnOf (s : State) (n : Nat) : TurnWait := (s.turns.find? (·.cohort == n)).getD ⟨n, 0, []⟩

/-- Whether a cohort that has yielded must let one of these cohorts go before it (R84). -/
def yieldsTo (s : State) (ready : List Nat) (n : Nat) : Bool := (s.turnOf n).behind.any fun m => m != n && ready.contains m

/-- Put a number into a falling list. -/
def insertFalling (n : Nat) : List Nat → List Nat
  | [] => [n]
  | m :: ms => if m ≤ n then n :: m :: ms else m :: insertFalling n ms

/-- Whether a cohort may issue next (R84, R85): no change of profile pauses the cores (R392), it lets others go before it where it has yielded, and every other that is ready still issues within 256
issues of the partition, or it is itself the one that has waited longest. -/
def mayIssue (s : State) (core part num : Nat) : Bool :=
  let ready := readyCohorts s core part
  let ps := (ready.filter fun n => n != num && !yieldsTo s ready n).foldl (fun l n => insertFalling (s.turnOf n).passed l) []
  s.dev.changing.isNone && !yieldsTo s ready num &&
  (ps.all (fun p => p ≤ (s.turnOf num).passed) || (ps.zip (List.range ps.length)).all fun p => p.1 + p.2 + 1 ≤ 255)

/-- A cohort takes its turn: the others of its partition that are ready have been passed once more. -/
def noteTurn (s : State) (core part num : Nat) : State :=
  let ready := readyCohorts s core part
  let next (n : Nat) : TurnWait :=
    let x := s.turnOf n
    { x with passed := if yieldsTo s ready n then x.passed else x.passed + 1, behind := x.behind.filter (· != num) }
  let kept := s.turns.filter fun x => s.fibres.any fun f => f.cohort == x.cohort && !(f.part == part && s.fibreCore f == core)
  { s with turns := kept ++ (ready.filter (· != num)).map next }

/-! ### Duplicates of registers -/

/-- Whether a fibre holds its window: a halted one only while a write to it is outstanding (R83). -/
def Fibre.hasWindow (f : Fibre) : Bool := decide (f.status ≠ .halted) || !f.busy.isEmpty

/-- The registers that the windows and duplicates of a lane take (R224). -/
def laneUse (s : State) (core part lane : Nat) : Nat :=
  (s.fibres.filter fun f => f.part == part && f.lane == lane && s.fibreCore f == core && f.hasWindow).foldl (fun n f => n + f.ws + f.dup.length) 0

/-- Entries that a new window takes hold no duplicates any more; where in the register file a duplicate stands is not modelled: those of the lane go (R224; log 144,
DESIGN CHOICE). -/
def dropDups (s : State) (core part lane : Nat) : State :=
  let none_ (f : Fibre) : Fibre := { f with dup := [] }
  { s with fibres := mapIf (fun f => f.part == part && f.lane == lane && s.fibreCore f == core && !f.dup.isEmpty) none_ s.fibres }

/-- What a core does with the duplicates of a fibre (R224): it makes one of a register, while the lane has a free entry, or drops one, or neither: a free value. -/
def Fibre.dupChoice (s : State) (core : Nat) (f : Fibre) (n : Nat) : List (Nat × Word) :=
  let r := n / 2 % 64
  if n % 2 == 0 || f.ws ≤ r then f.dup
  else if f.dup.any (·.1 == r) then f.dup.filter (·.1 != r)
  else if f.badParity.contains r || 1024 ≤ laneUse s core f.part f.lane then f.dup
  else f.dup ++ [(r, f.reg r)]

/-- The core's choices for the lanes of an issuing cohort. -/
def dupTurn (s : State) (core num : Nat) : State :=
  let one (f : Fibre) : Fibre := { f with dup := Fibre.dupChoice s core f (Config.freeNat s.free / 2 ^ (7 * f.lane)) }
  { s with free := s.free + 1, fibres := mapIf (·.cohort == num) one s.fibres }

/-! ### Fibres begin -/

/-- The windows in use in one lane of a core's partition. -/
def windowsIn (s : State) (core part lane : Nat) : List (Nat × Nat) :=
  (s.fibres.filter fun f => f.part == part && f.lane == lane && f.hasWindow && s.fibreCore f == core).map fun f => (f.wb, f.ws)

/-- The lowest base, a multiple of 4, at which `ws` registers are free in a lane (R210). -/
def freeBase (used : List (Nat × Nat)) (ws : Nat) : Option Nat :=
  ((List.range 256).map (4 * ·)).find? fun b => b + ws ≤ 1024 && used.all fun u => b + ws ≤ u.1 || u.1 + u.2 ≤ b

/-- The lowest fibre index of a crew, at or above its starting count, that no live fibre holds (R211). -/
def freeIndex (s : State) (c : Crew) : Nat :=
  let held := (s.expected c.id).map (·.idx)
  ((List.range (held.length + 1)).map (c.nStart + ·)).find? (fun n => !held.contains n) |>.getD (c.nStart + held.length)

/-- A fibre as it begins (R82, R210): registers zero but for those given, void latches, zero tag counters. -/
def fibreAt (id crew idx part lane wb ws map : Nat) (pc : DWord) (regs : List (Nat × Word)) (handlerFor : Option Nat) : Fibre :=
  Fibre.setRegs
    { id := id, crew := crew, idx := idx, part := part, lane := lane, wb := wb, ws := ws, map := map, pc := pc,
      regs := List.replicate ws 0, badParity := [], dup := [], busy := [], b0 := .void, b1 := .void, b2 := .void,
      copies := [], jgrp := 0, cohort := 0, status := .ready, handlerFor := handlerFor, deferred := [], frontier := [],
      acqSet := [], credit := [], relScope := none, unfenced := [], scr := [] } regs

/-- One lane of `fork` (R82, R211): the new fibre's index in the crew and the state with it, or none. -/
def forkLane (w : Issue) (s : State) (f : Fibre) : Option (Fibre × State) :=
  match s.fibreCrew f with
  | none => none
  | some c =>
    match freeBase (windowsIn s c.core f.part f.lane) f.ws with
    | none => none
    | some wb =>
      let idx := freeIndex s c
      if 65536 ≤ idx then none
      else
        let n := fresh s
        let g := fibreAt n.1 c.id idx f.part f.lane wb f.ws f.map (relTarget w.enc f) [(1, f.src (aField w.enc))] none
        some ({ g with frontier := s.frontierOf f.id },
          wakeBanks (dropDups { n.2 with fibres := n.2.fibres ++ [g] } c.core f.part f.lane) c.core f.part (banksOf g (List.range f.ws)))

/-- The lanes of `fork` in ascending order: the state, the new fibres, and the index each parent receives. -/
def forkAll (w : Issue) (s : State) : List Fibre → State × List Nat × List (Nat × Nat)
  | [] => (s, [], [])
  | f :: fs =>
    match forkLane w s f with
    | none => let r := forkAll w s fs; (r.1, r.2.1, (f.id, 0xFFFFFFFF) :: r.2.2)
    | some (g, s1) => let r := forkAll w s1 fs; (r.1, g.id :: r.2.1, (f.id, g.idx) :: r.2.2)

/-- `fork` (R82): a new fibre for each lane of `exec` that has a free window; they begin as one cohort and one join group. -/
def execFork (f : LF) (s : State) : Host.Outcome State Fault Refusal :=
  issue (.fork f) s fun w s =>
    let good := byLane (w.exec.filter fun l => !badTarget (relTarget w.enc l))
    let bad := (w.exec.filter fun l => badTarget (relTarget w.enc l)).map (·.id)
    let r := forkAll w s good
    let s1 := if r.2.1.isEmpty then r.1 else newJgrp (newCohort r.1 r.2.1) r.2.1
    let s2 := parkAll s1 bad fun l => Trap.here 0x21 l.pc
    let v : Issue := { w with exec := w.exec.filter fun l => !bad.contains l.id, parked := w.parked || !bad.isEmpty }
    complete v s2 fun l => out32 w.enc (BitVec.ofNat 32 (((r.2.2.find? (·.1 == l.id)).map (·.2)).getD 0xFFFFFFFF))

/-! ### Fibres end -/

/-- The verdict of a halting handler fibre for the fibre it was started for (R367) (logs 64, 81, DEDUCED). -/
def verdict (s : State) (h : Fibre) (target : Nat) : State :=
  match s.fibre? target with
  | none => s
  | some t =>
    match t.status with
    | .parked p =>
      if h.reg 1 == 1 then
        let pc := pairVal (h.reg 12) (h.reg 13)
        if pc == p.frec.pc then resumeFibre (remake s target) target p.resume
        else if badTarget pc then park s target ⟨0x21, p.frec.pc, p.frec.pc, pc, 0, false⟩
        else resumeFibre (forget s target) target pc
      else if h.reg 1 == 2 then endFibre (checkHalt s t) target
      else
        match s.fibreGrid h with
        | some g => s.setGrid g.id fun g => { g with doom := some (g.doom.getD (2, p.lp)) }
        | none => s
    | _ => s

/-- One lane of `halt` (R83): the checker looks, a handler fibre gives its verdict, the fibre ends. -/
def haltLane (s : State) (f : Fibre) : State :=
  let s1 := match f.handlerFor with
    | some t => verdict s f t
    | none => s
  endFibre (checkHalt s1 f) f.id

/-- `halt` (R83): ends the fibre of each lane of `exec`; the others go on. -/
def execHalt (f : WF) (s : State) : Host.Outcome State Fault Refusal :=
  issue (.halt f) s fun w s => (byLane w.exec).foldl haltLane (passSwitch w s)

/-! ### Joining, yielding, nothing -/

/-- `join` (R81): the cohort is held; its join group is evaluated behind every step. -/
def execJoin (s : State) : Host.Outcome State Fault Refusal :=
  issue .join s fun w s => s.setFibres w.allIds fun f => { f.voidLatches with status := .heldJoin }

/-- `yield` (R84): a switch point; the cohort goes behind every other ready one of its partition. -/
def execYield (f : WF) (s : State) : Host.Outcome State Fault Refusal :=
  issue (.yield f) s fun w s =>
    let t := passSwitch w s
    let c := s.cur.getD ⟨0, 0, 0⟩
    { t with fibres := t.fibres.filter (fun f => !w.allIds.contains f.id) ++ t.fibres.filter fun f => w.allIds.contains f.id
             turns := t.turns.filter (·.cohort != c.num) ++ [⟨c.num, 0, (readyCohorts t c.core c.part).filter (· != c.num)⟩] }

/-- `nop` (R84): the latches shift, `b0` becomes void. -/
def execNop (s : State) : Host.Outcome State Fault Refusal := issue .nop s fun w s => complete w s fun _ => LaneOut.nothing

/-- `nop` under a guard (R84): it waits for a busy `pw` that the guard reads (R50). -/
def execNopG (s : State) : Host.Outcome State Fault Refusal := issue .nopG s fun w s => complete w s fun _ => LaneOut.nothing

/-! ### Traps -/

/-- `trap` (R86): every lane parks with TRAP_USER + n; a resume continues behind it. -/
def execTrap (f : WIF) (s : State) : Host.Outcome State Fault Refusal :=
  issue (.trap f) s fun w s =>
    parkAll s w.allIds fun l => ⟨0x100 + f.imm8.toNat, l.pc, nextPc w.enc l, f.imm8.setWidth 64, 0, false⟩

/-- Whether a debugger is attached to a fibre's context (R325). -/
def debugged (s : State) (f : Fibre) : Bool := ((s.ctx? (s.fibreAsid f)).map (·.attached)).getD false

/-- `brk` (R86): under a debugger the cohort is held and the debugger is told n and the address; otherwise every lane parks with BREAK (log 63, DEDUCED). -/
def execBrk (f : WIF) (s : State) : Host.Outcome State Fault Refusal :=
  issue (.brk f) s fun w s =>
    if w.exec.any (debugged s) then
      let msg := Out.mgmt (natBytes 1 f.imm8.toNat ++ natBytes 8 ((w.exec.head?.map (·.pc.toNat)).getD 0))
      let t := s.setFibres w.allIds fun l => { l.voidLatches with status := .debugHeld, pc := nextPc w.enc l }
      { t with outbox := t.outbox ++ [msg] }
    else parkAll s w.allIds fun l => ⟨0x30, l.pc, nextPc w.enc l, f.imm8.setWidth 64, 0, false⟩

/-- A word that no instruction has (R54): every lane of `active` parks with its code. -/
def execUndefinedOpcode (code : IllCode) (s : State) : Host.Outcome State Fault Refusal := .next (ill s code)

end Sys2Proof.Machine
end

