-- ==== Sys2Proof/Machine/QueueOps.lean ====
section
/-! DEFINITION. What the engines share: memory through an engine's translation, signal updates, queues and the completion of packets (spec/01
R9 to R14; spec/02 R15 to R38). -/

namespace Sys2Proof.Machine

/-! ### Engine accesses -/

/-- Split a range at multiples of 1 KiB, so that a piece lies in one page and in or out of each view (R237, R239); `fuel` pieces at most. -/
def pageChunks (va n : Nat) : Nat → List (Nat × Nat)
  | 0 => []
  | fuel + 1 =>
    if n == 0 then []
    else
      let k := min n (1024 - va % 1024)
      (va, k) :: pageChunks (va + k) (n - k) fuel

/-- The pieces of a range. -/
def pagesOf (va n : Nat) : List (Nat × Nat) := pageChunks va n (n / 1024 + 2)

/-- Bytes of another device's memory, which this model does not hold: free values (log 10, DESIGN CHOICE). -/
def remoteBytes (s : State) (spa n : Nat) : List Byte := (List.range n).map fun i => BitVec.ofNat 8 (Config.freeNat (s.free + spa + i))

/-- Read bytes at a VA of an address space: the bytes, or the code of the first failure (log 71, DESIGN CHOICE). -/
def devRead (s : State) (vf asid : Nat) (va : DWord) (n : Nat) : Except Nat (List Byte) :=
  if 2 ^ 57 < va.toNat + n then .error 0x41
  else
    ((pagesOf va.toNat n).mapM fun (p : Nat × Nat) =>
      match translateWalk s vf asid p.1 .read with
      | .ok spa none => readAt s spa p.2
      | .ok spa (some _) => .ok (remoteBytes s spa p.2)
      | .fail c _ => .error c
      | _ => .error 0x42).map List.flatten

/-- An engine's request meets the stack cache (R322). -/
def engineMeets (s : State) (vf spa n : Nat) (reads : Bool) : State :=
  match storageOf s spa n with
  | .ok bs => cacheMeet s bs vf reads
  | .error _ => s

/-- What an operation has read at a VA enters its clock (R251). -/
def devClock (s : State) (vf asid : Nat) (va : DWord) (n : Nat) (op : DWord) : State :=
  (pagesOf va.toNat n).foldl (fun s p => match translateWalk s vf asid p.1 .read with
    | .ok spa none => readClock (engineMeets s vf spa p.2 true) op spa p.2
    | _ => s) s

/-- Read a little-endian number at a VA. -/
def devNat (s : State) (vf asid : Nat) (va : DWord) (n : Nat) : Except Nat Nat := (devRead s vf asid va n).map bytesNat

/-- The blocks that bytes written through a decoded view cover wholly, with their values; none where one they touch is not covered (R138). -/
def decodedBlocks (s : State) (spa : Nat) (bs : List Byte) : Option (Region × List ((Nat × Nat) × List FVal)) :=
  match s.viewAt (spa / 2 ^ 49) (spa % 2 ^ 49) with
  | none => none
  | some (r, _) =>
    let data := ((List.range bs.length).map (spa % 2 ^ 49 + ·)).zip bs
    ((touchedBlocks r (spa / 2 ^ 49) (data.map (·.1))).mapM fun b =>
      (blockData r (spa / 2 ^ 49) data b).map fun vs => (b, vs)).map fun l => (r, l)

/-- Whether bytes at a physical address may be written by an engine, and where they are stored. Through a decoded view whole blocks may: those within one
piece of 1 KiB count together (R138, R160) (log 134, DEDUCED). -/
def writable (s : State) (spa n : Nat) : Except Nat (List Nat) :=
  match storageOf s spa n with
  | .error c => .error c
  | .ok bs =>
    if 3 ≤ spa / 2 ^ 49 && (decodedBlocks s spa (List.replicate n 0)).isNone then .error 0x45 else .ok bs

/-- Bytes that `writable` lets be written are applied at their homes with a stamp (R138, R249, R251). Answers the new stamp. -/
def applyAt (s : State) (die spa : Nat) (stor : List Nat) (bs : List Byte) (st : Stamp) (op : DWord) : Stamp × State :=
  match (if 3 ≤ spa / 2 ^ 49 then decodedBlocks s spa bs else none) with
  | some (v, l) =>
    let x := stampWrite (l.foldl (fun s b => writeBlock (writeBlock s v b.1 b.2 false) v b.1 b.2 true) s) die stor st
    (x.1, notify x.2 stor op)
  | none => applyWrite s die stor ((List.range bs.length).zip bs) st op

/-- An engine writes bytes that `writable` lets it write, as a write of its operation's clock (R249, R251). -/
def engineWrite (s : State) (die spa : Nat) (stor : List Nat) (op : DWord) (bs : List Byte) : State :=
  let r := applyAt s die spa stor bs (s.clockOf (.op op)) op
  if op == 0 then r.2 else r.2.addClock (.op op) r.1

/-- Split a range at 64-byte lines. -/
def linePieces (va : Nat) : Nat → Nat → List (Nat × Nat)
  | 0, _ => []
  | fuel + 1, n => if n == 0 then [] else (va, min n (64 - va % 64)) :: linePieces (va + min n (64 - va % 64)) fuel (n - min n (64 - va % 64))

/-- The status of R161 for a fault code. -/
def statusOf (code : Nat) : Nat :=
  if code == 0x42 then 2 else if code == 0x44 || code == 0x45 then 3 else if code == 0xA0 || code == 0xA1 then 5
  else if code == 0x47 || code == 0x48 then 7 else 1

/-- An access an engine makes to another device (R257). -/
def engineAccess (s : State) (die vf asid : Nat) (va : DWord) (spa : Nat) (dev : Option Nat) (op : MemOp) (id : DWord) : Access :=
  { ref := s.nextId, agent := .engine, pc := 0, die := die, vf := vf, asid := asid, gen := s.gen asid, va := va, spa := spa,
    dev := dev, op := op, dest := none, order := 0, scope := 0, nc := false, cpa := false, scrOff := 0, scrLen := 0, group := 0,
    needs := [], req := s.clockOf (.op id), sent := false, done := 0, got := [], half := none, gotSt := [], seen := none, resp := .none,
    replays := 0, opid := id }

/-- Write bytes of another device's memory: one request for each line (R257, R337). -/
def remoteWrite (s : State) (die vf asid va spa dev : Nat) (op : DWord) (bs : List Byte) : State :=
  (linePieces va (bs.length / 64 + 2) bs.length).foldl
    (fun s p =>
      let d := (List.range p.2).zip ((bs.drop (p.1 - va)).take p.2)
      sendAccess s (engineAccess s die vf asid (BitVec.ofNat 64 p.1) (spa + (p.1 - va)) (some dev) (.write d false) op)) s

/-- Write bytes at a VA through an engine (R249): each page's bytes are applied at their homes, or sent to their device; the first page
that cannot be written ends it. -/
def devWritePages (s : State) (vf asid die : Nat) (op : DWord) : List (Nat × Nat) → List Byte → Except Nat State
  | [], _ => .ok s
  | (va, k) :: ps, bs =>
    match translateWalk s vf asid va .write with
    | .ok spa none =>
      match writable s spa k with
      | .error c => .error c
      | .ok stor =>
        devWritePages (engineWrite (engineMeets s vf spa k false) die spa stor op (bs.take k)) vf asid die op ps (bs.drop k)
    | .ok spa (some d) => devWritePages (remoteWrite s die vf asid va spa d op (bs.take k)) vf asid die op ps (bs.drop k)
    | .fail c _ => .error c
    | _ => .error 0x42

/-- Write bytes at a VA of an address space. -/
def devWrite (s : State) (vf asid die : Nat) (op : DWord) (va : DWord) (bs : List Byte) : Except Nat State :=
  if 2 ^ 57 < va.toNat + bs.length then .error 0x41 else devWritePages s vf asid die op (pagesOf va.toNat bs.length) bs

/-- A signal update at its home (R11, R33): one atomic operation; SIG_WRITE is recorded (R311). -/
def sigAtHome (s : State) (die spa : Nat) (op : MemOp) (id : DWord) (vf : Nat) : Except Nat State :=
  match (if 3 ≤ spa / 2 ^ 49 then Except.error 0x45 else atomStorage s spa 8) with
  | .error c => .error c
  | .ok bs =>
    if eccFails s bs then .error 0x48
    else
      match opNew op (bytesNat (bs.map s.getByte)) with
      | none => .ok s
      | some new =>
        let r := applyWrite s die bs ((List.range 8).zip (natBytes 8 new)) (stampMerge (s.clockOf (.op id)) (stampOf s bs)) id
        let t := if id == 0 then r.2 else r.2.addClock (.op id) r.1
        .ok (sigRecord t (bs.getD 0 0) id (sigArg op) vf)

/-- A signal update by a packet or an engine, at a VA (R11, R161). -/
def sigUpdate (s : State) (vf asid die : Nat) (va : DWord) (op : MemOp) (id : DWord) : Except Nat State :=
  if va.toNat % 8 != 0 then .error 0x40
  else if 2 ^ 57 ≤ va.toNat then .error 0x41
  else
    match translateWalk s vf asid va.toNat .write with
    | .ok spa none => sigAtHome s die spa op id vf
    | .ok spa (some d) => .ok (sendAccess s (engineAccess s die vf asid va spa (some d) op id))
    | .fail c _ => .error c
    | _ => .error 0x42

/-! ### The fields of a packet -/

/-- A 64-bit field of a packet by its byte. -/
def Packet.u64 (p : Packet) (o : Nat) : DWord := BitVec.ofNat 64 (bytesNat ((p.bytes.drop o).take 8))
/-- A bit range of a packet (R26). -/
def Packet.bits (p : Packet) (hi lo : Nat) : Nat := natBits (bytesNat p.bytes) hi lo
def Packet.csig (p : Packet) : DWord := p.u64 56
def Packet.typ (p : Packet) : Nat := p.bits 7 0
/-- The B bit (R9, R23). -/
def Packet.bbit (p : Packet) : Bool := p.bits 8 8 == 1

/-- The acquire and the release scope (R23): 0 none, 1 package, 2 fabric, 3 host. -/
def Packet.acq (p : Packet) : Nat := p.bits 10 9
def Packet.rel (p : Packet) : Nat := p.bits 12 11
/-- A barrier packet (R28). -/
def Packet.isBarrier (p : Packet) : Bool := p.typ == 7 || p.typ == 8

/-! ### Queues -/

/-- STATE as the descriptor shows it (R15). -/
def qstateCode : QState → Nat
  | .idle => 0 | .active => 1 | .blocked => 2 | .aborted => 3 | .unmapped => 4

/-- WRIDX, which producers raise in the descriptor (R15). -/
def State.wridx (s : State) (q : Queue) : Nat := s.getNat (q.desc + 8) 8

/-- The fields of a descriptor that only the device writes, WRIDX left alone (R15, R16). -/
def writeDesc (s : State) (q : Queue) : State :=
  hostStale (((s.putBytes q.desc (natBytes 8 q.ring.toNat)).putBytes (q.desc + 16)
    (natBytes 8 q.rdidx ++ natBytes 1 q.logsz ++ natBytes 1 q.prio ++ natBytes 1 (qstateCode q.state) ++
      natBytes 1 (if q.enqOk then 1 else 0) ++ natBytes 2 q.qnum ++ natBytes 2 q.vf ++ natBytes 8 q.abort.toNat ++
      natBytes 8 q.abcid.toNat))) [q.desc]

/-- Change a queue and its descriptor. -/
def updQueue (s : State) (qn : Nat) (f : Queue → Queue) : State :=
  match s.queue? qn with
  | none => s
  | some q => writeDesc (s.setQueue qn f) (f q)

/-- VA of slot `n` of a queue (R16). -/
def slotVa (q : Queue) (n : Nat) : DWord := q.ring + BitVec.ofNat 64 (64 * (n % 2 ^ q.logsz))

/-- The header word of the slot at RDIDX (R17), or the code of the failure. -/
def headWord (s : State) (q : Queue) : Except Nat Nat := devNat s q.vf q.asid (slotVa q q.rdidx) 4

/-- Whether a read of the head slot finds something to act on: a published packet, or a slot that cannot be read (R17, R399). -/
def headFound (s : State) (q : Queue) : Bool :=
  match headWord s q with
  | .ok h => h % 256 != 0
  | .error _ => true

/-- Clusters a function holds under spatial partitioning: those that no VF holds are the PF's (R376). -/
def vfClusters (s : State) (vf : Nat) : List Nat :=
  if !s.dev.spatial then List.range 16
  else if vf == 0 then (List.range 16).filter fun k => !(s.fns.any fun f => f.vf != 0 && f.clusters.contains k)
  else ((s.fn? vf).map (·.clusters)).getD []

/-- Hardware slots of a function (R38): 128, or in proportion to its clusters, at least one. -/
def vfSlots (s : State) (vf : Nat) : Nat := if s.dev.spatial then max 1 (128 * (vfClusters s vf).length / 16) else 128

/-- A hardware slot for a queue of a function, if one is free (R34, R38): the lowest of them, which the spec leaves open (log 140, DESIGN CHOICE). -/
def freeHwSlot (s : State) (vf : Nat) : Option Nat :=
  let used := s.queues.filterMap (·.slot)
  if (s.queues.filter fun q => q.vf == vf && q.slot.isSome).length < vfSlots s vf then
    (List.range 128).find? fun n => !used.contains n && !s.dev.lostDies.contains (n / 16)
  else none

/-- A waiting queue (R34): UNMAPPED with a published packet not yet fetched, or with a barrier packet that has not completed. -/
def queueWaits (s : State) (q : Queue) : Bool :=
  decide (q.state = .unmapped) &&
  (headFound s q || s.packets.any fun p => p.queue == q.qnum && p.isBarrier)

/-- A queue's effective priority (R37): PRIO, one level higher for each 20 ms it has waited, up to 7. The wait counts from when the device knows of it
(log 141, DEDUCED). -/
def effOf (s : State) (q : Queue) : Nat :=
  if queueWaits s q && q.look then min 7 (q.prio + (s.time.dtc - q.waitSince) / usTicks 20000) else q.prio

/-- A mapped queue gives its slot up (R34); a wait begins if it has something to wait for. -/
def unmapQueue (s : State) (qn : Nat) : State :=
  let t := updQueue s qn fun q => { q with state := .unmapped, slot := none, waitSince := s.time.dtc, effPrio := q.prio }
  t.setQueue qn fun q => { q with look := queueWaits t q }

/-- A doorbell or `enq` reaches a queue (R19, R34): the device is to read its head slot; an IDLE queue whose head is found takes a free slot, or
waits UNMAPPED; an UNMAPPED queue that had nothing begins to wait (R37). -/
def queueBell (s : State) (qn : Nat) : State :=
  match s.queue? qn with
  | none => s
  | some q =>
    if q.state = .idle then
      if headFound s q then
        match freeHwSlot s q.vf with
        | some n => updQueue s qn fun q =>
            { q with state := .active, slot := some n, mappedAt := s.time.dtc, look := true, effPrio := q.prio }
        | none => updQueue s qn fun q => { q with state := .unmapped, waitSince := s.time.dtc, look := true }
      else s
    else if q.state = .unmapped then
      if !q.look && headFound s q then s.setQueue qn fun q => { q with look := true, waitSince := s.time.dtc } else s
    else s.setQueue qn fun q => { q with look := true }

/-- An ACTIVE queue with nothing left becomes IDLE and gives its slot back (R34). -/
def queueIdle (s : State) (qn : Nat) : State :=
  match s.queue? qn with
  | none => s
  | some q =>
    if decide (q.state = .active) && q.rdidx == s.wridx q && !(s.packets.any (·.queue == qn)) then
      updQueue s qn fun q => { q with state := .idle, slot := none, look := false }
    else s

/-! ### Packets -/

/-- The hardware slot on whose behalf a queue's packets are recorded; a queue without a slot counts as slot 0 (log 24, DESIGN CHOICE). -/
def queueSlot (s : State) (qn : Nat) : Nat := ((s.queue? qn).bind (·.slot)).getD 0
/-- The die of its queue unit (R352). -/
def queueDie (s : State) (qn : Nat) : Nat := queueSlot s qn / 16
/-- SRC of the queue unit on behalf of a queue (R310). -/
def queueSrc (s : State) (qn : Nat) : Nat := srcOf (queueDie s qn) 1 (queueSlot s qn)

/-- Detail is selected for a packet: its trace bit and trace level FULL (R25, R311). -/
def pktDetail (s : State) (p : Packet) : Bool := p.bits 13 13 == 1 && ((s.fn? p.vf).map (·.trace)).getD 0 == 1

/-- A packet leaves; its wait record and its clock go with it (R12, R200). -/
def dropPacket (s : State) (id : Nat) : State :=
  waitDrop { s with clocks := (match s.packet? id with | some p => s.dropClock (.op p.op) | none => s).clocks, packets := s.packets.filter (·.id != id), notifs := s.notifs.filter fun n => match n with
    | .packet p _ => p != id
    | _ => true } fun w m => w.kind == 6 && m == id

/-- A packet completes with UPSTREAM because its queue is ABORTED (R12): its CSIG is written where that can be done. -/
def upstreamPacket (s : State) (p : Packet) : State :=
  let cause := ((s.queue? p.queue).map (·.abcid)).getD 0
  let s1 := if p.csig == 0 then s else
    match sigUpdate s p.vf p.asid (queueDie s p.queue) p.csig (.sigAbort 1) p.op with
    | .ok t => t
    | .error _ => s
  emit (dropPacket s1 p.id) (queueSrc s p.queue) 0x0103 p.op cause 1 p.vf

/-- A queue becomes ABORTED by a packet (R32): the first abort stays recorded; the slot is free; its waiting barrier packets end (R12). -/
def abortQueue (s : State) (qn code index : Nat) (id : DWord) : State :=
  let s1 := updQueue s qn fun q =>
    { q with state := .aborted, slot := none, look := false,
             abort := if q.abort == 0 then BitVec.ofNat 64 (code * 2 ^ 56 + index % 2 ^ 56) else q.abort,
             abcid := if q.abort == 0 then id else q.abcid }
  (s1.packets.filter fun p => p.queue == qn && decide (p.state = .waiting)).foldl upstreamPacket s1

/-- A packet completes with abort (R32, R401); a CSIG that cannot be updated makes the outcome FAULT, of which the packet itself is the cause; a misaligned one
is not written (R31). -/
def abortPacket (s : State) (p : Packet) (code : Nat) (cause : DWord) : State :=
  let src := queueSrc s p.queue
  let r := if p.csig == 0 || p.csig.toNat % 8 != 0 then (s, code) else
    match sigUpdate s p.vf p.asid (queueDie s p.queue) p.csig (.sigAbort code) p.op with
    | .ok t => (t, code)
    | .error _ => (s, 2)
  let s1 := abortQueue (dropPacket r.1 p.id) p.queue r.2 p.index p.op
  emit s1 src 0x0103 p.op (if r.2 == code then cause else p.op) r.2 p.vf

/-- The release of a packet that completes (R24): with scope 0 its CSIG update carries nothing of its work; with another the packets behind it may acquire
what it has done, and at scope 3 the host sees it. -/
def packetRelease (s : State) (p : Packet) : State :=
  if p.rel == 0 then s.dropClock (.op p.op)
  else (if p.rel == 3 then hostSettle s else s).passClock (.op p.op) (.queue p.queue)

/-- A packet completes successfully (R24): the release, the update of CSIG, PKT_DONE. -/
def donePacket (s0 : State) (p : Packet) (cause : DWord) : State :=
  let s := packetRelease s0 p
  let r := if p.csig == 0 then some s else
    match sigUpdate s p.vf p.asid (queueDie s p.queue) p.csig .sigDec p.op with
    | .ok t => some t
    | .error _ => none
  match r with
  | none => abortPacket { s with packets := mapIf (·.id == p.id) (fun q => { q with bytes := q.bytes.take 56 ++ natBytes 8 0 }) s.packets }
      { p with bytes := p.bytes.take 56 ++ natBytes 8 0 } 2 p.op
  | some t => queueIdle (emit (dropPacket t p.id) (queueSrc s p.queue) 0x0102 p.op cause 0 p.vf) p.queue

/-- A packet completes: code 0 successfully, else with that abort code (R30). -/
def completePacket (s : State) (id code : Nat) (cause : DWord) : State :=
  match s.packet? id with
  | none => s
  | some p => if code == 0 then donePacket s p cause else abortPacket s p code cause

/-- Writes of an operation that are on their way to another device. -/
def opWrites (s : State) (op : DWord) : Bool := s.accesses.any fun a => decide (a.agent = .engine) && a.op.writes && a.opid == op

/-- A packet's work is done but perhaps for writes to another device: a release at scope 2 awaits them, and one that covers less may complete before them
(R24, R27). -/
def endPacket (s : State) (id : Nat) (op : DWord) : State :=
  match s.packet? id with
  | none => s
  | some p =>
    let c := choose s 2
    if !opWrites s op then completePacket s id 0 op
    else if p.rel == 2 || c.1 == 1 then c.2.setPacket id fun x => { x with state := .ending op }
    else completePacket c.2 id 0 op

/-- A packet hears of a write of its work at another device (R24, R161): refused, it aborts with FAULT; else it completes when it was the last. -/
def packetWrote (s : State) (op : DWord) (refused : Bool) : State :=
  match s.packets.find? fun p => decide (p.state = .ending op) with
  | none => s
  | some p => if refused then completePacket s p.id 2 p.op else if opWrites s op then s else completePacket s p.id 0 op

/-- The abort code of a copy or drain status (R161): KILLED, or FAULT for every other failure. -/
def statusAbort (status : Nat) : Nat := if status == 0 then 0 else if status == 6 then 6 else 2

end Sys2Proof.Machine
end

