-- ==== Sys2Proof/Machine/GraphOps.lean ====
section
/-! DEFINITION. What the Wheels keep of a graph: nodes, the work area, readiness, the end of a node and of the graph (spec/16 R277, R278;
spec/17 R286 to R296). -/

namespace Sys2Proof.Machine

/-! ### Graphs and nodes -/

def State.setGraph (s : State) (g : Nat) (f : Graph → Graph) : State := { s with graphs := mapIf (·.id == g) f s.graphs }

def Graph.node? (g : Graph) (n : Nat) : Option GNode := g.nodes.find? (·.idx == n)

def State.gnode? (s : State) (g n : Nat) : Option GNode := (s.graph? g).bind (Graph.node? · n)

def State.setNode (s : State) (g n : Nat) (f : GNode → GNode) : State :=
  s.setGraph g fun x => { x with nodes := mapIf (·.idx == n) f x.nodes }

/-- The lowest die of a mask. -/
def lowDie (mask : Nat) : Nat := ((List.range 8).find? fun d => mask.testBit d).getD 0

/-- The die whose Wheel owns a node (R277); the lowest remaining die adopts those of a lost one (R297). -/
def ownerDie (g : Graph) (n : GNode) : Nat :=
  if n.core == 0xFFFF || !g.dies.testBit (coreDie n.core) then lowDie g.dies else coreDie n.core

/-- SRC of the Wheel that owns a node (R310). -/
def wheelSrc (g : Graph) (n : GNode) : Nat := srcOf (ownerDie g n) 0 0

/-- A graph that still runs: its packet is there. -/
def Graph.over (g : Graph) : Bool := g.nodes.all fun n => n.state == 3 || n.state == 4

/-! ### The work area -/

/-- Write bytes of the work area; what cannot be written stays as it is (R286). -/
def workWrite (s : State) (g : Graph) (off : Nat) (bs : List Byte) : State :=
  match devWrite s g.vf g.asid (lowDie g.dies) 0 (g.work + BitVec.ofNat 64 off) bs with
  | .ok t => t
  | .error _ => s

/-- COUNT, STATE, CODE and CID of a node's entry (R286). -/
def entryHead (n : GNode) : List Byte :=
  natBytes 4 n.unmet ++ natBytes 1 n.state ++ natBytes 1 n.code ++ natBytes 2 0 ++ natBytes 8 n.op.toNat

/-- A node changes STATE: its entry takes WHEN too (R286, R287). -/
def nodeState (s : State) (g n : Nat) (f : GNode → GNode) : State :=
  let s1 := s.setNode g n f
  match s1.graph? g with
  | none => s1
  | some x =>
    match x.node? n with
    | none => s1
    | some y => workWrite s1 x (32 * n) (entryHead y ++ natBytes 8 s.time.dtc)

/-- A node's COUNT changes. -/
def nodeCount (s : State) (g n : Nat) (f : GNode → GNode) : State :=
  let s1 := s.setNode g n f
  match s1.graph? g with
  | none => s1
  | some x =>
    match x.node? n with
    | none => s1
    | some y => workWrite s1 x (32 * n) (natBytes 4 y.unmet)

/-- Where a node's crew counters lie: behind the entries, in node order (R286). -/
def counterBase (g : Graph) (n : Nat) : Nat :=
  32 * g.nodes.length + 4 * ((g.nodes.filter fun x => x.idx < n && x.ntile != 0).map (·.counters.length)).foldl (· + ·) 0

/-- Change a node's crew counters, in the work area too. -/
def setCounters (s : State) (g n : Nat) (cs : List Nat) : State :=
  let s1 := s.setNode g n fun x => { x with counters := cs }
  match s1.graph? g with
  | none => s1
  | some x => workWrite s1 x (counterBase x n) (cs.flatMap fun c => natBytes 4 c)

/-! ### Ready, done, broken -/

/-- The out-edges of a node. -/
def Graph.outEdges (g : Graph) (n : Nat) : List GEdge := g.edges.filter (·.src == n)

/-- A node becomes READY (R287): its identifier, NODE_READY, its place in the pool. -/
def nodeReady (s : State) (g n : Nat) (cause : DWord) : State :=
  match s.graph? g with
  | none => s
  | some x =>
    match x.node? n with
    | none => s
    | some y =>
      let m := mint s (ownerDie x y)
      let s1 := nodeState (fresh m.2).2 g n fun z => { z with state := 1, op := m.1, readyAt := (fresh m.2).1 }
      let s2 := s1.setGraph g fun z => { z with pool := z.pool ++ [n] }
      emit s2 (wheelSrc x y) 0x0201 m.1 cause n x.vf

/-- An edge's decrement of its consumer's COUNT (R287). -/
def edgeDown (s : State) (g : Nat) (cause : DWord) (e : GEdge) : State :=
  match s.gnode? g e.dst with
  | none => s
  | some y =>
    if y.state != 0 then s
    else
      let s1 := nodeCount s g e.dst fun z => { z with unmet := z.unmet - 1 }
      if y.unmet ≤ 1 then nodeReady s1 g e.dst cause else s1

/-- The START edges of a node whose last crew has been placed go once (R284, R287); they give no memory ordering. -/
def startEdges (s : State) (g n : Nat) : State :=
  match (s.graph? g).bind fun x => (x.node? n).map fun y => (x, y) with
  | none => s
  | some (x, y) =>
    if y.placed then s
    else ((x.outEdges n).filter (·.ek == 1)).foldl (fun s e => edgeDown s g y.op e) (s.setNode g n fun z => { z with placed := true })

/-- Node scratchpad of a graph is freed on every core (R277). -/
def freeNodeScr (s : State) (g : Nat) : State :=
  let cut (c : Core) : Core :=
    { c with nodeScr := c.nodeScr.filter (·.1 != g),
             nodeScratch := (c.nodeScr.filter (·.1 == g)).foldl (fun m r => memZero m r.2.1 r.2.2) c.nodeScratch }
  { s with cores := s.cores.map cut }

/-- What a graph's nodes have done comes before the completion of its packet (R24, R250); the frontiers kept for it go. -/
def graphClocks (s : State) (x : Graph) : State :=
  let op := ((s.packet? x.packet).map (·.op)).getD 0
  let s1 := x.nodes.foldl (fun s n => s.passClock (.node x.id n.idx) (.op op)) s
  let grids := x.nodes.filterMap (·.grid)
  { s1 with clocks := s1.clocks.filter fun c => match c.key with
      | .node g _ => g != x.id
      | .crew g _ => !grids.contains g
      | _ => true }

/-- A graph whose every node is final completes its packet (R296). -/
def graphEval (s : State) (g : Nat) : State :=
  match s.graph? g with
  | none => s
  | some x =>
    if !x.over then s
    else
      let s0 := graphClocks s x
      let s1 := freeNodeScr { s0 with graphs := s0.graphs.filter (·.id != g) } g
      match x.broken.bind (Graph.node? x ·) with
      | some b => completePacket s1 x.packet b.code b.op
      | none => completePacket s1 x.packet 0 (((s.packet? x.packet).map (·.lastOp)).getD 0)

/-- The identifier of a node that breaks: its own, or a new one where it was never ready (R278). -/
def breakId (s : State) (x : Graph) (y : GNode) : DWord × State := if y.op == 0 then mint s (ownerDie x y) else (y.op, s)

/-- One node becomes BROKEN (R287); `up` is the broken predecessor's identifier for UPSTREAM. -/
def breakOne (s : State) (g n code : Nat) (up : DWord) : State :=
  match s.graph? g with
  | none => s
  | some x =>
    match x.node? n with
    | none => s
    | some y =>
      if y.state == 3 || y.state == 4 then s
      else
        let m := breakId s x y
        let s1 := nodeState m.2 g n fun z => { z with state := 4, code := code, op := m.1 }
        let s2 := s1.setGraph g fun z =>
          { z with pool := z.pool.filter (· != n), broken := if code != 1 && z.broken.isNone then some n else z.broken }
        emit s2 (wheelSrc x y) 0x0204 m.1 (if code == 1 then up else m.1) code x.vf

/-- What the end of a broken node does to its consumers: a PENDING one breaks with UPSTREAM, one behind a TILE edge is told (R287, R293). The nodes
that break are handled in turn; edges lead to higher indices, so `fuel` nodes suffice (R285). -/
def spreadBreak (g : Nat) : Nat → List Nat → State → State
  | 0, _, s => s
  | _, [], s => s
  | fuel + 1, n :: ns, s =>
    match s.graph? g with
    | none => s
    | some x =>
      let op := ((x.node? n).map (·.op)).getD 0
      let outs := x.outEdges n
      let hit := (outs.map (·.dst)).filter fun d => ((x.node? d).map (·.state)).getD 4 == 0
      let s1 := (outs.filter (·.ek == 2)).foldl (fun s e => s.setNode g e.dst fun z =>
        { z with upBroken := true, upBy := if z.upBroken then z.upBy else op }) s
      spreadBreak g fuel (ns ++ hit) (hit.foldl (fun s d => breakOne s g d 1 op) s1)

/-- A node becomes BROKEN with a code, and everything behind it that can no longer run (R287, R296). -/
def nodeBreak (s : State) (g n code : Nat) (up : DWord) : State :=
  match s.graph? g with
  | none => s
  | some x => graphEval (spreadBreak g (x.nodes.length + 1) [n] (breakOne s g n code up)) g

/-- A node is DONE (R287): NODE_DONE, its DONE out-edges, and the packet when it was the last. -/
def nodeFinish (s : State) (g n : Nat) (cause : DWord) : State :=
  match s.graph? g with
  | none => s
  | some x =>
    match x.node? n with
    | none => s
    | some y =>
      let s1 := nodeState s g n fun z => { z with state := 3 }
      let s2 := s1.setGraph g fun z => { z with pool := z.pool.filter (· != n) }
      let s3 := emit s2 (wheelSrc x y) 0x0203 y.op (if cause == 0 then y.op else cause) n x.vf
      let s4 := s3.setPacket x.packet fun p => { p with lastOp := y.op }
      graphEval (((x.outEdges n).filter (·.ek == 0)).foldl
        (fun s e => edgeDown (s.passClock (.node g n) (.node g e.dst)) g y.op e) s4) g

/-- Every node of a graph that is not final breaks with a code, which becomes that of the packet (R297, R298). -/
def breakAll (s : State) (g code : Nat) : State :=
  match s.graph? g with
  | none => s
  | some x =>
    match (x.nodes.filter fun n => n.state ≤ 2).map (·.idx) with
    | [] => s
    | n :: ns => (n :: ns).foldl (fun s i => breakOne s g i code 0) (s.setGraph g fun z => { z with broken := some n })

/-- A part of a node's work has ended (R287): its abort code, 0 for success; `op` is the engine operation. The last part breaks the node with the code of
the first failure, or leaves it to NODE_DONE. -/
def nodePart (s : State) (g n code : Nat) (op : DWord) : State :=
  match s.gnode? g n with
  | none => s
  | some y =>
    let st := if y.status == 0 then code else y.status
    let s1 := s.setNode g n fun z => { z with pending := z.pending - 1, status := st, lastOp := op }
    if y.pending ≤ 1 && st != 0 then nodeBreak s1 g n st (if st == 1 then y.upBy else 0) else s1

/-- Whether writes of a running node's work are still on their way to another device (R277, R287, R291). -/
def nodeWrites (s : State) (y : GNode) : Bool :=
  s.accesses.any fun a => decide (a.agent = .engine) && a.op.writes && (a.opid == y.op || (y.lastOp != 0 && a.opid == y.lastOp))

/-- A write of a node's work has been refused (R277): its work ends in a fault. -/
def nodeRefused (s : State) (a : Access) : State :=
  let hit (y : GNode) : Bool := y.state == 2 && (y.op == a.opid || (y.lastOp != 0 && y.lastOp == a.opid))
  (s.graphs.flatMap fun x => (x.nodes.filter hit).map fun y => (x.id, y.idx)).foldl
    (fun s k => s.setNode k.1 k.2 fun z => { z with status := if z.status == 0 then 2 else z.status }) s

/-! ### Tiles -/

/-- The fields of a tile operand word (R292): RS, RN, CS, CN. -/
def opFields (w : Nat) : Nat × Nat × Nat × Nat := (natBits w 31 24, natBits w 23 16, natBits w 15 8, natBits w 7 0)

/-- The producer crews whose rectangles a consumer crew at (x, y) reads (R293), within a grid of `gx` by `gy` crews. -/
def tileCrews (cw pw gx gy x y : Nat) : List (Nat × Nat) :=
  let c := opFields cw
  let p := opFields pw
  if c.2.1 == 0 || c.2.2.2 == 0 || p.2.1 == 0 || p.2.2.2 == 0 then []
  else
    let r0 := x * c.1
    let c0 := y * c.2.2.1
    let xs := (List.range gx).filter fun a => r0 / p.2.1 ≤ a && a ≤ (r0 + c.2.1 - 1) / p.2.1
    let ys := (List.range gy).filter fun b => c0 / p.2.2.2 ≤ b && b ≤ (c0 + c.2.2.2 - 1) / p.2.2.2
    ys.flatMap fun b => xs.map fun a => (a, b)

/-- The grid of a kernel node that has been dispatched. -/
def State.nodeGrid (s : State) (g n : Nat) : Option Grid := ((s.gnode? g n).bind (·.grid)).bind s.grid?

/-- The shape of a producer's grid: of the grid itself, or of its image where it has none yet or none any more. -/
def nodeShape (s : State) (x : Graph) (n : Nat) : Nat × Nat :=
  match x.node? n with
  | none => (0, 0)
  | some y => match devNat s x.vf x.asid y.pay 64 with
    | .ok i => (natBits i 127 96, natBits i 159 128)
    | .error _ => (0, 0)

/-- What the producer crews that a consumer crew waited for have done comes before it (R291, R293). -/
def tileFrontier (s : State) (g n gx gy lin : Nat) : Stamp :=
  match (s.graph? g).bind fun x => (x.node? n).map fun y => (x, y) with
  | none => []
  | some (x, y) =>
    (x.edges.filter fun e => e.dst == n && e.ek == 2).foldl
      (fun st e =>
        match (x.node? e.src).bind fun p => p.grid.map fun pg => (p, pg) with
        | none => st
        | some (p, pg) =>
          let sh := match s.grid? pg with | some q => (q.gx, q.gy) | none => nodeShape s x e.src
          (tileCrews (y.ops.getD e.rop 0) (p.ops.getD e.wop 0) sh.1 sh.2 (lin % gx) (lin / gx % gy)).foldl
            (fun st c => stampMerge st (s.clockOf (.crew pg (c.1 + sh.1 * c.2)))) st) []

/-- A crew of a producer retires: the counters of the consumer crews that read its tiles go down (R293). -/
def tileDown (s : State) (g n : Nat) (pgrid : Grid) (lin : Nat) : State :=
  match s.graph? g with
  | none => s
  | some x =>
    let at_ : Nat × Nat := (lin % pgrid.gx, lin / pgrid.gx % pgrid.gy)
    ((x.outEdges n).filter (·.ek == 2)).foldl
      (fun s e =>
        match s.gnode? g e.dst, s.nodeGrid g e.dst, x.node? n with
        | some d, some cg, some p =>
          if d.counters.isEmpty then s
          else
            let down (k c : Nat) : Nat :=
              if (tileCrews (d.ops.getD e.rop 0) (p.ops.getD e.wop 0) pgrid.gx pgrid.gy (k % cg.gx) (k / cg.gx % cg.gy)).contains at_
              then c - 1 else c
            setCounters s g e.dst ((List.range d.counters.length).map fun k => down k (d.counters.getD k 0))
        | _, _, _ => s) s

/-- RETIRED of a kernel node's entry and its bitmap take a crew that retires (R283, R286). -/
def nodeRetired (s : State) (g n lin : Nat) : State :=
  match s.graph? g with
  | none => s
  | some x =>
    match x.node? n with
    | none => s
    | some y =>
      let s1 := workWrite (s.setNode g n fun z => { z with retired := z.retired + 1 }) x (32 * n + 24) (natBytes 8 (y.retired + 1))
      if y.aux == 0 then s1
      else
        let va := y.aux + BitVec.ofNat 64 (lin / 8)
        match devNat s1 x.vf x.asid va 1 with
        | .error _ => s1
        | .ok b =>
          match devWrite s1 x.vf x.asid (ownerDie x y) y.op va (natBytes 1 (b ||| 2 ^ (lin % 8))) with
          | .ok t => t
          | .error _ => s1

end Sys2Proof.Machine
end

