-- ==== Sys2Proof/Machine/GreenOps.lean ====
section
/-! DEFINITION. The greenware tables: entries, minting, messages, firing and cracking, queries (spec/21 R346 to R348; spec/22 R349 to
R359; spec/09 R193, R194). -/

namespace Sys2Proof.Machine

/-! ### Handles and entries -/

/-- The fields of a handle (R349). -/
def handleDev (h : DWord) : Nat := natBits h.toNat 63 52
def handleDie (h : DWord) : Nat := natBits h.toNat 51 48
def handleIdx (h : DWord) : Nat := natBits h.toNat 47 32
def handleGen (h : DWord) : Nat := natBits h.toNat 31 16
def handleVfb (h : DWord) : Nat := natBits h.toNat 15 8

/-- An entry as reset leaves it (R350). -/
def gwFresh (die idx : Nat) : GwEntry :=
  { die := die, idx := idx, state := 0, code := 0, vf := 0, gen := 1, ldie := 0, ldev := 0, whenDtc := 0, op := 0, queue := [],
    deps := [] }

def State.gwEntry (s : State) (die idx : Nat) : GwEntry :=
  (s.green.find? fun e => e.die == die && e.idx == idx).getD (gwFresh die idx)

def State.setGw (s : State) (die idx : Nat) (f : GwEntry → GwEntry) : State :=
  { s with green := setOr (fun e => e.die == die && e.idx == idx) f (gwFresh die idx) s.green }

/-- The handle of an entry on this device (R349). -/
def gwHandle (s : State) (e : GwEntry) : DWord :=
  BitVec.ofNat 64 (s.dev.dev * 2 ^ 52 + e.die * 2 ^ 48 + e.idx * 2 ^ 32 + e.gen * 2 ^ 16 + e.vf % 256 * 2 ^ 8)

/-- The entry a handle of this device names, while the handle is current (R349). -/
def gwCurrent (s : State) (h : DWord) : Option GwEntry :=
  let e := s.gwEntry (handleDie h) (handleIdx h)
  if h.toNat % 256 == 0 && e.gen == handleGen h && e.state != 0 then some e else none

/-- SRC of a die's greenware table (R310). -/
def gwSrc (die : Nat) : Nat := srcOf die 9 0

/-- The status word of an entry (R194). -/
def gwWord (e : GwEntry) : Word :=
  BitVec.ofNat 32 (if e.state == 2 then 1 else if e.state == 3 then 2 + 256 * e.code else 0)

/-- The answer of a table to a query by a function (R194): STALE for a value that is no handle, then for one that is not current, then FOREIGN. -/
def gwAnswer (s : State) (h : DWord) (vf : Nat) : Word :=
  if h.toNat % 256 != 0 || handleGen h == 0 then 3
  else if s.dev.lostDies.contains (handleDie h) then 0x302
  else
    match gwCurrent s h with
    | none => 3
    | some e => if handleVfb h != vf % 256 || e.vf != vf then 4 else gwWord e

/-! ### Messages -/

/-- The fields of a message in the payload of its packet (log 151, DESIGN CHOICE): kind, a flag, four numbers, an invocation. -/
def gwFields : GwMsg → Nat × Bool × Nat × Nat × Nat × Nat × Option Invocation
  | .queued d i => (0, false, d.toNat, 0, 0, 0, some i)
  | .dependant h i => (1, false, h.toNat, 0, 0, 0, some i)
  | .run i => (2, false, 0, 0, 0, 0, some i)
  | .fire h dev die op => (3, false, h.toNat, op.toNat, dev, die, none)
  | .crack h code op => (4, false, h.toNat, op.toNat, code, 0, none)
  | .query h ref vf wait src => (5, wait, h.toNat, ref, vf, src, none)
  | .answer ref w => (6, false, w.toNat, ref, 0, 0, none)
  | .busy d i dep => (7, dep, d.toNat, 0, 0, 0, some i)
  | .accepted d h => (8, false, d.toNat, h.toNat, 0, 0, none)
  | .located h dev die => (9, false, h.toNat, 0, dev, die, none)
  | .packet _ => (10, false, 0, 0, 0, 0, none)

/-- The bytes of an invocation (log 151, DESIGN CHOICE). -/
def invBytes (i : Invocation) : List Byte :=
  natBytes 8 i.handle.toNat ++ natBytes 8 i.image.toNat ++ natBytes 8 i.target.toNat ++ natBytes 8 i.argh.toNat ++ natBytes 8 i.cid.toNat ++
    natBytes 2 i.vf ++ natBytes 2 i.pkey.toNat ++ natBytes 1 (if i.tk then 1 else 0)

/-- The invocation in bytes. -/
def invOf (b : List Byte) : Invocation :=
  let f (o n : Nat) : Nat := bytesNat ((b.drop o).take n)
  { handle := BitVec.ofNat 64 (f 0 8), image := BitVec.ofNat 64 (f 8 8), tk := f 44 1 == 1, target := BitVec.ofNat 64 (f 16 8),
    argh := BitVec.ofNat 64 (f 24 8), vf := f 40 2, pkey := BitVec.ofNat 16 (f 42 2), cid := BitVec.ofNat 64 (f 32 8) }

/-- The payload of a message for a die (log 151, DESIGN CHOICE). -/
def gwPayload (die : Nat) (m : GwMsg) : List Byte :=
  let x := gwFields m
  natBytes 1 x.1 ++ natBytes 1 (if x.2.1 then 1 else 0) ++ natBytes 1 die ++ natBytes 8 x.2.2.1 ++ natBytes 8 x.2.2.2.1 ++ natBytes 8 x.2.2.2.2.1 ++
    natBytes 8 x.2.2.2.2.2.1 ++ ((x.2.2.2.2.2.2.map invBytes).getD (List.replicate 45 0))

/-- The die and the message in a payload; none: no message has this kind. -/
def gwOf (b : List Byte) : Option (Nat × GwMsg) :=
  let f (o n : Nat) : Nat := bytesNat ((b.drop o).take n)
  let w (o : Nat) : DWord := BitVec.ofNat 64 (f o 8)
  let i := invOf (b.drop 35)
  let flag := f 1 1 == 1
  let m : Option GwMsg := match f 0 1 with
    | 0 => some (.queued (w 3) i)
    | 1 => some (.dependant (w 3) i)
    | 2 => some (.run i)
    | 3 => some (.fire (w 3) (f 19 8) (f 27 8) (w 11))
    | 4 => some (.crack (w 3) (f 19 8) (w 11))
    | 5 => some (.query (w 3) (f 11 8) (f 19 8) flag (f 27 8))
    | 6 => some (.answer (f 11 8) (BitVec.ofNat 32 (f 3 8)))
    | 7 => some (.busy (w 3) i flag)
    | 8 => some (.accepted (w 3) (w 11))
    | 9 => some (.located (w 3) (f 19 8) (f 27 8))
    | _ => none
  m.map fun m => (f 2 1, m)

/-- The plane of a message to a handle: P[(INDEX + ODEV) mod 24] (R329). -/
def gwPlane (s : State) (h : DWord) : Nat := planeOf s ((handleIdx h + handleDev h) % 24)

/-- The operation a message names as its own or its cause's. -/
def gwCid : GwMsg → DWord
  | .queued _ i | .dependant _ i | .run i | .busy _ i _ => i.cid
  | .fire _ _ _ op | .crack _ _ op => op
  | _ => 0

/-- The sender of a message: its function here and that one's key; an invocation carries its own (R353). -/
def gwKey (s : State) (vf : Nat) : GwMsg → Nat × BitVec 16
  | .queued _ i | .dependant _ i | .run i => (i.vf, i.pkey)
  | _ => (vf, BitVec.ofNat 16 (((s.fn? vf).bind (·.pkey)).getD 0))

/-- The GW_MSG packet of a message (R329, R331, R332). -/
def gwPkt (s : State) (vf dev die : Nat) (h : DWord) (m : GwMsg) : FabPkt :=
  { blankPkt s dev (gwPlane s h) with
    cid := gwCid m, op := 0x20, vc := 2, pkey := (gwKey s vf m).2, svf := BitVec.ofNat 9 (gwKey s vf m).1, len := 5, payload := gwPayload die m }

/-- A function sends a message that concerns handle `h` to a die of a device: on the way inside this device, or out to another on the plane of `h`. -/
def gwSend (s : State) (vf dev die : Nat) (h : DWord) (m : GwMsg) : State :=
  if dev == s.dev.dev then { s with gwNet := s.gwNet ++ [(die, m)] } else sendPkt s (gwPkt s vf dev die h m)

/-- Send a message to the table of a handle's origin (R353). -/
def gwToOrigin (s : State) (vf : Nat) (h : DWord) (m : GwMsg) : State := gwSend s vf (handleDev h) (handleDie h) h m

/-- Crack a handle at its origin (R348): the message carries the operation to name as cause. -/
def gwCrackOwn (s : State) (vf : Nat) (h : DWord) (code : Nat) (cause : DWord) : State := gwToOrigin s vf h (.crack h code cause)

/-- Send an invocation to a handle as a message or a dependant; a table on die `die` awaits the answer (R353, R355). Behind one for the same handle that
has not been taken it waits. -/
def gwToHandle (s : State) (die : Nat) (dst : DWord) (dep : Bool) (i : Invocation) : State :=
  let behind := s.gwRetry.any fun r => r.die == die && r.dst == dst
  let r : GwRetry := ⟨s.nextId, s.time.dtc, die, dst, dep, behind, i⟩
  let s1 := { s with nextId := s.nextId + 1, gwRetry := s.gwRetry ++ [r] }
  if behind then s1 else gwToOrigin s1 i.vf dst (if dep then .dependant dst i else .queued dst i)

/-- The oldest message of a table for a handle is sent again (R355) (log 85, DESIGN CHOICE). -/
def gwResend (s : State) (die : Nat) (dst : DWord) : State :=
  match s.gwRetry.find? fun r => r.die == die && r.dst == dst with
  | none => s
  | some r =>
    let now (x : GwRetry) : GwRetry := { x with refused := false, since := s.time.dtc }
    gwToOrigin { s with gwRetry := mapIf (·.ref == r.ref) now s.gwRetry } r.inv.vf dst (if r.dep then .dependant dst r.inv else .queued dst r.inv)

/-- A message has been taken, or has failed: the next for its handle goes (R355). -/
def gwTaken (s : State) (r : GwRetry) : State :=
  let s1 := { s with gwRetry := s.gwRetry.filter (·.ref != r.ref) }
  if s1.gwRetry.any fun x => x.die == r.die && x.dst == r.dst && x.refused then gwResend s1 r.die r.dst else s1

/-- The handle whose plane an invocation takes to its target (R329, R353): the one it was addressed to, or its own. -/
def runPlane (i : Invocation) : DWord := if i.tk then i.target else i.handle

/-- Whether the message of a handle must enter a retry list that is full (R355): 4,096 refused ones of its table are before it. -/
def retryHolds (s : State) (h : DWord) : Bool :=
  match s.gwRetry.find? (·.inv.handle == h) with
  | some r => 4096 ≤ ((s.gwRetry.takeWhile (·.ref != r.ref)).filter fun x => x.die == r.die && x.refused).length
  | none => false

/-- An invocation travels on as TK directs (R353). -/
def gwRoute (s : State) (die : Nat) (i : Invocation) : State :=
  if i.tk then gwToHandle s die i.target false i
  else gwSend s i.vf (natBits i.target.toNat 11 0) (natBits i.target.toNat 15 12) (runPlane i) (.run i)

/-- Whether a device, or a die of this one, is known to be lost (R358). -/
def placeLost (s : State) (dev die : Nat) : Bool := s.dev.lostDevs.contains dev || (dev == s.dev.dev && s.dev.lostDies.contains die)

/-- A FIRED entry forwards a message to the place of its result (R354): HANDLE_FWD, and the message's own handle learns where it went (R350). -/
def gwForward (s : State) (e : GwEntry) (dev ldie : Nat) (i : Invocation) : State :=
  gwToOrigin (emit (gwSend s i.vf dev ldie (runPlane i) (.run i)) (gwSrc e.die) 0x0803 i.cid e.op e.idx e.vf) e.vf i.handle (.located i.handle dev ldie)

/-- A dependant of a FIRED entry goes on: its function's start acquires what the argument's firing released (R347). -/
def gwGoOn (s : State) (die : Nat) (i : Invocation) : State := gwRoute (s.passClock (.handle i.argh) (.handle i.handle)) die i

/-- A minted invocation leaves: first to its argument's table, where it has one (R353). -/
def gwLaunch (s : State) (die : Nat) (i : Invocation) : State :=
  if i.argh != 0 then gwToHandle s die i.argh true i else gwRoute s die i

/-! ### Minting -/

/-- Entries of a function on a die that are not FREE (R352). -/
def gwUsed (s : State) (die vf : Nat) : Nat := (s.green.filter fun e => e.die == die && e.vf == vf && e.state != 0).length

/-- The lowest-numbered FREE entry of a die (R352). -/
def gwFree (s : State) (die : Nat) : Option Nat :=
  let used := (s.green.filter fun e => e.die == die && e.state != 0).map (·.idx)
  if used.length < 65536 then (List.range (used.length + 1)).find? fun n => !used.contains n else none

/-- Mint a handle (R352): 1 QUOTA, 2 FULL, or the handle with HANDLE_MINT recorded. -/
def gwMint (s : State) (die vf : Nat) (cause : DWord) : Except Nat (DWord × State) :=
  if ((s.fn? vf).map (·.quotaGreen)).getD 4096 ≤ gwUsed s die vf then .error 1
  else
    match gwFree s die with
    | none => .error 2
    | some idx =>
      let m := mint s die
      let s1 := m.2.setGw die idx fun e =>
        { e with state := 1, code := 0, vf := vf, op := m.1, whenDtc := s.time.dtc, ldev := 0xFFF, ldie := 0xF, queue := [], deps := [] }
      let e := s1.gwEntry die idx
      .ok (gwHandle s1 e, emit s1 (gwSrc die) 0x0801 m.1 cause idx vf)

/-- The faults of an invocation record (R351). -/
def invRecordBad (n : Nat) : Bool :=
  natBits n 511 193 != 0 || natBits n 63 0 % 64 != 0 ||
  (!n.testBit 192 && (natBits n 127 80 != 0 || 8 ≤ natBits n 79 76))

/-- The origin table reads the record of a handle it has minted and starts the invocation (R351, R353). -/
def gwStart (s : State) (die : Nat) (h : DWord) (vf asid : Nat) (rec : DWord) : State :=
  match devNat s vf asid rec 64 with
  | .error _ => gwCrackOwn s vf h 2 0
  | .ok n =>
    if invRecordBad n then gwCrackOwn s vf h 7 0
    else
      let i : Invocation :=
        { handle := h, image := BitVec.ofNat 64 (natBits n 63 0), tk := n.testBit 192,
          target := BitVec.ofNat 64 (natBits n 127 64), argh := BitVec.ofNat 64 (natBits n 191 128), vf := vf,
          pkey := BitVec.ofNat 16 (((s.fn? vf).bind (·.pkey)).getD 0),
          cid := (s.gwEntry die (handleIdx h)).op }
      let s1 := if i.tk then s else s.setGw die (handleIdx h) fun e =>
        { e with ldev := natBits n 75 64, ldie := natBits n 79 76 }
      if !i.tk && placeLost s (natBits n 75 64) (natBits n 79 76) then gwCrackOwn s1 vf h 3 0 else gwLaunch s1 die i

/-! ### The final state of an entry -/

/-- Fibres of this device and queries of others that wait for a handle get their answer (R194). -/
def gwRelease (s : State) (vf : Nat) (h : DWord) (w : Word) : State :=
  let acq := if w == 1 then 6 else 0
  let ready (f : Fibre) : Bool := match f.status with
    | .waitHandle x => x.handle == h && handleDev h == s.dev.dev
    | _ => false
  let s1 := (s.fibres.filter ready).foldl
    (fun s f => match f.status with
      | .waitHandle x =>
        goOnAlone (if x.reg == 63 then s else s.setFibre f.id fun g => g.setReg x.reg w) f.id x.next acq
      | _ => s) s
  let asked := s1.gwQueries.filter fun q => q.dev.isSome && q.handle == h
  asked.foldl (fun s q => match q.dev with | some d => gwSend s vf d 0 h (.answer q.ref w) | none => s)
    { s1 with gwQueries := s1.gwQueries.filter fun q => !(q.dev.isSome && q.handle == h) }

/-- A fire reaches an UNFIRED entry (R354): its queued messages are forwarded in order, then its dependants go on. -/
def gwFire (s : State) (die idx dev ldie : Nat) (cause : DWord) : State :=
  let e := s.gwEntry die idx
  if e.state != 1 then s
  else
    let s1 := s.setGw die idx fun e =>
      { e with state := 2, ldev := dev, ldie := ldie, whenDtc := s.time.dtc, queue := [], deps := [] }
    let s2 := emit s1 (gwSrc die) 0x0802 e.op cause idx e.vf
    let s3 := e.queue.foldl (fun s i => gwForward s e dev ldie i) s2
    gwRelease (e.deps.foldl (fun s i => gwGoOn s die i) s3) e.vf (gwHandle s e) 1

/-- A crack reaches an UNFIRED entry (R348, R354, R357): it spreads to the queue and then to the dependants. -/
def gwCrack (s : State) (die idx code : Nat) (cause : DWord) : State :=
  let e := s.gwEntry die idx
  if e.state != 1 then s
  else
    let s1 := s.setGw die idx fun e => { e with state := 3, code := code, whenDtc := s.time.dtc, queue := [], deps := [] }
    let s2 := emit s1 (gwSrc die) 0x0804 e.op cause code e.vf
    gwRelease ((e.queue ++ e.deps).foldl (fun s i => gwCrackOwn s e.vf i.handle 4 e.op) s2) e.vf (gwHandle s e)
      (BitVec.ofNat 32 (2 + 256 * code))

/-- A message has been forwarded to a place: its own handle's entry has it as LDEV and LDIE (R350), and cracks where that is lost (R358). -/
def gwLocate (s : State) (h : DWord) (dev ldie : Nat) : State :=
  match gwCurrent s h with
  | some e =>
    if e.state != 1 then s
    else
      let t := s.setGw e.die e.idx fun e => { e with ldev := dev, ldie := ldie }
      if placeLost s dev ldie then gwCrack t e.die e.idx 3 0 else t
  | none => s

/-- A device, or one of its dies, is lost (R358): every UNFIRED entry whose result lies there cracks with DIE_LOST;
queries that wait at an origin there are to hear of it. -/
def gwLost (s : State) (dev : Nat) (die : Option Nat) : State :=
  let again (q : GwQuery) : GwQuery :=
    if q.dev.isNone && q.since.isNone && handleDev q.handle == dev && (die.isNone || die == some (handleDie q.handle)) then
      { q with since := some s.time.dtc }
    else q
  (s.green.filter fun e => e.state == 1 && e.ldev == dev && (die.isNone || die == some e.ldie)).foldl
    (fun s e => gwCrack s e.die e.idx 3 0) { s with gwQueries := s.gwQueries.map again }

/-- The crack code of the abort code of an invoked grid (R348, R357). -/
def crackCode (code : Nat) : Nat := if code == 1 || code == 5 then 2 else code

end Sys2Proof.Machine
end

