-- ==== Sys2Proof/Machine/Crews.lean ====
section
/-! DEFINITION. Grids and crews: the kernel descriptor and the group table, placement, retirement, the completion of a grid, handler fibres
(spec/11 R205 to R222; spec/17 R293, R294; spec/24 R365 to R367). -/

namespace Sys2Proof.Machine

/-! ### Launching a grid -/

/-- The number of crews of a KERNEL image. -/
def imageCrews (img : Nat) : Nat := natBits img 127 96 * natBits img 159 128 * natBits img 191 160

/-- The starting fibres of a crew: CREWF, or the product of the crew dimensions (R205). -/
def crewFibres (d img : Nat) : Nat :=
  if natBits d 191 184 == 0 then natBits img 47 32 * natBits img 63 48 * natBits img 79 64 else natBits d 191 184

/-- An address that is no entry point (R206). -/
def badEntryVa (a : Nat) : Bool := a % 2 == 1 || 2 ^ 57 ≤ a

/-- The checks of a kernel descriptor against R205 and R206, without the group table. -/
def descBad (d img : Nat) : Bool :=
  let ws := natBits d 183 176
  let scr := natBits d 159 128
  let l1 := natBits d 175 160
  natBits d 511 224 != 0 || natBits d 207 198 != 0 || 4 < natBits d 197 195 || 128 < natBits d 191 184 || ws < 8 || 60 < ws || ws % 4 != 0 ||
  128 < l1 || scr % 64 != 0 || badEntryVa (natBits d 63 0) || badEntryVa (natBits d 127 64) ||
  524288 < scr + natBits img 415 384 + 4096 * l1 || (natBits img 383 320 != 0 && natBits d 197 195 == 0)

/-- The limits of R26 on the body of a KERNEL packet, its header and CSIG left aside. -/
def kernelBodyBad (img : Nat) : Bool :=
  natBits img 447 416 != 0 || 524288 < natBits img 415 384 || natBits img 415 384 % 64 != 0 || natBits img 383 320 % 64 != 0 ||
  natBits img 319 256 % 8 != 0 || natBits img 255 192 % 64 != 0 || imageCrews img == 0 || natBits img 95 80 != 0 ||
  natBits img 47 32 * natBits img 63 48 * natBits img 79 64 == 0 || 128 < natBits img 47 32 * natBits img 63 48 * natBits img 79 64

/-- The header and CSIG of a KERNEL image, and its body (R283, R206). -/
def kernelImgBad (img : Nat) : Bool := natBits img 31 0 != 1 || natBits img 511 448 != 0 || kernelBodyBad img

/-- Read one entry of a group table and its list (R217, R222). -/
def readGroup (s : State) (vf asid : Nat) (tbl : DWord) (crews i : Nat) : Except Nat GroupSt :=
  match devNat s vf asid (tbl + BitVec.ofNat 64 (16 + 16 * i)) 16 with
  | .error _ => .error 2
  | .ok e =>
    let cnt := natBits e 95 64
    let lst := natBits e 63 0
    if natBits e 127 96 != 0 || cnt == 0 || crews < cnt || lst % 4 != 0 then .error 7
    else
      match devRead s vf asid (BitVec.ofNat 64 lst) (4 * cnt) with
      | .error _ => .error 2
      | .ok bs =>
        let l := (List.range cnt).map fun k => bytesNat ((bs.drop (4 * k)).take 4)
        if (l.any fun x => crews ≤ x) || (distinct l).length != cnt then .error 7 else .ok ⟨i, l, 0, []⟩

/-- Read and check a group table (R217, R222): `most` groups for one crew. -/
def readGroups (s : State) (vf asid : Nat) (tbl : DWord) (crews most : Nat) : Except Nat (List GroupSt) :=
  if tbl == 0 then .ok []
  else
    match devNat s vf asid tbl 16 with
    | .error _ => .error 2
    | .ok h =>
      let ng := natBits h 8 0
      if natBits h 127 9 != 0 || ng == 0 || 256 < ng then .error 7
      else
        match (List.range ng).mapM (readGroup s vf asid tbl crews) with
        | .error c => .error c
        | .ok gs =>
          let all := gs.flatMap (·.crews)
          if (distinct all).any fun c => most < (all.filter (· == c)).length then .error 7 else .ok gs

/-- A grid that a KERNEL image launches, or the abort code (R205, R206, R222). `cor`: co-resident by its node (R294). -/
def makeGrid (s : State) (src : WorkSrc) (op : DWord) (vf asid img dies : Nat) (retry detail cor : Bool) : Except Nat Grid :=
  match devNat s vf asid (BitVec.ofNat 64 (natBits img 255 192)) 64 with
  | .error _ => .error 2
  | .ok d =>
    if descBad d img then .error 7
    else
      match readGroups s vf asid (BitVec.ofNat 64 (natBits img 383 320)) (imageCrews img) (natBits d 197 195) with
      | .error c => .error c
      | .ok gs =>
        .ok { id := s.nextId, src := src, op := op, vf := vf, asid := asid, entry := BitVec.ofNat 64 (natBits d 63 0),
              handler := BitVec.ofNat 64 (natBits d 127 64), scratch := natBits d 159 128 + natBits img 415 384,
              l1floor := natBits d 175 160, ws := natBits d 183 176, crewf := crewFibres d img, map := natBits d 194 192,
              groupsMax := natBits d 197 195, llwait := natBits d 223 208, gx := natBits img 127 96, gy := natBits img 159 128,
              gz := natBits img 191 160, cx := natBits img 47 32, cy := natBits img 63 48, cz := natBits img 79 64,
              args := BitVec.ofNat 64 (natBits img 319 256), retry := retry, detail := detail,
              coresident := cor || !gs.isEmpty, groups := gs, dies := dies, next := 0, queued := [], retired := [], dieLost := false,
              doom := none, killed := none }

def Grid.total (g : Grid) : Nat := g.gx * g.gy * g.gz

/-! ### Placement -/

/-- Crews of a core. -/
def crewsOn (s : State) (core : Nat) : List Crew := s.crews.filter (·.core == core)

/-- Whether anything on a core belongs to its context: crews, queued engine work, node scratchpad. -/
def coreBusy (s : State) (core : Nat) : Bool :=
  !(crewsOn s core).isEmpty || !(s.core core).mxq.isEmpty || !(s.core core).nodeScr.isEmpty

/-- Whether a core is in service for an address space: one that soft errors have taken out serves its present context to the end (R368). -/
def inService (s : State) (core asid : Nat) : Bool :=
  !(s.core core).outOfService || ((s.core core).ctx == some asid && coreBusy s core)

/-- The cores a grid may use (R208, R283, R289): of its function's clusters, on its dies, of its node's cluster under LOCAL, in service. -/
def gridCores (s : State) (g : Grid) : List Nat :=
  let cl := vfClusters s g.vf
  let only : Option Nat := match g.src with
    | .node gr n => (s.gnode? gr n).bind fun y => if y.local1 then some (coreCluster y.core) else none
    | _ => none
  (List.range 192).filter fun c =>
    cl.contains (coreCluster c) && g.dies.testBit (coreDie c) && !(s.dev.lostDies.contains (coreDie c)) &&
    inService s c g.asid && (match only with | some k => coreCluster c == k | none => true)

/-- A core may take work of an address space: it is of that context, or nothing holds it (R209, R369). -/
def coreFree (s : State) (core asid : Nat) : Bool := (s.core core).ctx == some asid || !coreBusy s core

/-- The highest boundary the L1 floors of a core's crews allow (R209, R228), with one more floor in units of 4 KiB. -/
def topBoundary (s : State) (core l1 : Nat) : Nat :=
  let floors := (crewsOn s core).map fun c => ((s.grid? c.grid).map (·.l1floor)).getD 0
  (524288 - 4096 * floors.foldl max l1) / 16384 * 16384

/-- The ranges of core SRAM that are allocated. -/
def scrTaken (s : State) (core : Nat) : List (Nat × Nat) :=
  (crewsOn s core).map (fun c => (c.scrBase, c.scrSize)) ++ (s.core core).nodeScr.map (fun r => (r.2.1, r.2.2))

/-- The lowest free range of `n` bytes below `top` (R208, R228): at 0 or behind an allocated range. -/
def scrPlace (taken : List (Nat × Nat)) (top n : Nat) : Option Nat :=
  if n == 0 then some 0
  else
    let ok (b : Nat) : Bool := b + n ≤ top && taken.all fun r => b + n ≤ r.1 || r.1 + r.2 ≤ b
    let good := (0 :: taken.map fun r => r.1 + r.2).filter ok
    match good with
    | [] => none
    | b :: bs => some (bs.foldl min b)

/-- The windows of a crew that starts with `n` fibres from partition `p` on (R210): partition, lane and base of each fibre. -/
def crewWindows (s : State) (core p n ws : Nat) : Option (List (Nat × Nat × Nat)) :=
  (List.range n).mapM fun f =>
    let part := (p + f / 32) % 4
    (freeBase (windowsIn s core part (f % 32)) ws).map fun b => (part, f % 32, b)

/-- A free crew slot of a core (R208). -/
def crewSlot (s : State) (core : Nat) : Option Nat :=
  let used := (crewsOn s core).map (·.slot)
  (List.range 32).find? fun n => !used.contains n

/-- The stores of a core that passes to another context are zeroed (R231). -/
def enterCore (s : State) (core asid : Nat) : State :=
  if (s.core core).ctx == some asid then s
  else s.setCore core fun c =>
    { c with ctx := some asid, bstore := [], acc := [], eccB := [], eccAcc := [], perfCounts := List.replicate 16 0 }

/-- Scratchpad is allocated: it is zeroed, which makes its words good, and the boundary moves where it must, up for the scratchpad, down to the largest L1
floor (R209, R228, R230). -/
def takeScr (s : State) (core base n l1 : Nat) : State :=
  let need := (base + n + 16383) / 16384 * 16384
  let top := topBoundary s core l1
  s.setCore core fun c =>
    { c with boundary := max need (min c.boundary top), l1 := if c.boundary < need then [] else c.l1,
             eccScr := c.eccScr.filter fun w => !(base ≤ 8 * w && 8 * w + 8 ≤ base + n) }

/-- The starting fibres of a crew (R210). -/
def startFibres (g : Grid) (crew first : Nat) (ws : List (Nat × Nat × Nat)) : List Fibre :=
  ((List.range ws.length).zip ws).map fun w =>
    fibreAt (first + w.1) crew w.1 w.2.1 w.2.2.1 w.2.2.2 g.ws g.map g.entry [] none

/-- Each partition's starting fibres form one cohort and one join group (R210). -/
def groupParts (s : State) (fs : List Fibre) : State :=
  (List.range 4).foldl
    (fun s p =>
      let ids := (fs.filter (·.part == p)).map (·.id)
      if ids.isEmpty then s else newJgrp (newCohort s ids) ids) s

/-- Place crew `lin` of a grid on a core, its first fibre in partition `p` (R207 to R210); none where the core does not offer what it needs.
CREW_START names the crew's work as its cause (R308; log 129). -/
def placeCrew (s : State) (g : Grid) (lin core p : Nat) : Option State :=
  let p0 := if 96 < g.crewf then 0 else p % 4
  if !(gridCores s g).contains core || !coreFree s core g.asid then none
  else
    match crewSlot s core, crewWindows s core p0 g.crewf g.ws, scrPlace (scrTaken s core) (topBoundary s core g.l1floor) g.scratch with
    | some slot, some ws, some base =>
      let id := s.nextId
      let c : Crew :=
        { id := id, grid := g.id, linear := lin, core := core, slot := slot, nStart := g.crewf, scrBase := base, scrSize := g.scratch,
          scratch := [], bars := [], nextJgrp := 0 }
      let seen := stampMerge (s.clockOf (.op g.op)) (match g.src with
        | .node gr n => tileFrontier s gr n g.gx g.gy lin
        | .invoked h _ => s.clockOf (.handle h)
        | .packet _ => [])
      let fs := (startFibres g id (id + 1) ws).map fun f => { f with frontier := seen }
      let s1 := takeScr (enterCore s core g.asid) core base g.scratch g.l1floor
      let s2 := { s1 with crews := s1.crews ++ [c], fibres := s1.fibres ++ fs, nextId := id + 1 + fs.length }
      let s3 := fs.foldl (fun s f => wakeBanks (dropDups s core f.part f.lane) core f.part (banksOf f (List.range f.ws))) (groupParts s2 fs)
      some (emit s3 (coreSrc core) 0x0301 g.op g.op lin g.vf)
    | _, _, _ => none

/-- The next crew of a grid to place: first those to be placed again (R207, R213). With RETRY = 0 a lost die lets the
surviving crews retire; whether crews not yet placed are still placed is not stated: they are not (log 150, DESIGN CHOICE). -/
def Grid.nextCrew (g : Grid) : Option Nat :=
  match g.queued with
  | q :: _ => some q
  | [] => if g.next < g.total && !g.dieLost then some g.next else none

/-- A crew of a grid has been placed. -/
def Grid.placed (g : Grid) : Grid :=
  match g.queued with
  | _ :: qs => { g with queued := qs }
  | [] => { g with next := g.next + 1 }

/-- Whether a crew's tile counter lets it be placed (R293). -/
def tileOk (s : State) (g : Grid) (lin : Nat) : Bool :=
  match g.src with
  | .node gr n => (match s.gnode? gr n with
    | some y => y.counters.getD lin 0 == 0
    | none => true)
  | _ => true

/-- When the last crew of a node has been placed its START edges go (R287). -/
def afterPlace (s : State) (grid : Nat) : State :=
  match s.grid? grid with
  | none => s
  | some g =>
    match g.src, g.nextCrew with
    | .node gr n, none => startEdges s gr n
    | _, _ => s

/-- Place every crew of a co-resident grid, in order, each on the first of `cores` that takes it; `fuel` crews (R219) (log 80, DESIGN CHOICE). -/
def placeAll (cores : List Nat) (p : Nat) (grid : Nat) : Nat → State → Option State
  | 0, s => some s
  | fuel + 1, s =>
    match s.grid? grid with
    | none => none
    | some g =>
      match g.nextCrew with
      | none => some s
      | some lin =>
        let k := ceilDiv g.crewf 32
        let tries := cores.flatMap fun c =>
          let i := ((crewsOn s c).filter (·.grid == grid)).length
          (List.range 4).map fun d => (c, p + k * i + d)
        match tries.findSome? fun t => placeCrew s g lin t.1 t.2 with
        | none => none
        | some t => placeAll cores p grid fuel (t.setGrid grid Grid.placed)

/-- Crews of a grid that an empty core could hold (R208, R219). -/
def coreHolds (g : Grid) : Nat :=
  let perLane := 1024 / g.ws
  let byRegs := 4 * perLane / ceilDiv g.crewf 32
  let room := (524288 - 4096 * g.l1floor) / 16384 * 16384
  let byScr := if g.scratch == 0 then 32 else room / g.scratch
  min 32 (min byRegs byScr)

/-- Whether the cores a function holds could hold a co-resident grid even when empty (R219). -/
def couldHold (s : State) (g : Grid) : Bool := !g.coresident || g.total ≤ coreHolds g * (gridCores s g).length

/-! ### The end of grids and crews -/

/-- What started a grid hears of its end: code 0 for success (R212, R287, R348). -/
def gridReport (s0 : State) (g : Grid) (code : Nat) (cause : DWord) : State :=
  let past (k : ClockKey) : State := (s0.passClock (.ended g.op) k).dropClock (.ended g.op)
  match g.src with
  | .packet p => completePacket { past (.op g.op) with clocks := (past (.op g.op)).clocks.filter fun c => match c.key with
      | .crew x _ => x != g.id
      | _ => true } p code (if code == 0 then g.op else cause)
  | .node gr n => nodePart (past (.node gr n)) gr n code 0
  | .invoked h die =>
    let s := { past (.handle h) with gwRuns := s0.gwRuns.filter (·.1 != h) }
    if code == 0 then gwToOrigin s g.vf h (.fire h s.dev.dev die g.op)
    else gwCrackOwn s g.vf h (crackCode code) (if cause == 0 then g.op else cause)

/-- A consumer node whose tiles cannot all come, with no crew left (R293). -/
def tileStuck (s : State) (g : Grid) : Bool :=
  match g.src, g.nextCrew with
  | .node gr n, some lin => (((s.gnode? gr n).map (·.upBroken)).getD false) && !tileOk s g lin
  | _, _ => false

/-- The abort code of a grid without live crews, if it is over (R212, R213, R293, R367). -/
def gridOver (s : State) (g : Grid) : Option Nat :=
  if s.crews.any (·.grid == g.id) || s.savedCrews.any (·.grid == g.id) then none
  else
    match g.killed with
    | some c => some c
    | none =>
      if g.dieLost && !g.retry then some 3
      else if g.nextCrew.isNone then some 0
      else if tileStuck s g then some 1
      else none

/-- A grid that is over leaves and is reported (R212, R401). -/
def gridEval (s : State) (grid : Nat) : State :=
  match s.grid? grid with
  | none => s
  | some g =>
    match gridOver s g with
    | none => s
    | some code =>
      let cause := if code == 2 then ((g.doom.map (·.2)).getD 0) else 0
      gridReport { s with grids := s.grids.filter (·.id != grid) } g code cause

/-- The checker's entries for a crew that retires while members of its groups wait (R324 KIND 3); its program counter is not stated: free (log 76, DESIGN CHOICE). -/
def checkRetire (s : State) (c : Crew) (g : Grid) : State :=
  (g.groups.filter fun x => x.crews.contains c.linear).foldl
    (fun s x =>
      let waits := s.fibres.any fun f => decide (f.status = .waitGbar x.num) &&
        (match s.fibreCrew f with | some d => d.grid == g.id && x.crews.contains d.linear | none => false)
      if waits then
        let d := draw s
        checkLog d.2 g.vf ⟨3, x.num, 0, c.linear, BitVec.ofNat 64 (d.1 % 2 ^ 57), g.op, s.time.dtc⟩
      else s) s

/-- Whether an engine operation of a crew's fibres is outstanding (R212). -/
def crewOwes (s : State) (crew : Nat) : Bool :=
  (s.channels.any fun c => c.entries.any fun e => e.crew == some crew || e.owner == some crew) || (s.cores.any fun c => c.mxq.any fun o => o.crew == some crew)

/-- A crew retires (R212): what it held is free, CREW_DONE (log 129), its groups, its node's counts, its grid. A crew that ends by a kill sets no counter of
its consumers (R293, R367). -/
def retireCrew (s : State) (c : Crew) : State :=
  let s1 := { s with crews := s.crews.filter (·.id != c.id) }
  match s.grid? c.grid with
  | none => s1
  | some g =>
    let s2 := checkRetire s1 c g
    let s3 := (s2.setGrid g.id fun x => { x with retired := x.retired ++ [c.linear] }).passClock (.crew g.id c.linear) (.ended g.op)
    let s4 := emit s3 (coreSrc c.core) 0x0302 g.op g.op c.linear g.vf
    let s5 := match g.src, g.killed with
      | .node gr n, none => tileDown (nodeRetired s4 gr n c.linear) gr n g c.linear
      | _, _ => s4
    gridEval (gbarEvalAll s5 g.id) g.id

/-- CREW_RETIRE (R212). -/
def execCrewRetire (crew : Nat) (s : State) : Host.Outcome State Fault Refusal :=
  .next (match s.crew? crew with
    | none => s
    | some c => if (s.fibres.any (·.crew == crew)) || crewOwes s crew then s else retireCrew s c)

/-- CREW_START (R207, R219): the dispatcher places the next crew of a grid on a core, or all crews of a co-resident grid at once. -/
def execCrewStart (grid core part : Nat) (s : State) : Host.Outcome State Fault Refusal :=
  .next (match s.grid? grid with
    | none => s
    | some g =>
      if g.killed.isSome || g.doom.isSome || !asidRuns s g.asid then s
      else
        match g.nextCrew with
        | none => s
        | some lin =>
          if !tileOk s g lin then gridEval s grid
          else if g.coresident then
            match placeAll (core :: (gridCores s g).filter (· != core)) part grid g.total s with
            | some t => afterPlace t grid
            | none => s
          else
            match placeCrew s g lin core part with
            | some t => afterPlace (t.setGrid grid Grid.placed) grid
            | none => s)

/-! ### Killing a grid -/

/-- Every fibre of a grid ends at its boundary, and it places no more crews (R367): its crews retire once their operations complete (log 95, DEDUCED). -/
def killGrid (s : State) (grid code : Nat) : State :=
  let crews := (s.crews.filter (·.grid == grid)).map (·.id)
  let s1 := s.setGrid grid fun g => { g with killed := some (g.killed.getD code), queued := [] }
  let ids := (s1.fibres.filter fun f => crews.contains f.crew && decide (f.status ≠ .halted)).map (·.id)
  gridEval (endFibres s1 ids) grid

/-- The codes that go to the firmware first (R365). -/
def firmwareFirst (r : FaultRec) : Bool :=
  r.code == 0x92 || r.code == 0x94 || (r.code == 0x93 && r.aux == 2) || (r.code == 0xB0 && (r.aux == 0x92 || r.aux == 0x94 || (r.aux == 0x93 && r.s2)))

/-- A parked fibre whose park the firmware answers with a kill (R14, R365, R367): of a handler fibre, or without a handler. -/
def mustKill (s : State) (f : Fibre) : Bool :=
  match f.status, s.fibreGrid f with
  | .parked p, some g => f.handlerFor.isSome || (!firmwareFirst p.frec && g.handler == 0)
  | _, _ => false

/-- The first park that the firmware answers with a kill of a grid: its LANE_PARK's identifier (R401). A lane that parks takes a new cohort's number, so the
least is the first. -/
def fatalPark (s : State) (grid : Nat) : Option DWord :=
  ((s.fibres.filter fun f => (s.fibreGrid f).map (·.id) == some grid && mustKill s f).foldl
    (fun (best : Option Fibre) f => match best with
      | none => some f
      | some b => if f.cohort < b.cohort then some f else best) none).bind fun f =>
    match f.status with
    | .parked p => some p.lp
    | _ => none

/-- GRID_KILL (R367): the firmware kills a grid with FAULT. -/
def execGridKill (grid : Nat) (s : State) : Host.Outcome State Fault Refusal :=
  .next (match s.grid? grid with
    | none => s
    | some g =>
      if g.killed.isSome then s
      else
        match g.doom with
        | some (c, _) => killGrid s grid c
        | none =>
          match fatalPark s grid with
          | some lp => killGrid (s.setGrid grid fun g => { g with doom := some (2, lp) }) grid 2
          | none => s)

/-! ### Handler fibres -/

/-- Where a handler fibre finds a window (R366): the parked fibre's lane, else the lowest partition and lane. -/
def handlerPlace (s : State) (core : Nat) (f : Fibre) : Option (Nat × Nat × Nat) :=
  let all := (f.part, f.lane) :: (List.range 4).flatMap fun p => (List.range 32).map fun l => (p, l)
  all.findSome? fun pl => (freeBase (windowsIn s core pl.1 pl.2) 16).map fun b => (pl.1, pl.2, b)

/-- A fault record as 256 bits (R364). -/
def recBits (r : FaultRec) : Nat :=
  r.arg.toNat * 2 ^ 192 + r.pc.toNat * 2 ^ 128 + r.op.toNat * 2 ^ 64 + r.aux % 256 * 2 ^ 56 + (if r.s2 then 2 ^ 55 else 0) +
  r.part % 4 * 2 ^ 53 + r.lane % 32 * 2 ^ 48 + r.idx % 65536 * 2 ^ 32 + r.code % 65536 * 2 ^ 16 + r.slot % 32 * 2 ^ 8 + r.core % 256

/-- The registers a handler fibre starts with (R366): v8 to v15 hold the record. -/
def handlerRegs (r : FaultRec) : List (Nat × Word) :=
  (List.range 8).map fun j => (8 + j, BitVec.ofNat 32 (natBits (recBits r) (32 * j + 31) (32 * j)))

/-- A parked fibre that waits for a handler fibre (R365, R366). -/
def wantsHandler (s : State) (f : Fibre) : Option (Parked × Grid × Crew) :=
  match f.status, s.fibreGrid f, s.fibreCrew f with
  | .parked p, some g, some c =>
    if p.started || !asidRuns s g.asid || f.handlerFor.isSome || g.handler == 0 || firmwareFirst p.frec || g.killed.isSome then none else some (p, g, c)
  | _, _, _ => none

/-- HANDLER_FIBRE_START (R366). -/
def execHandlerFibreStart (fibre : Nat) (s : State) : Host.Outcome State Fault Refusal :=
  .next (match s.fibre? fibre with
    | none => s
    | some f =>
      match wantsHandler s f with
      | none => s
      | some (p, g, c) =>
        match handlerPlace s c.core f with
        | none => s
        | some (part, lane, wb) =>
          let idx := freeIndex s c
          if 65536 ≤ idx then s
          else
            let h := fibreAt s.nextId c.id idx part lane wb 16 g.map g.handler (handlerRegs p.frec) (some fibre)
            let s1 := dropDups { s with fibres := s.fibres ++ [h], nextId := s.nextId + 1 } c.core part lane
            let s2 := newJgrp (newCohort s1 [h.id]) [h.id]
            wakeBanks (s2.setFibre fibre fun x => { x with status := .parked { p with started := true } }) c.core part
              (banksOf h (List.range 16)))

/-- HANDLER_WINDOW_TIMEOUT (R366): no window has come free within 1 ms; the firmware kills the grid. -/
def execHandlerWindowTimeout (fibre : Nat) (s : State) : Host.Outcome State Fault Refusal :=
  .next (match s.fibre? fibre with
    | none => s
    | some f =>
      match wantsHandler s f with
      | none => s
      | some (p, g, c) =>
        if (handlerPlace s c.core f).isSome || s.time.dtc < p.since + usTicks 1000 then s
        else killGrid (s.setGrid g.id fun x => { x with doom := some (2, p.lp) }) g.id 2)

end Sys2Proof.Machine
end

