-- ==== Sys2Proof/Machine/Fabric.lean ====
section
/-! DEFINITION. The fabric side of accesses: requests and answers, serving other devices, reordering; receive counters and triggered sends
(spec/20 R329 to R338; spec/09 R189 to R192). -/

namespace Sys2Proof.Machine

/-! ### Requests -/

/-- A TAG that no outstanding request uses, the first from a running number on (log 25, DESIGN CHOICE). -/
def freeTag (s : State) : Nat :=
  (((List.range (s.remote.length + 1)).map fun t => (s.nextId + t) % 2 ^ 16).find? fun t => !(s.remote.any (·.tag == t))).getD 0

/-- Whether a request still awaits its answer. -/
def RemoteReq.open (r : RemoteReq) : Bool :=
  match r.use with
  | .watch _ => false
  | _ => true

/-- A flow whose plane has changed while packets of it are unanswered holds its new packets (R329). -/
def flowHeld (s : State) (dev base plane : Nat) : Bool :=
  s.remote.any fun r => r.open && r.dev == dev && r.base == base && r.plane != plane

/-- Send a request on plane P[base] (R329, R331, R336, R337); none while the injection window is full, the flow is held or no plane is in service.
`p` gives what the request says, `use` what its answer serves. -/
def sendOn (s : State) (dev vf base : Nat) (p : FabPkt) (use : RemoteUse) : Option State :=
  let plane := planeOf s base
  let bytes := 32 + 16 * p.len.toNat
  if (s.port plane).lanes == 0 || flowHeld s dev base plane || portWindow (s.port plane) < (s.port plane).unanswered + bytes then none
  else
    let tag := freeTag s
    let key := BitVec.ofNat 16 (((s.fn? vf).bind (·.pkey)).getD 0)
    let q : FabPkt := { p with srcdev := BitVec.ofNat 12 s.dev.dev, dstdev := BitVec.ofNat 12 dev, plane := BitVec.ofNat 5 plane,
                               tag := BitVec.ofNat 16 tag, pkey := key, svf := BitVec.ofNat 9 vf }
    let s1 := s.setPort plane fun x => { x with unanswered := x.unanswered + bytes }
    some (sendPkt { s1 with remote := s1.remote ++ [⟨tag, dev, plane, base, bytes, s.time.dtc, use⟩] } q)

/-- Send a request on the plane of the line it names (R329). -/
def sendRequest (s : State) (dev vf : Nat) (p : FabPkt) (use : RemoteUse) : Option State := sendOn s dev vf (planeBase dev p.addr.toNat) p use

/-- What an operation says in a packet: OP, operation, size, payload (R332). -/
def pktOf (op : MemOp) : Nat × HomeOp × Nat × List Byte :=
  match op with
  | .read n => (1, .read, n, [])
  | .write d w => (if w then 3 else 2, if w then .wake else .write, d.length, d.map (·.2))
  | .atom o ty w b c => (4, .atom o ty, if w then 8 else 4, natBytes 8 b.toNat ++ natBytes 8 c.toNat)
  | .sigAdd b => (4, .sigAdd false, 8, natBytes 8 b.toNat)
  | .sigSet v => (4, .sigSet false, 8, natBytes 8 v.toNat)
  | .sigAbort c => (4, .sigAbort, 8, natBytes 8 c)
  | .sigDec => (4, .sigAdd true, 8, natBytes 8 (2 ^ 64 - 1))
  | .sigRead w => (4, .sigRead w, 8, [])

/-- The first byte a write stores, from its address on. -/
def firstByte : MemOp → Nat
  | .write (p :: _) _ => p.1
  | _ => 0

/-- The packet of an access (R331, R337). -/
def accessPkt (s : State) (a : Access) (dev : Nat) : FabPkt :=
  let k := pktOf a.op
  let ho : HomeOp := match a.agent, k.2.1 with
    | .fibre _, h => h
    | _, .sigSet _ => .sigSet true
    | _, h => h
  { blankPkt s dev 0 with cid := a.opid, addr := BitVec.ofNat 52 (a.spa + firstByte a.op), op := BitVec.ofNat 8 k.1,
                          len := BitVec.ofNat 5 (ceilDiv k.2.2.2.length 16), vc := 0, homeOp := ho, size := k.2.2.1,
                          order := BitVec.ofNat 2 a.order, scope := BitVec.ofNat 3 a.scope, payload := k.2.2.2 }

/-- An access to another device leaves as a request (R337), if the port finds its generation current (R262, R267); one to a lost device times out at once
(R394). The storing core's L1 copy takes the store (R135). -/
def performRemote (s : State) (a : Access) (dev : Nat) : State :=
  if s.dev.lostDevs.contains dev then setResp s a.ref (.err 0xA0)
  else if a.gen != s.gen a.asid then setResp s a.ref .stale
  else match sendRequest s dev a.vf (accessPkt s a dev) (.access a.ref) with
  | none => s
  | some t =>
    let t := match a.op with
      | .write d _ => l1Store t a d
      | _ => t
    { t with accesses := mapIf (·.ref == a.ref) (fun b => { b with sent := true }) t.accesses }

/-! ### Answers to our requests -/

/-- The request an answer belongs to. -/
def requestOf (s : State) (p : FabPkt) : Option RemoteReq :=
  s.remote.find? fun r => r.tag == p.tag.toNat && r.dev == p.srcdev.toNat && r.plane == p.plane.toNat

/-- A request is answered: its bytes leave the injection window (R336). -/
def closeRequest (s : State) (r : RemoteReq) : State :=
  let s1 := s.setPort r.plane fun x => { x with unanswered := x.unanswered - (if r.open then r.bytes else 0) }
  { s1 with remote := s1.remote.filter (·.tag != r.tag) }

/-- Whether a fibre waits in `sigw` on another device's signal with this access as its read. -/
def isWaitRead (s : State) (a : Access) : Option Nat :=
  match a.op, a.owner.bind s.fibre? with
  | .sigRead true, some f =>
    (match f.status with
     | .waitSig w => if w.va == a.va then some f.id else none
     | _ => none)
  | _, _ => none

/-- RESP_DATA (R332): the value of a read or an atomic. The TAG of a `sigw` read stays for notifications (R338). -/
def takeData1 (s : State) (r : RemoteReq) (p : FabPkt) : State :=
  match r.use with
  | .access ref =>
    (match s.accesses.find? (·.ref == ref) with
     | none => closeRequest s r
     | some a =>
       let s1 := setResp (closeRequest s r) ref (.ok (p.payload.take (opSize a.op)) [] [])
       match isWaitRead s a with
       | some f => { s1 with remote := s1.remote ++ [{ r with use := .watch f }] }
       | none => s1)
  | _ => s

/-- The read of a remote signal is sent again for a fibre in `sigw` (R338). -/
def rereadSignal (s : State) (fibre : Nat) : State :=
  match s.fibre? fibre with
  | none => s
  | some f =>
    match f.status with
    | .waitSig w =>
      if w.dev.isNone || s.accesses.any (fun a => decide (isWaitRead s a = some fibre)) then s
      else sendAccess s (fibreAccess s f w.va w.spa w.dev false (.sigRead true) none 0 0)
    | _ => s

/-! ### Receive counters -/

/-- Whether a counter word names a counter of a function (R189). -/
def counterOk (s : State) (vf w : Nat) : Bool :=
  match s.fn? vf with
  | some f => (match f.counterBase with
    | some b => w < 2 ^ 15 && b ≤ w % 4096 && w % 4096 < b + f.quotaCounters
    | none => false)
  | none => false

def ctrDie (w : Nat) : Nat := w / 4096 % 8
def ctrIdx (w : Nat) : Nat := w % 4096

/-- A receive counter. -/
def State.counter (s : State) (w : Nat) : Counter :=
  (s.counters.find? fun c => c.die == ctrDie w && c.idx == ctrIdx w).getD ⟨ctrDie w, ctrIdx w, 0, false⟩

def State.setCounter (s : State) (w : Nat) (f : Counter → Counter) : State :=
  { s with counters := setOr (fun c => c.die == ctrDie w && c.idx == ctrIdx w) f ⟨ctrDie w, ctrIdx w, 0, false⟩ s.counters }

/-- The 64-bit value of a counter (R189). -/
def counterValue (c : Counter) : DWord := BitVec.ofNat 64 (c.count + if c.err then 2 ^ 63 else 0)

/-! ### Triggered sends -/

/-- SRC of a die's collective engine (R310). -/
def collSrc (die : Nat) : Nat := srcOf die 5 0

/-- No counter (R190). -/
def noCounter : Nat := 0xFFFFFFFF

/-- A send fails (R192): it stops, ERR is set on LCTR, or on TCTR without one, and COLL_SEND carries the status, with the send itself as its
cause (R278). -/
def sendFail (s : State) (x : Send) (status : Nat) : State :=
  let s1 := s.setCounter (if x.lctr == noCounter then x.tctr else x.lctr) fun c => { c with err := true }
  let s2 := emit s1 (collSrc x.die) 0x0602 x.op x.op status x.vf
  { s2 with sends := s2.sends.filter (·.id != x.id), accesses := s2.accesses.filter fun a => !x.outstanding.contains a.ref }

/-- Send the accesses of one engine for pieces of a range, to be performed behind `needs`; the first that cannot be translated gives its status. -/
def enginePieces (s : State) (die vf asid : Nat) (need : Need) (mk : Nat × Nat → MemOp) (id : DWord) (needs : List Nat) :
    List (Nat × Nat) → List Nat → Except Nat (State × List Nat)
  | [], refs => .ok (s, refs)
  | p :: ps, refs =>
    if 2 ^ 57 ≤ p.1 then .error 1
    else
      let go (spa : Nat) (dev : Option Nat) (r : Resp) : Except Nat (State × List Nat) :=
        let a := engineAccess s die vf asid (BitVec.ofNat 64 p.1) spa dev (mk p) id
        enginePieces (sendAccess s { a with resp := r, needs := needs }) die vf asid need mk id needs ps (refs ++ [a.ref])
      match translateWalk s vf asid p.1 need with
      | .ok spa dev => go spa dev .none
      | .held => go 0 none .held
      | .nonres => .error 2
      | .fail _ _ => .error 1

/-- A held send fires (R191, R192): a new identifier, COLL_SEND with itself as its cause (R278, log 47, DEDUCED), and the reads of its source (log 23, DESIGN CHOICE), which come after its issuer's
accesses (R260) and, by the acquire, after the releases before the update that triggered it. -/
def fireSend (s : State) (x : Send) : State :=
  let m := mint s x.die
  let s1 := emit m.2 (collSrc x.die) 0x0602 m.1 m.1 0 x.vf
  let y := { x with state := .fired, op := m.1 }
  let s1 := startClock s1 x.id m.1 (s1.clockOf (.counter x.tctr))
  match enginePieces s1 x.die x.vf x.asid .read (fun p => .read p.2) m.1 (clockNeeds s x.id) (linePieces x.src.toNat (x.bytes / 64 + 2) x.bytes) [] with
  | .error st => sendFail s1 y st
  | .ok (s2, refs) => { s2 with sends := mapIf (·.id == x.id) (fun _ => { y with outstanding := refs }) s2.sends }

/-- Every held send on a counter whose threshold is reached fires, in the order of arming (R191). -/
def fireAll (s : State) (w : Nat) : State :=
  let n := (s.counter w).count
  (s.sends.filter fun x => decide (x.state = .held) && ctrDie x.tctr == ctrDie w && ctrIdx x.tctr == ctrIdx w && x.thresh ≤ n).foldl
    fireSend s

/-- Change a counter's count and fire what it triggers. -/
def counterTo (s : State) (w count : Nat) (clear : Bool) : State :=
  fireAll (s.setCounter w fun c => { c with count := count, err := if clear then false else c.err }) w

/-- A count clamped to [0, 2^48 - 1] (R189). -/
def clampCount (x : Int) : Nat := (if x < 0 then (0 : Int) else if 2 ^ 48 - 1 < x then 2 ^ 48 - 1 else x).toNat

/-- Add to a counter (R189). -/
def counterAdd (s : State) (w : Nat) (b : Int) : State :=
  counterTo s w (clampCount ((s.counter w).count + b)) false

/-- An increment of RCTR arrives (R192): COLL_RECV with the send as its cause, then the counter. -/
def counterRecv (s : State) (vf w rinc : Nat) (send : DWord) : State :=
  let m := mint s (ctrDie w)
  counterAdd ((emit m.2 (collSrc (ctrDie w)) 0x0603 m.1 send 0 vf).addClock (.counter w) (s.clockOf (.op send))) w rinc

/-- A send ends: LINC is added to LCTR (R192). -/
def sendEnd (s : State) (x : Send) : State :=
  let s1 := { s with sends := s.sends.filter (·.id != x.id) }.dropClock (.op x.op)
  if x.lctr == noCounter then s1 else counterAdd (s1.addClock (.counter x.lctr) (s.clockOf (.op x.op))) x.lctr x.linc

/-- The data of one piece has been read: it goes to its place in DST, as stores or as wake writes (R192). -/
def sendData (s : State) (x : Send) (a : Access) (val : List Byte) : State :=
  let dst := x.dst.toNat + (a.va.toNat - x.src.toNat)
  let mk (p : Nat × Nat) : MemOp := .write ((List.range p.2).zip ((val.drop (p.1 - dst)).take p.2)) x.wake
  match enginePieces s x.die x.vf x.asid .write mk x.op [] (linePieces dst (val.length / 64 + 2) val.length) [] with
  | .error st => sendFail s x st
  | .ok (s1, refs) =>
    let now (y : Send) : Send := { y with outstanding := y.outstanding.filter (· != a.ref) ++ refs }
    dropAccess { s1 with sends := mapIf (·.id == x.id) now s1.sends } a.ref

/-- The device that holds a send's destination; none: this one. -/
def sendDev (s : State) (x : Send) : Option Nat :=
  match translateWalk s x.vf x.asid x.dst.toNat .write with
  | .ok _ dev => dev
  | _ => none

/-- Every byte of a fired send is applied (R192): RCTR is raised here or at the destination, or LCTR at once (log 15, DESIGN CHOICE). -/
def sendApplied (s : State) (x : Send) : State :=
  if x.rctr == noCounter then sendEnd s x
  else
    match sendDev s x with
    | none => if counterOk s x.vf x.rctr then sendEnd (counterRecv s x.vf x.rctr x.rinc x.op) x else sendFail s x 5
    | some d =>
      if s.dev.lostDevs.contains d then sendFail s x 5 else
      let p : FabPkt := { blankPkt s d 0 with cid := x.op, op := 0x10, len := 1, addr := BitVec.ofNat 52 0,
                                              payload := natBytes 4 x.rctr ++ natBytes 4 x.rinc }
      match sendRequest s d x.vf p (.send x.id true) with
      | none => s
      | some t => { t with sends := mapIf (·.id == x.id) (fun y => { y with state := .incSent }) t.sends }

/-- Every fired send whose writes are all applied goes on (R192). -/
def sendsEval (s : State) : State :=
  (s.sends.filter fun x => decide (x.state = .fired)).foldl
    (fun s x =>
      match s.sends.find? (·.id == x.id) with
      | none => s
      | some y => if y.outstanding.all fun r => !(s.accesses.any (·.ref == r)) then sendApplied s y else s) s

/-- The send an engine's access belongs to. -/
def sendOfRef (s : State) (ref : Nat) : Option Send := s.sends.find? fun x => x.outstanding.contains ref

/-- Armed sends, by die and by function (R191). -/
def sendsFull (s : State) (die vf : Nat) : Bool :=
  2048 ≤ (s.sends.filter (·.die == die)).length ||
  ((s.fn? vf).map (·.quotaSends)).getD 256 ≤ (s.sends.filter (·.vf == vf)).length

/-- Arm a send (R191): the status and the state. -/
def armSend (s : State) (x : Send) : Nat × State :=
  if sendsFull s x.die x.vf then (2, s)
  else
    let s1 := { s with sends := s.sends ++ [x] }
    if x.thresh ≤ (s.counter x.tctr).count then (1, fireSend s1 x) else (0, s1)

/-! ### Answers and failures of requests -/

/-- RESP_ACK (R338): the write is applied or the increment made. -/
def takeAck (s : State) (r : RemoteReq) : State :=
  let s1 := closeRequest s r
  match r.use with
  | .access ref => dropAccess s1 ref
  | .watch _ => s
  | .send id _ =>
    (match s1.sends.find? (·.id == id) with
     | some x => sendEnd s1 x
     | none => s1)
  | .coll => s1

/-- A request is refused or stays unanswered (R337): the access gets the code; a send ends with FABRIC (R192). -/
def takeErr (s : State) (r : RemoteReq) (code : Nat) : State :=
  let s1 := closeRequest s r
  match r.use with
  | .access ref =>
    (match sendOfRef s1 ref with
     | some x => sendFail s1 x 5
     | none => setResp s1 ref (.err code))
  | .watch _ => s
  | .send id _ =>
    (match s1.sends.find? (·.id == id) with
     | some x => sendFail s1 x 5
     | none => s1)
  | .coll => s1

/-! ### Serving other devices -/

/-- The function that owns an offset's frame: its stage 2 maps it within an exported range to its own key (R337, R403). -/
def exporter (s : State) (key : BitVec 16) (off : Nat) : Option Nat :=
  (s.fns.find? fun f =>
    f.pkey == some key.toNat && f.exports.any fun e => (List.range (e.2 / 4096)).any fun i =>
      match stage2 s f.vf (e.1 + 4096 * i) with
      | .ok (leaf, lv) => leaf.testBit 5 && !leaf.testBit 11 && leafAddr leaf lv (e.1 + 4096 * i) % 2 ^ 49 / 4096 == off / 4096
      | .error _ => false).map (·.vf)

/-- An answer to a request of another device (R332, R337): on the plane of the request. -/
def sendAnswer (s : State) (p : FabPkt) (op : Nat) (payload : List Byte) : State :=
  sendPkt s { blankPkt s p.srcdev.toNat p.plane.toNat with
    cid := p.cid, op := BitVec.ofNat 8 op, vc := 1, pkey := p.pkey, tag := p.tag, addr := p.addr, homeOp := p.homeOp,
    size := p.size, len := BitVec.ofNat 5 (ceilDiv payload.length 16), payload := payload }

/-- RESP_ERR with a fault code in its first two bytes (R332). -/
def sendRefusal (s : State) (p : FabPkt) (code : Nat) : State := sendAnswer s p 7 (natBytes 2 code)

/-- What a request does at its home. -/
def servedOp (p : FabPkt) : MemOp :=
  let b := BitVec.ofNat 64 (bytesNat (p.payload.take 8))
  match p.homeOp with
  | .read => .read p.size
  | .write => .write ((List.range p.size).zip p.payload) false
  | .wake => .write ((List.range p.size).zip p.payload) true
  | .atom op ty => .atom op ty (p.size == 8) b (BitVec.ofNat 64 (bytesNat ((p.payload.drop 8).take 8)))
  | .sigAdd _ => .sigAdd b
  | .sigSet _ => .sigSet b
  | .sigAbort => .sigAbort b.toNat
  | .sigRead w => .sigRead w

/-- A request arrives for its home (R337): refused unless its frame is exported to its key and lies outside the coherent window and the
apertures; else it is an access of its port's die, to be performed in its own step. -/
def serveRequest (s : State) (p : FabPkt) : State :=
  let off := p.addr.toNat % 2 ^ 49
  match s.place off with
  | .window _ => sendRefusal s p 0xA1
  | .aperture _ _ => sendRefusal s p 0xA1
  | _ =>
    match exporter s p.pkey off with
    | none => sendRefusal s p 0xA1
    | some vf =>
      let a : Access :=
        { engineAccess s (p.plane.toNat / 3) vf 0x10000 0 p.addr.toNat none (servedOp p) p.cid with
          agent := .port (24 * p.srcdev.toNat + p.plane.toNat), order := p.order.toNat, req := [] }
      { sendAccess s a with served := s.served ++ [(a.ref, p)] }

/-- A waiter of another device is noted at its signal, at most 64 for each (R338) (log 19, DESIGN CHOICE). -/
def addWatcher (s : State) (p : FabPkt) : State :=
  let off := p.addr.toNat
  if p.homeOp = .sigRead true && (s.remoteWaiters.filter fun r => homeByte s r.off == homeByte s off).length < 64 then
    { s with remoteWaiters := s.remoteWaiters ++ [⟨off, p.srcdev.toNat, p.plane.toNat, p.tag.toNat⟩] }
  else s

/-- The answer to a served request once its access has been performed (R332). -/
def serveDone (s : State) (ref : Nat) : State :=
  match s.served.find? (·.1 == ref) with
  | none => s
  | some (_, p) =>
    let s1 := { s with served := s.served.filter (·.1 != ref) }
    match s.accesses.find? (·.ref == ref) with
    | none => sendAnswer s1 p 6 []
    | some a =>
      match a.resp with
      | .ok val _ _ => addWatcher (sendAnswer (dropAccess s1 ref) p 5 val) p
      | .err c => sendRefusal (dropAccess s1 ref) p c
      | _ => s

/-- A send's RCTR increment arrives from another device (R192): the function is the one that holds the key. -/
def serveInc (s : State) (p : FabPkt) : State :=
  let w := bytesNat (p.payload.take 4)
  match s.fns.find? fun f => f.pkey == some p.pkey.toNat && counterOk s f.vf w with
  | none => sendRefusal s p 0xA1
  | some f => sendAnswer (counterRecv s f.vf w (bytesNat ((p.payload.drop 4).take 4)) p.cid) p 6 []

/-! ### Arrival of packets -/

/-- The operations of R332. -/
def fabOps : List Nat := [1, 2, 3, 4, 5, 6, 7, 0x10, 0x11, 0x12, 0x13, 0x20, 0x30, 0x31]

/-- Whether a destination port drops a packet (R332). -/
def pktBad (p : FabPkt) : Bool := !fabOps.contains p.op.toNat || p.zero7 != 0 || p.zero16 != 0 || 16 < p.len.toNat

/-- The reorder buffer of a source and plane (R330). -/
def State.reorderOf (s : State) (src plane : Nat) : Reorder :=
  (s.reorder.find? fun r => r.src == src && r.plane == plane).getD ⟨src, plane, none, 0, []⟩

def State.setReorder (s : State) (src plane : Nat) (f : Reorder → Reorder) : State :=
  { s with reorder := setOr (fun r => r.src == src && r.plane == plane) f ⟨src, plane, none, 0, []⟩ s.reorder }

/-- Deliver what the reorder buffer holds in sequence (R330). -/
def drainReorder (deliver : State → FabPkt → State) (src plane : Nat) : Nat → State → State
  | 0, s => s
  | fuel + 1, s =>
    let r := s.reorderOf src plane
    match r.held.find? fun p => r.next == some p.seq.toNat with
    | none => s
    | some p =>
      let s1 := s.setReorder src plane fun r =>
        { r with next := some ((p.seq.toNat + 1) % 2 ^ 24), since := s.time.dtc, held := r.held.filter (·.seq != p.seq) }
      drainReorder deliver src plane fuel (deliver s1 p)

/-- A packet arrives at its port (R330, R332): dropped, delivered in sequence, or held (log 22, DESIGN CHOICE). -/
def recvPkt (deliver : State → FabPkt → State) (s : State) (p : FabPkt) : State :=
  let src := p.srcdev.toNat
  let plane := p.plane.toNat
  let r := s.reorderOf src plane
  if pktBad p then { s with dev := { s.dev with drops := s.dev.drops + 1 } }
  else if p.dstdev.toNat != s.dev.dev || 24 ≤ plane then s
  else if r.next == none || r.next == some p.seq.toNat then
    let s1 := s.setReorder src plane fun r => { r with next := some ((p.seq.toNat + 1) % 2 ^ 24), since := s.time.dtc }
    drainReorder deliver src plane (r.held.length + 1) (deliver s1 p)
  else if r.held.length < 4096 then
    s.setReorder src plane fun r =>
      { r with since := if r.held.isEmpty then s.time.dtc else r.since, held := r.held ++ [p] }
  else s

end Sys2Proof.Machine
end

