-- ==== Sys2Proof/Machine/Memory.lean ====
section
/-! DEFINITION. Meanings: loads, stores, atomics, scratchpad accesses and prefetches (spec/07 R129 to R145). -/

namespace Sys2Proof.Machine

/-! ### Shared operations -/

/-- Lanes that have not parked go on behind a memory instruction, a switch point (R46). -/
def passReady (w : Issue) (s : State) : State :=
  let go (f : Fibre) : Fibre := { f.voidLatches with pc := nextPc w.enc f }
  { s with fibres := mapIf (fun f => w.allIds.contains f.id && !f.status.isParked) go s.fibres }

/-- What an instruction does in each lane of `exec`, in ascending order; then the lanes go on. -/
def memLanes (w : Issue) (s : State) (lane : State → Fibre → State) : State :=
  passReady w ((byLane w.exec).foldl lane s)

/-- The address of R131: the pair A and the displacement. -/
def effAddr (e : Enc) (f : Fibre) : DWord := f.src64 (aField e) + disp12 e

/-- Scope and order of an L memory instruction (R129). -/
def orderOf (e : Enc) : Nat := modOf e % 4
def scopeOf (e : Enc) : Nat := natBits (imm16Of e) 14 12

/-- Bytes of a load (R133). -/
def ldBytes : LdSize → Nat
  | .b8 => 1 | .b16 => 2 | .b32 => 4 | .b64 => 8 | .b128 => 16 | .s8 => 1 | .s16 => 2

/-- Sign bits of a load: 0 where it zero-extends (R133). -/
def ldSext : LdSize → Nat
  | .s8 => 8 | .s16 => 16 | _ => 0

/-- Registers a load writes. -/
def ldWords : LdSize → Nat
  | .b64 => 2 | .b128 => 4 | _ => 1

/-- Bytes of a store (R133). -/
def stBytes : StSize → Nat
  | .b8 => 1 | .b16 => 2 | .b32 => 4 | .b64 => 8 | .b128 => 16

/-- Where a result of `words` registers goes; none to discard it. -/
def destOf (e : Enc) (f : Fibre) (words sext : Nat) (flag : Option Nat) : Option Dest :=
  match dField e, flag with
  | some d, fl => some ⟨f.id, d, words, sext, fl⟩
  | none, some n => some ⟨f.id, 0, 0, 0, some n⟩
  | none, none => none

/-- An acquire comes before the fibre's later accesses, and with it every earlier load and atomic (R256). -/
def acquireBy (s : State) (id order : Nat) : State := if isAcquire order then setAcquire s id else s

/-- A release also lets the fibre's scratchpad writes be seen (R256). -/
def releaseScr (s : State) (id order : Nat) : State := if isRelease order then scrFlush s id else s

/-- Park a lane with a code, the address in ARG. -/
def parkAddr (s : State) (f : Fibre) (code : Nat) (va : DWord) : State := park s f.id ⟨code, f.pc, f.pc, va, 0, false⟩

/-! ### Sampling -/

/-- The 32-byte sectors that ranges of bytes touch, each once (R321). -/
def sectorsOf (l : List (Nat × Nat)) : Nat :=
  (distinct (l.flatMap fun p => if p.2 == 0 then [] else (List.range ((p.1 + p.2 - 1) / 32 - p.1 / 32 + 1)).map (p.1 / 32 + ·))).length

/-- Whether an instruction may wait at L1 (R321): an `.nc` load or `pf`. -/
def queuesAtL1 (e : Enc) : Bool := e.opn == some 0x1C0 || ((e.opn.map fun o => 0x180 ≤ o && o < 0x187).getD false && (modOf e).testBit 2)

/-- Count an issue of a memory instruction or `cpa` under detail; every N-th is sampled (R320): the accesses it has sent from `ref0` on
are watched until they have left (log 61, DESIGN CHOICE). `touch` gives the bytes each lane reaches. -/
def sampleIssue (w : Issue) (s : State) (ref0 : Nat) (touch : Fibre → List (Nat × Nat)) : State :=
  match w.exec.head? with
  | none => s
  | some f =>
    match s.fibreGrid f with
    | none => s
    | some g =>
      if !g.detail then s
      else
        let core := s.fibreCore f
        let k := ((s.fn? g.vf).map (·.sampleK)).getD 12
        let n := (s.core core).issueCount + 1
        let s1 := s.setCore core fun c => { c with issueCount := n }
        let done := w.exec.filter fun l => ((s.fibre? l.id).map fun x => !x.status.isParked).getD false
        if n % 2 ^ k != 0 || done.isEmpty then s1
        else
          let refs := done.flatMap fun l => (s1.accesses.filter fun a => ref0 ≤ a.ref && decide (a.agent = .fibre l.id)).map fun a => (a.ref, l.lane)
          let x : Sample :=
            { vf := g.vf, asid := g.asid, core := core, part := f.part, pc := f.pc, op := g.op, opn := (w.enc.opn).getD 0,
              lanes := done.foldl (fun m l => m + 2 ^ l.lane) 0, refs := refs, sectors := sectorsOf (done.flatMap touch),
              queued := queuesAtL1 w.enc, last := (done.getLast?.map (·.lane)).getD 0, replays := 0, dtc := s1.time.dtc }
          { s1 with samples := s1.samples ++ [x] }

/-- A memory instruction: its lanes, then its sampling. -/
def memIssue (w : Issue) (s : State) (touch : Fibre → List (Nat × Nat)) (lane : State → Fibre → State) : State :=
  sampleIssue w (memLanes w s lane) s.nextId touch

/-- The bytes a lane reaches at the address of R131. -/
def touchAt (e : Enc) (n : Nat) (f : Fibre) : List (Nat × Nat) := [((effAddr e f).toNat, n)]

/-! ### Loads -/

/-- The line an `.nc` load may be served from on its core (R135). -/
def l1Hit (s : State) (f : Fibre) (va : DWord) : Option L1Line :=
  (s.core (s.fibreCore f)).l1.find? fun l => l.asid == s.fibreAsid f && l.va == va.toNat / 64

/-- Send a load to its home. -/
def sendLoad (s : State) (f : Fibre) (va : DWord) (spa : Nat) (dev : Option Nat) (size order scope : Nat) (nc : Bool)
    (d : Option Dest) : State :=
  let a := fibreAccess s f va spa dev false (.read size) d order scope
  acquireBy (sendAccess s { a with nc := nc, needs := if nc then [] else a.needs }) f.id order

/-- An `.nc` load: an L1 line may serve it, otherwise its home does and L1 is filled (R135). -/
def ncLoad (s : State) (f : Fibre) (va : DWord) (spa : Nat) (dev : Option Nat) (size : Nat) (d : Option Dest) : State :=
  match l1Hit s f va with
  | some l =>
    let c := choose s 2
    if c.1 == 0 then
      let s1 := perfAdd c.2 (s.fibreCore f) 10 1
      match d with
      | some d => s1.setFibre f.id fun g => g.setRegs (landWords d ((l.data.drop (va.toNat % 64)).take size))
      | none => s1
    else sendLoad (perfAdd c.2 (s.fibreCore f) 11 1) f va spa dev size 0 0 true d
  | none => sendLoad (perfAdd s (s.fibreCore f) 11 1) f va spa dev size 0 0 true d

/-- The result of `ld.rz` where the page is not resident: zero to D, then the flag set (R136). -/
def rzMissing (s : State) (f : Fibre) (e : Enc) (z : LdSize) (n : Nat) : State :=
  s.setFibre f.id fun g =>
    let h := match dField e with
      | some d => g.setRegs ((List.range (ldWords z)).map fun i => (d + i, 0))
      | none => g
    h.setReg 0 (h.pw ||| BitVec.ofNat 32 (2 ^ n))

/-- One lane of `ld` (R131, R133, R135, R136). -/
def loadLane (w : Issue) (z : LdSize) (s : State) (f : Fibre) : State :=
  let va := effAddr w.enc f
  let nc := (modOf w.enc).testBit 2
  let rz := if (modOf w.enc).testBit 3 then some (cField w.enc) else none
  let r := checkAddr s f va (ldBytes z) .read
  let d := destOf w.enc f (ldWords z) (ldSext z) rz
  match r.1 with
  | .bad t => park r.2 f.id t
  | .held => parkAddr r.2 f 0x42 va
  | .nonres => match rz with | some n => rzMissing r.2 f w.enc z n | none => parkAddr r.2 f 0x42 va
  | .ok spa dev =>
    if nc then ncLoad r.2 f va spa dev (ldBytes z) d
    else sendLoad r.2 f va spa dev (ldBytes z) (orderOf w.enc) (scopeOf w.enc) false d

/-- `ld` (R133 to R136). -/
def execLd (z : LdSize) (f : LF) (s : State) : Host.Outcome State Fault Refusal :=
  issue (.ld z f) s fun w s => memIssue w s (touchAt w.enc (ldBytes z)) (loadLane w z)

/-! ### Stores -/

/-- The bytes a store writes (R133): of B, its pair or its quad. -/
def storeBytes (e : Enc) (z : StSize) (f : Fibre) : List Byte :=
  match z with
  | .b64 => natBytes 8 (f.src64 (bField e)).toNat
  | .b128 => (f.srcMany (bField e) 4).flatMap fun v => natBytes 4 v.toNat
  | _ => natBytes (stBytes z) (f.src (bField e)).toNat

/-- A store of a lane that has passed its checks. -/
structure StoreReq where
  fibre : Fibre
  va : DWord
  spa : Nat
  dev : Option Nat
  held : Bool
  data : List Byte
deriving DecidableEq, Repr

/-- Check the lanes of a store in ascending order: failing lanes park, the others are to be performed (R131). A page under migration
holds the write (R274). -/
def checkStores (w : Issue) (z : StSize) (s : State) : List Fibre → State × List StoreReq
  | [] => (s, [])
  | f :: fs =>
    let va := effAddr w.enc f
    let r := checkAddr s f va (stBytes z) .write
    let req (spa : Nat) (dev : Option Nat) (held : Bool) : StoreReq := ⟨f, va, spa, dev, held, storeBytes w.enc z f⟩
    match r.1 with
    | .bad t => checkStores w z (park r.2 f.id t) fs
    | .nonres => checkStores w z (parkAddr r.2 f 0x42 va) fs
    | .held => let t := checkStores w z r.2 fs; (t.1, req 0 none true :: t.2)
    | .ok spa dev => let t := checkStores w z r.2 fs; (t.1, req spa dev false :: t.2)

/-- Where the bytes of a store lie: the device, and their storage here (R248); a held store has no place yet. -/
def storeBytesAt (s : State) (q : StoreReq) : List (Option Nat × Nat) :=
  if q.held then []
  else match q.dev, storageOf s q.spa q.data.length with
    | none, .ok bs => bs.map fun b => (none, b)
    | d, _ => (List.range q.data.length).map fun i => (d, q.spa + i)

/-- The bytes of a store that no higher lane of the same instruction writes (R134), whichever address or view it uses for them (R248). -/
def unhidden (s : State) (q : StoreReq) (higher : List StoreReq) : List (Nat × Byte) :=
  let mine := storeBytesAt s q
  let theirs := higher.flatMap (storeBytesAt s)
  ((List.range q.data.length).zip q.data).filter fun p =>
    !(higher.any fun h => h.va.toNat ≤ q.va.toNat + p.1 && q.va.toNat + p.1 < h.va.toNat + h.data.length) &&
    !((mine[p.1]?).map theirs.contains).getD false

/-- Bytes by position, cut into runs of adjacent positions. -/
def cutRuns : List (Nat × Byte) → List (List (Nat × Byte))
  | [] => []
  | p :: ps =>
    match cutRuns ps with
    | [] => [[p]]
    | r :: rs => if (r.head?.map (·.1)) == some (p.1 + 1) then (p :: r) :: rs else [p] :: r :: rs

/-- The accesses of a store: one, or one for each run of bytes toward another device, whose packets carry adjacent bytes. -/
def storeParts (q : StoreReq) (bs : List (Nat × Byte)) : List (List (Nat × Byte)) :=
  if bs.isEmpty then [] else if q.dev.isSome then cutRuns bs else [bs]

/-- The accesses a lane's store makes (R134): without the bytes a higher lane hides. Through a decoded view, whose bytes the home takes together
(R138), and to an address that answers with an error or to an aperture (R246, R300), it is whole, so that each lane has its answer; hidden bytes
never leave for another device (log 126, DEDUCED). -/
def storeAccesses (s : State) (q : StoreReq) (higher : List StoreReq) : List (List (Nat × Byte)) :=
  let refused := match storageOf s q.spa q.data.length with
    | .error _ => true
    | .ok _ => false
  if q.dev.isNone && (q.spa / 2 ^ 49 == 3 || q.spa / 2 ^ 49 == 4 || refused) then [(List.range q.data.length).zip q.data]
  else storeParts q (unhidden s q higher)

/-- Send the stores of one instruction; `group` joins those through a decoded view (R138). -/
def sendStores (w : Issue) (group : Nat) (wake : Bool) (s : State) : List StoreReq → State
  | [] => s
  | q :: qs =>
    let s0 := releaseScr s q.fibre.id (orderOf w.enc)
    let send (s : State) (bs : List (Nat × Byte)) : State :=
      let a := fibreAccess s q.fibre q.va q.spa q.dev q.held (.write bs wake) none (orderOf w.enc) (scopeOf w.enc)
      sendAccess s (withRelease s q.fibre.id { a with group := group })
    sendStores w group wake (dropRelease ((storeAccesses s0 q qs).foldl send s0) q.fibre.id) qs

/-- `st` (R133, R134, R137, R138). -/
def execSt (z : StSize) (f : LF) (s : State) : Host.Outcome State Fault Refusal :=
  issue (.st z f) s fun w s =>
    let c := checkStores w z (fresh s).2 (byLane w.exec)
    sampleIssue w (passReady w (sendStores w (fresh s).1 ((modOf w.enc).testBit 2) c.1 c.2)) s.nextId (touchAt w.enc (stBytes z))

/-! ### Atomics -/

/-- The width of an atomic's operands (R140). -/
def atomIsWide (op : AtomOp) (e : Enc) : Bool := atomWide op (BitVec.ofNat 2 (modOf e / 4))

/-- The operand of an atomic: a register, or a pair. -/
def atomArg (wide : Bool) (f : Fibre) (n : Nat) : DWord := if wide then f.src64 n else (f.src n).setWidth 64

/-- One lane of `atom` (R131, R141). -/
def atomLane (w : Issue) (op : AtomOp) (s : State) (f : Fibre) : State :=
  let e := w.enc
  let wide := atomIsWide op e
  let va := effAddr e f
  let r := checkAddr s f va (if wide then 8 else 4) .write
  let send (s : State) (spa : Nat) (dev : Option Nat) (held : Bool) : State :=
    let s0 := releaseScr s f.id (orderOf e)
    let a := fibreAccess s0 f va spa dev held
      (.atom op (BitVec.ofNat 2 (modOf e / 4)) wide (atomArg wide f (bField e)) (atomArg wide f (cField e)))
      (destOf e f (if wide then 2 else 1) 0 none) (orderOf e) (scopeOf e)
    acquireBy (dropRelease (sendAccess s0 (withRelease s0 f.id a)) f.id) f.id (orderOf e)
  match r.1 with
  | .bad t => park r.2 f.id t
  | .nonres => parkAddr r.2 f 0x42 va
  | .held => send r.2 0 none true
  | .ok spa dev => send r.2 spa dev false

/-- `atom` (R140, R141). -/
def execAtom (z : AtomOp) (f : LF) (s : State) : Host.Outcome State Fault Refusal :=
  issue (.atom z f) s fun w s => memIssue w s (touchAt w.enc (if atomIsWide z w.enc then 8 else 4)) (atomLane w z)

/-! ### Scratchpad -/

/-- The scratchpad offset of R142. -/
def scrOffset (e : Enc) (f : Fibre) : Nat := (f.src (aField e) + (BitVec.ofNat 12 (imm16Of e)).signExtend 32).toNat

/-- The trap of a failed check of a scratchpad offset, which ARG gives. -/
def scrTrap (f : Fibre) (code o : Nat) : Trap := ⟨code, f.pc, f.pc, BitVec.ofNat 64 o, 0, false⟩

/-- A lane parks at a scratchpad access (R142, R228). -/
def parkScr (s : State) (f : Fibre) (code o : Nat) : State := softPark s f.id (scrTrap f code o)

/-- Bytes of the crew's scratchpad. -/
def scrBytes (s : State) (f : Fibre) : Nat := ((s.fibreCrew f).map (·.scrSize)).getD 0

/-- Whether scratchpad bytes have an uncorrectable error (R228). -/
def scrEcc (s : State) (f : Fibre) (o n : Nat) : Bool :=
  match s.fibreCrew f with
  | some c => (s.core c.core).eccScr.any fun wd => (c.scrBase + o) / 8 ≤ wd && wd ≤ (c.scrBase + o + n - 1) / 8
  | none => false

/-- The checks of R142; `reads` adds the error of R228. -/
def scrCheck (s : State) (f : Fibre) (o size : Nat) (reads : Bool) : Option Nat :=
  if o % size != 0 then some 0x40
  else if scrBytes s f < o + size then some 0x46
  else if reads && scrEcc s f o size then some 0x48
  else none

/-- A scratchpad instruction: an acquire of a lane holds it until what came before has returned (R255). -/
def scrIssue (i : Instr) (s : State) (touch : Issue → Fibre → List (Nat × Nat)) (lane : Issue → State → Fibre → State) :
    Host.Outcome State Fault Refusal :=
  issueWhen i s (fun ls => ls.all (acquired s)) fun w s => memIssue w s (touch w) (lane w)

/-- The bytes a lane reaches at the offset of R142. -/
def touchScr (n : Nat) (w : Issue) (f : Fibre) : List (Nat × Nat) := [(scrOffset w.enc f, n)]

/-- One lane of `lds` (R142). -/
def ldsLane (w : Issue) (z : LdSize) (s : State) (f : Fibre) : State :=
  let o := scrOffset w.enc f
  match scrCheck s f o (ldBytes z) true with
  | some c => parkScr s f c o
  | none =>
    let s1 := scrPeek s f o (ldBytes z)
    match destOf w.enc f (ldWords z) (ldSext z) none with
    | some d => s1.setFibre f.id fun g => g.setRegs (landWords d (scrRead s1 ((s1.fibre? f.id).getD f) o (ldBytes z)))
    | none => s1

/-- `lds` (R142). -/
def execLds (z : LdSize) (f : LF) (s : State) : Host.Outcome State Fault Refusal :=
  scrIssue (.lds z f) s (touchScr (ldBytes z)) fun w => ldsLane w z

/-- Whether another lane of the same `sts` writes scratchpad byte `o` (log 69, DEDUCED). -/
def contested (w : Issue) (z : StSize) (s : State) (f : Fibre) (o : Nat) : Bool :=
  w.exec.any fun g =>
    g.id != f.id && (scrCheck s g (scrOffset w.enc g) (stBytes z) false).isNone && scrOffset w.enc g ≤ o &&
      o < scrOffset w.enc g + (stBytes z)

/-- One lane of `sts` (R142). Bytes that several lanes write are the crew's at once, the highest lane's last. -/
def stsLane (w : Issue) (z : StSize) (s : State) (f : Fibre) : State :=
  let o := scrOffset w.enc f
  match scrCheck s f o (stBytes z) false with
  | some c => parkScr s f c o
  | none =>
    let all := (List.range (stBytes z)).zip (storeBytes w.enc z f)
    let both := all.filter fun p => contested w z s f (o + p.1)
    let s1 := scrWrite (scrGood s f.crew o (stBytes z)) f.id o (all.filter fun p => !contested w z s f (o + p.1))
    let s2 := s1.setFibre f.id fun g => { g with scr := g.scr.filter fun q => !(both.any fun p => o + p.1 == q.1) }
    s2.setCrew f.crew fun c => { c with scratch := memWriteAt c.scratch o both }

/-- `sts` (R142). -/
def execSts (z : StSize) (f : LF) (s : State) : Host.Outcome State Fault Refusal :=
  scrIssue (.sts z f) s (touchScr (stBytes z)) fun w => stsLane w z

/-- The offset of element `k` of `sldt` (R144). -/
def sldtOffset (lrs xw o k : Nat) : Nat :=
  let q := (o + k * 2 ^ lrs) % 2 ^ 32
  let row := q / 2 ^ lrs
  row * 2 ^ lrs + ((q % 2 ^ lrs) ^^^ ((row % 2 ^ xw) * 4))

/-- The offsets of the elements of `sldt` (R144). -/
def sldtOffsets (e : Enc) (f : Fibre) : List Nat :=
  (List.range (if modOf e % 2 == 0 then 2 else 4)).map
    (sldtOffset (imm16Of e % 16) (natBits (imm16Of e) 6 4) (f.src (aField e)).toNat)

/-- One lane of `sldt` (R144): its halfwords are loads of their own (R203). -/
def sldtLane (w : Issue) (s : State) (f : Fibre) : State :=
  let e := w.enc
  let o := (f.src (aField e)).toNat
  let n := if modOf e % 2 == 0 then 2 else 4
  let ps := sldtOffsets e f
  if o % 2 != 0 then parkScr s f 0x40 o
  else if ps.any fun p => scrBytes s f < p + 2 then parkScr s f 0x46 o
  else if ps.any fun p => scrEcc s f p 2 then parkScr s f 0x48 o
  else
    let one (r : State × List Byte) (p : Nat) : State × List Byte :=
      let t := scrPeek r.1 f p 2
      (t, r.2 ++ scrRead t ((t.fibre? f.id).getD f) p 2)
    let r := ps.foldl one (s, [])
    match destOf e f (n / 2) 0 none with
    | some d => r.1.setFibre f.id fun g => g.setRegs (landWords d r.2)
    | none => r.1

/-- `sldt` (R144). -/
def execSldt (f : LF) (s : State) : Host.Outcome State Fault Refusal :=
  scrIssue (.sldt f) s (fun w l => (sldtOffsets w.enc l).map fun p => (p, 2)) sldtLane

/-- Pending writes of every fibre of the crew to these bytes reach the scratchpad. -/
def scrFlushAt (s : State) (f : Fibre) (o n : Nat) : State :=
  let other (g : Fibre) : Bool := g.crew == f.crew && g.id != f.id && g.scr.any fun p => o ≤ p.1 && p.1 < o + n
  scrFlush (((s.fibres.filter other).map (·.id)).foldl scrFlush s) f.id

/-- One lane of `atoms` (R142): a read-modify-write of the crew's scratchpad. -/
def atomsLane (w : Issue) (op : AtomOp) (s : State) (f : Fibre) : State :=
  let e := w.enc
  let wide := atomIsWide op e
  let n := if wide then 8 else 4
  let o := scrOffset e f
  match scrCheck s f o n true with
  | some c => parkScr s f c o
  | none =>
    let s1 := scrFlushAt s f o n
    let old := scrRead s1 ((s1.fibre? f.id).getD f) o n
    match opNew (.atom op (BitVec.ofNat 2 (modOf e / 4)) wide (atomArg wide f (bField e)) (atomArg wide f (cField e)))
        (bytesNat old) with
    | none => s1
    | some new =>
      let s2 := (scrGood s1 f.crew o n).setCrew f.crew fun c => { c with scratch := memWrite c.scratch o (natBytes n new) }
      match destOf e f (if wide then 2 else 1) 0 none with
      | some d => s2.setFibre f.id fun g => g.setRegs (landWords d old)
      | none => s2

/-- `atoms` (R142). -/
def execAtoms (z : AtomOp) (f : LF) (s : State) : Host.Outcome State Fault Refusal :=
  scrIssue (.atoms z f) s (fun w => touchScr (if atomIsWide z w.enc then 8 else 4) w) fun w => atomsLane w z

/-! ### Prefetch -/

/-- One lane of `pf` (R145): with MOD[44] the line may be filled into L1, unless a check fails, the line is scrub-pending or the view is not
selector 0; the hardware may drop it. -/
def pfLane (w : Issue) (s : State) (f : Fibre) : State :=
  let va := effAddr w.enc f
  let r := checkAddr s f va 0 .read
  match r.1 with
  | .ok spa none =>
    if modOf w.enc % 2 == 1 && spa / 2 ^ 49 == 0 && !s.marked spa then
      let c := choose r.2 2
      if c.1 == 0 then l1Fill c.2 (s.fibreCore f) (s.fibreAsid f) va.toNat spa else c.2
    else r.2
  | _ => r.2

/-- `pf` (R145). -/
def execPf (f : LF) (s : State) : Host.Outcome State Fault Refusal :=
  issue (.pf f) s fun w s => memIssue w s (fun l => [((effAddr w.enc l).toNat / 64 * 64, 64)]) (pfLane w)

end Sys2Proof.Machine
end

