-- ==== Sys2Proof/Machine/Copies.lean ====
section
/-! DEFINITION. Meanings: per-fibre copies and their tags, bulk copies, leases (spec/08 R150 to R164). -/

namespace Sys2Proof.Machine

/-! ### Shared operations -/

/-- A result in each lane of `exec` of an instruction that is a switch point (R46). -/
def switchDone (w : Issue) (s : State) (writes : Fibre → List (Nat × Word)) : State :=
  let go (f : Fibre) : Fibre :=
    let g := if w.ids.contains f.id then f.setRegs (writes f) else f
    { g.voidLatches with pc := nextPc w.enc f }
  { s with fibres := mapIf (fun f => w.allIds.contains f.id && !f.status.isParked) go s.fibres }

/-- A register that an asynchronous result will write becomes busy (R50, R225). -/
def oweReg (s : State) (f : Fibre) (e : Enc) (words : Nat) (isTime : Bool) (val : Option DWord) : State :=
  let ref := s.nextId
  let s1 := { s with nextId := s.nextId + 1 }
  match dField e with
  | some d =>
    markBusy { s1 with owed := s1.owed ++ [⟨ref, f.id, d, words, isTime, val, none⟩] } f.id ((List.range words).map (d + ·)) ref
  | none => s1

/-- The waiter of an engine operation of a lane: its token register, busy from now on (R50). -/
def tokenOf (s : State) (f : Fibre) (e : Enc) : Waiter × State :=
  match dField e with
  | some d => (.token f.id d s.nextId, markBusy { s with nextId := s.nextId + 1 } f.id [d] s.nextId)
  | none => (.nobody, s)

/-- The lanes of an engine instruction in ascending order (R160, R165): a lane that fails its check parks; the others are accepted while
there is room; the rest of the cohort waits at the instruction with what has been accepted (log 66, DEDUCED). -/
def engineLanes (s : State) (check : State → Fibre → Option Trap) (accept : State → Fibre → Option State) :
    List Fibre → State × Bool
  | [] => (s, true)
  | f :: fs =>
    match check s f with
    | some t => engineLanes (softPark s f.id t) check accept fs
    | none =>
      match accept s f with
      | none => (s, false)
      | some s1 => engineLanes (s1.setFibre f.id fun g => { g with status := .heldIssue }) check accept fs

/-- The lanes of one cohort that have been accepted go on together with those guarded off. -/
def engineGo (w : Issue) (s : State) : State :=
  let go (f : Fibre) : Fibre := { f.voidLatches with status := .ready, pc := nextPc w.enc f }
  let num := (s.cur.map (·.num)).getD 0
  { s with fibres := mapIf (fun f => f.cohort == num && (decide (f.status = .heldIssue) || w.offIds.contains f.id)) go s.fibres }

/-- An engine instruction; lanes that find no room still stand at it with what it reads (R47). -/
def engineIssue (w : Issue) (s : State) (check : State → Fibre → Option Trap) (accept : State → Fibre → Option State) :
    State :=
  let r := engineLanes s check accept (byLane w.exec)
  if r.2 then engineGo w r.1
  else keepLatches (w.exec.filter fun f => ((r.1.fibre? f.id).map (·.status.isReady)).getD false) r.1

/-! ### Per-fibre copies -/

/-- A fibre's tag counter: its copies under the tag that have not been credited (R152). -/
def Fibre.tag (f : Fibre) (n : Nat) : Nat := (f.copies.filter (·.tag == n)).length

/-- Bytes of a `cpa` (R150). -/
def cpaSize (e : Enc) : Nat := 4 * 2 ^ (modOf e % 4)
/-- Its tag. -/
def cpaTag (e : Enc) : Nat := natBits (imm16Of e) 14 12
/-- Its valid bytes (R151). -/
def cpaValid (e : Enc) (f : Fibre) : Nat := if cField e == 63 then cpaSize e else min (f.src (cField e)).toNat (cpaSize e)

/-- Send a copy: counted under its tag, it will write the scratchpad when it lands (R151). The fibre's earlier writes to its bytes reach the scratchpad
first (R226). -/
def sendCpa (s : State) (f : Fibre) (e : Enc) (va : DWord) (spa : Nat) (dev : Option Nat) (o v : Nat) : State :=
  let a := fibreAccess s f va spa dev false (.read v) none 0 0
  let b := { a with cpa := true, scrOff := o, scrLen := cpaSize e, resp := if v == 0 then .ok [] [] [] else .none }
  (scrShow (sendAccess s b) f.id o (cpaSize e)).setFibre f.id fun g => { g with copies := g.copies ++ [⟨cpaTag e, b.ref, false, []⟩] }

/-- One lane of `cpa` (R151). -/
def cpaLane (w : Issue) (s : State) (f : Fibre) : State :=
  let e := w.enc
  let o := (f.src (bField e)).toNat
  let v := cpaValid e f
  let va := effAddr e f
  if o % cpaSize e != 0 then parkScr s f 0x40 o
  else if scrBytes s f < o + cpaSize e then parkScr s f 0x46 o
  else if v == 0 then sendCpa s f e va 0 none o 0
  else
    let r := checkAddr s f va (cpaSize e) .read
    match r.1 with
    | .bad t => park r.2 f.id t
    | .nonres => parkAddr r.2 f 0x42 va
    | .held => parkAddr r.2 f 0x42 va
    | .ok spa dev => if 5 ≤ spa / 2 ^ 49 then parkAddr r.2 f 0x44 va else sendCpa r.2 f e va spa dev o v

/-- `cpa` (R150, R151); a lane whose counter stands at 63 holds the cohort. -/
def execCpa (f : LF) (s : State) : Host.Outcome State Fault Refusal :=
  issueWhen (.cpa f) s (fun ls => ls.all fun l => l.tag (natBits f.imm16.toNat 14 12) < 63) fun w s => memIssue w s (fun l => touchAt w.enc (cpaValid w.enc l) l) (cpaLane w)

/-- Whether a lane that waits in `cpw` may go on. -/
def tagMet (f : Fibre) : Bool :=
  match f.status with
  | .waitTag t n true => f.tag t ≤ n
  | .waitTag _ _ false => true
  | _ => false

/-- Whether a fibre is held in `cpw`. -/
def FStatus.isWaitTag : FStatus → Bool
  | .waitTag _ _ _ => true
  | _ => false

/-- A fibre has seen credits: they are an acquire at `.pkg` of what the copies have read (R260). -/
def seeCredit (s : State) (id : Nat) : State :=
  match s.fibre? id with
  | some f => setAcquire ((s.teach id f.credit).setFibre id fun g => { g with credit := [] }) id
  | none => s

/-- The release of `cpw` (R153): the lanes of a cohort that wait in it go on together once each has its condition. -/
def cpwEval (s : State) (cohort : Nat) : State :=
  let ls := s.fibres.filter fun f => f.cohort == cohort && f.status.isWaitTag
  let seen (f : Fibre) : Bool := match f.status with
    | .waitTag _ _ counts => counts
    | _ => false
  if !ls.isEmpty && ls.all tagMet then
    ((ls.filter seen).map (·.id)).foldl seeCredit (s.setFibres (ls.map (·.id)) fun f => { f.voidLatches with status := .ready, pc := f.pc + 4 })
  else s

/-- `cpw` (R153): the cohort is held until in every lane of `exec` the counter is at most n. -/
def execCpw (f : WF) (s : State) : Host.Outcome State Fault Refusal :=
  issue (.cpw f) s fun w s =>
    let n := f.a.toNat
    let hold (l : Fibre) : Fibre :=
      { l.voidLatches with status := .waitTag f.d.toNat n (w.ids.contains l.id) }
    match w.allIds.head?.bind s.fibre? with
    | some l => cpwEval (s.setFibres w.allIds hold) l.cohort
    | none => s

/-- `cpq` (R154). -/
def execCpq (f : WF) (s : State) : Host.Outcome State Fault Refusal :=
  issue (.cpq f) s fun w s => w.ids.foldl seeCredit <| switchDone w s fun l => (out32 w.enc (BitVec.ofNat 32 (l.tag f.a.toNat))).writes

/-! ### Copy descriptors -/

/-- The fields of a copy descriptor (R158). -/
def copyDescOf (n : Nat) : CopyDesc :=
  { siga := BitVec.ofNat 64 (natBits n 383 320), node := natBits n 319 288, lease := natBits n 287 256,
    dstride := natBits n 255 224, sstride := natBits n 223 192, chan := natBits n 182 181, ck := natBits n 180 179,
    skind := natBits n 178 178, dkind := natBits n 177 176, rows := natBits n 175 160, rbytes := natBits n 159 128,
    dst := BitVec.ofNat 64 (natBits n 127 64), src := BitVec.ofNat 64 (natBits n 63 0) }

/-- The end of one side of a copy. -/
def sideEnd (d : CopyDesc) (base : DWord) (stride : Nat) : Nat := base.toNat + (d.rows - 1) * stride + d.rbytes

/-- Bytes of a core's B-store (R231). -/
def bstoreBytes : Nat := 2 ^ 23

/-- Check 2 of R159; `scr` is the size of the scratchpad the offsets refer to, `inGraph` whether the copy belongs to a graph node. -/
def copyDescBad (n scr : Nat) (inGraph : Bool) : Bool :=
  let d := copyDescOf n
  natBits n 511 384 != 0 || natBits n 191 183 != 0 || (d.ck != 2 && d.siga != 0) || (d.ck != 1 && d.node != 0) ||
  (d.dkind != 3 && d.lease != 0) || (d.skind == 1 && 2 ^ 32 ≤ d.src.toNat) || (d.dkind != 0 && 2 ^ 32 ≤ d.dst.toNat) ||
  d.ck == 3 || d.rows == 0 || d.rbytes == 0 || 2 ^ 40 < d.rows * d.rbytes ||
  (d.ck == 2 && (d.siga == 0 || d.siga.toNat % 8 != 0)) || (d.ck == 1 && !inGraph) || (d.dkind == 3 && d.lease == 0) ||
  ((d.dkind == 1 || d.dkind == 2) && (d.dst.toNat % 4 != 0 || d.dstride % 4 != 0 || d.rbytes % 4 != 0)) ||
  (d.skind == 1 && (d.src.toNat % 4 != 0 || d.sstride % 4 != 0 || d.rbytes % 4 != 0)) ||
  (d.dkind == 1 && scr < sideEnd d d.dst d.dstride) || (d.skind == 1 && scr < sideEnd d d.src d.sstride) ||
  (d.dkind == 2 && bstoreBytes < sideEnd d d.dst d.dstride)

/-! ### Copy channels -/

/-- A copy channel: 4 x cluster + channel. -/
def State.channel (s : State) (n : Nat) : Channel := (s.channels.find? (·.num == n)).getD ⟨n, [], []⟩

def State.setChannel (s : State) (n : Nat) (f : Channel → Channel) : State :=
  { s with channels := setOr (·.num == n) f ⟨n, [], []⟩ s.channels }

/-- The entries a channel has accepted, at most 64 (R160, R299). -/
def Channel.accepted (c : Channel) : Nat := (c.entries.filter (·.accepted)).length

/-- Put an entry at the end of a channel: accepted while there is room, else waiting (R299). -/
def pushEntry (s : State) (chan : Nat) (e : ChanEntry) : State :=
  s.setChannel chan fun c => { c with entries := c.entries ++ [{ e with accepted := c.accepted < 64 && c.entries.all (·.accepted) }] }

/-- A record of 64 bytes in the scratchpad, as a fibre sees it. -/
def scrRecord (s : State) (f : Fibre) (o : Nat) : Nat := bytesNat (scrRead s f o 64)

/-- Check 1 of R159: a record of 64 bytes in the scratchpad, which can be read (R228, R246). -/
def recordCheck (s : State) (f : Fibre) (o : Nat) : Option Nat :=
  if o % 64 != 0 then some 0x40 else if scrBytes s f < o + 64 then some 0x46 else if scrEcc s f o 64 then some 0x48 else none

/-- Whether the fibre's grid runs as a graph node. -/
def inGraph (s : State) (f : Fibre) : Bool :=
  match s.fibreGrid f with
  | some g => (match g.src with | .node _ _ => true | _ => false)
  | none => false

/-- Whether the lane's grid records in detail (R311). -/
def detailOf (s : State) (f : Fibre) : Bool := ((s.fibreGrid f).map (·.detail)).getD false

/-- The checks of `bcopy` (R159) (log 74, DEDUCED). -/
def bcopyCheck (e : Enc) (s : State) (f : Fibre) : Option Trap :=
  let o := (f.src (aField e)).toNat
  match recordCheck s f o with
  | some c => some (scrTrap f c o)
  | none => if copyDescBad (scrRecord s f o) (scrBytes s f) (inGraph s f) then some (Trap.here 0x51 f.pc) else none

/-- A lane's bulk copy enters its channel (R160), if there is room. -/
def bcopyAccept (e : Enc) (s : State) (f : Fibre) : Option State :=
  let d := copyDescOf (scrRecord s f (f.src (aField e)).toNat)
  let core := s.fibreCore f
  let chan := 4 * coreCluster core + d.chan
  if 64 ≤ (s.channel chan).entries.length then none
  else
    let t := tokenOf (scrFlush s f.id) f e
    some (pushEntry (issueClock { t.2 with nextId := t.2.nextId + 1 } f t.2.nextId) chan
      { id := t.2.nextId, kind := .copy d, vf := s.fibreVf f, asid := s.fibreAsid f, core := core, crew := some f.crew, owner := some f.crew,
        op := s.fibreOp f, waiter := t.1, detail := detailOf s f, accepted := true, started := false,
        row := 0, status := 0, outstanding := [], tmpl := none })

/-- `bcopy` (R157 to R160). -/
def execBcopy (f : LF) (s : State) : Host.Outcome State Fault Refusal :=
  issue (.bcopy f) s fun w s => engineIssue w s (bcopyCheck w.enc) (bcopyAccept w.enc)

/-! ### Leases -/

/-- The physical pages of a range, if every page translates to view selector 0 of this package's memory outside the coherent window (R163). -/
def leasePages (s : State) (vf asid va pages : Nat) : Option (List Nat) :=
  if 2 ^ 57 < va + 4096 * pages then none
  else (List.range pages).mapM fun i =>
    match translateWalk s vf asid (va + 4096 * i) .read with
    | .ok spa none => match s.place spa with | .hbm _ _ => some spa | _ => none
    | _ => none

/-- Bytes of some pages that lie in the stack-cache slice of a stack's channel (R234). -/
def sliceBytes (s : State) (pages : List Nat) (stack ch : Nat) : Nat :=
  1024 * ((pages.flatMap fun p => (List.range 4).map fun i => p + 1024 * i).filter fun g =>
    match s.place g with | .hbm st t => st == stack && s.channelNow st t == ch | _ => false).length

/-- Bytes of some pages on a stack. -/
def stackBytes (s : State) (pages : List Nat) (stack : Nat) : Nat :=
  4096 * (pages.filter fun p => match s.place p with | .hbm st _ => st == stack | _ => false).length

/-- The pages a lease pins: a re-layout has unpinned those of its stack (R242). -/
def pinnedPages (s : State) (l : Lease) : List Nat :=
  l.pages.filter fun p => match s.place p with
    | .hbm st _ => !l.unpinned.contains st
    | _ => false

/-- Whether a slice would hold more than 1 MiB pinned (R242); lines that several leases pin count once. -/
def leaseNoSpace (s : State) (pages : List Nat) : Bool :=
  let all := distinct (pages ++ s.leases.flatMap (pinnedPages s))
  s.dev.profile == 3 || pages.any fun p => match s.place p with
    | .hbm st _ => (List.range 32).any fun ch => sliceBytes s pages st ch != 0 && 2 ^ 20 < sliceBytes s all st ch
    | _ => false

/-- Whether the function's quota is spent (R163). -/
def leaseQuota (s : State) (vf : Nat) (pages : List Nat) : Bool :=
  let mine := s.leases.filter (·.vf == vf)
  let q := match s.fn? vf with | some f => (f.quotaLeases, f.quotaLeaseBytes) | none => (256, 2 ^ 23)
  q.1 ≤ mine.length || (List.range 16).any fun st =>
    stackBytes s pages st != 0 && q.2 < stackBytes s (pages ++ mine.flatMap (·.pages)) st

/-- An identifier that names no live lease of the function: a free one of the 2^24 - 1 (R163) (log 65, DESIGN CHOICE). -/
def leaseId (s : State) (vf : Nat) : Nat × State :=
  let used := (s.leases.filter (·.vf == vf)).map (·.id)
  let c := choose s (2 ^ 24 - 1)
  if used.contains (c.1 + 1) then
    ((((List.range (used.length + 1)).map (· + 1)).find? fun n => !used.contains n).getD 1, c.2)
  else (c.1 + 1, c.2)

/-- What the homes answer to `lease` (R163): the lease word. Which status stands where several apply is not stated: BADARG, XLATE, QUOTA, NOSPACE in this
order (log 132, DESIGN CHOICE). -/
def grantLease (s : State) (vf asid : Nat) (va : DWord) (bytes us : Nat) : Nat × State :=
  if bytes % 4096 != 0 || bytes == 0 || 2 ^ 24 < bytes then (4 * 2 ^ 24, s)
  else
    match leasePages s vf asid va.toNat (bytes / 4096) with
    | none => (2 * 2 ^ 24, s)
    | some pages =>
      if leaseQuota s vf pages then (3 * 2 ^ 24, s)
      else if leaseNoSpace s pages then (2 ^ 24, s)
      else
        let n := leaseId s vf
        (n.1, { n.2 with leases := n.2.leases ++ [⟨n.1, vf, asid, va, bytes, pages, s.time.dtc + usTicks us, []⟩] })

/-- One lane of `lease` (R163). -/
def leaseLane (w : Issue) (us : Nat) (s : State) (f : Fibre) : State :=
  let va := f.src64 (aField w.enc)
  if va.toNat % 4096 != 0 then parkAddr s f 0x40 va
  else
    let g := grantLease s (s.fibreVf f) (s.fibreAsid f) va (f.src (bField w.enc)).toNat us
    oweReg g.2 f w.enc 1 false (some (BitVec.ofNat 64 g.1))

/-- `lease` (R163). -/
def execLease (f : LF) (s : State) : Host.Outcome State Fault Refusal :=
  issue (.lease f) s fun w s => memLanes w s (leaseLane w f.imm16.toNat)

/-- `unlease` (R164): the lease the word names ends, if it is a live one of the function. -/
def execUnlease (f : WF) (s : State) : Host.Outcome State Fault Refusal :=
  issue (.unlease f) s fun w s => memLanes w s fun s l =>
    { s with leases := s.leases.filter fun x => !(x.vf == s.fibreVf l && x.id == (l.src f.a.toNat).toNat) }

end Sys2Proof.Machine
end

