-- ==== Sys2Proof/Machine/Matrix.lean ====
section
/-! DEFINITION. Tile tasks and accumulator operations: records, checks, what a chunk and a row operation do, and the meanings that queue
them (spec/08 R165 to R174; spec/05 R103 to R105). -/

namespace Sys2Proof.Machine

/-! ### Tile-task records -/

/-- The fields of a tile-task record (R166). -/
def tileRecOf (n : Nat) : TileRec :=
  { xmask := natBits n 389 384, bsgs := natBits n 383 352, bsbase := natBits n 351 320, bcs := natBits n 319 288,
    bbase := natBits n 287 256, asrs := natBits n 255 224, asbase := natBits n 223 192, acs := natBits n 191 160,
    ars := natBits n 159 128, abase := natBits n 127 96, kv := natBits n 95 64, n := natBits n 49 42, m := natBits n 41 32,
    arb := natBits n 24 16, init := n.testBit 12, gb := natBits n 11 10, ga := natBits n 9 8, fmtb := natBits n 7 4,
    fmta := natBits n 3 0 }

/-- Number of chunks (R167). -/
def tileChunks (t : TileRec) : Nat := ceilDiv t.kv (chunkClass t.fmta)

/-- Elements of chunk `j` that are read (R168). -/
def chunkElems (t : TileRec) (j : Nat) : Nat := min (chunkClass t.fmta) (t.kv - j * chunkClass t.fmta)

/-- Bytes of chunk `j` that hold its elements read, for a format. -/
def chunkSpan (t : TileRec) (fmt j : Nat) : Nat := ceilDiv (chunkElems t j * elemWidth fmt) 8

/-- The scratchpad byte of byte `b` of chunk `j` of A's row `m`: its 16-byte piece is exchanged under XMASK (R168). -/
def aByte (t : TileRec) (m j b : Nat) : Nat :=
  let q := t.abase + m * t.ars + j * t.acs + b
  (q / 16 * 16) ^^^ ((m &&& t.xmask) * 16) ||| (q % 16)

/-- The B-store byte of byte `b` of chunk `j` of B's column `n` (R168). -/
def bByte (t : TileRec) (n j b : Nat) : Nat := t.bbase + j * t.bcs + n * chunkBytes t.fmtb + b

/-- Scale groups along K that are read, for a side. -/
def scaleGroups (t : TileRec) (fmt g : Nat) : Nat := if scaleBytes fmt == 0 then 0 else ceilDiv t.kv (scaleGroup fmt g)

/-- Offset of the A scale of row `m`, group `g` (R168). -/
def aScale (t : TileRec) (m g : Nat) : Nat := t.asbase + m * t.asrs + g * scaleBytes t.fmta
/-- Offset of the B scale of column `n`, group `g` (R168). -/
def bScale (t : TileRec) (n g : Nat) : Nat := t.bsbase + g * t.bsgs + n * scaleBytes t.fmtb

/-- Check 2 of R169: every zero field zero. -/
def tileZeroBad (n : Nat) : Bool :=
  natBits n 511 390 != 0 || natBits n 63 50 != 0 || natBits n 31 25 != 0 || natBits n 15 13 != 0

/-- One side's group field and scale fields under R167. -/
def tileSideBad (fmt g sbase sstride : Nat) : Bool :=
  (if isIntCode fmt then g == 3 else g != 0) || (scaleBytes fmt == 0 && (sbase != 0 || sstride != 0))

/-- Check 3: formats, classes, group fields (R167). -/
def tileFmtBad (t : TileRec) : Bool :=
  !matrixCode t.fmta || !matrixCode t.fmtb || chunkClass t.fmta != chunkClass t.fmtb ||
  tileSideBad t.fmta t.ga t.asbase t.asrs || tileSideBad t.fmtb t.gb t.bsbase t.bsgs

/-- Check 4: dimensions. -/
def tileDimBad (t : TileRec) : Bool :=
  t.m == 0 || 512 < t.m || t.n == 0 || 128 < t.n || t.kv == 0 || 2 ^ 20 < t.kv || 512 < t.arb + t.m

/-- Check 5: alignment. -/
def tileAlignBad (t : TileRec) : Bool :=
  t.abase % 16 != 0 || t.ars % 16 != 0 || t.acs % 16 != 0 || t.bbase % 32 != 0 || t.bcs % 32 != 0 ||
  (isIntCode t.fmta && (t.asbase % 4 != 0 || t.asrs % 4 != 0)) || (isIntCode t.fmtb && (t.bsbase % 4 != 0 || t.bsgs % 4 != 0))

/-- Check 6: every A byte and A scale read lies in the scratchpad. -/
def tileABad (t : TileRec) (scr : Nat) : Bool :=
  (List.range t.m).any fun m =>
    ((List.range (tileChunks t)).any fun j => (List.range (chunkSpan t t.fmta j)).any fun b => scr ≤ aByte t m j b) ||
    (List.range (scaleGroups t t.fmta t.ga)).any fun g => scr < aScale t m g + scaleBytes t.fmta

/-- Check 7: every B byte and B scale read lies in the B-store. -/
def tileBBad (t : TileRec) : Bool :=
  (List.range t.n).any fun n =>
    ((List.range (tileChunks t)).any fun j => bstoreBytes < bByte t n j (chunkSpan t t.fmtb j)) ||
    (List.range (scaleGroups t t.fmtb t.gb)).any fun g => bstoreBytes < bScale t n g + scaleBytes t.fmtb

/-- Checks 2 to 7 of R169, for a scratchpad of that many bytes. -/
def tileCheck (n scr : Nat) : Option Nat :=
  let t := tileRecOf n
  if tileZeroBad n then some 0x60
  else if tileFmtBad t then some 0x61
  else if tileDimBad t then some 0x62
  else if tileAlignBad t then some 0x63
  else if tileABad t scr then some 0x64
  else if tileBBad t then some 0x65
  else none

/-! ### What a queued operation does -/

/-- The scratchpad an operation works in: its crew's, or the core's node scratchpad (R172). -/
def opScratch (s : State) (core : Nat) (o : MxOp) : List Host.Cell :=
  match o.crew with
  | some c => ((s.crew? c).map (·.scratch)).getD []
  | none => (s.core core).nodeScratch

/-- The offset in core SRAM of that scratchpad. -/
def opScrBase (s : State) (o : MxOp) : Nat :=
  match o.crew with
  | some c => ((s.crew? c).map (·.scrBase)).getD 0
  | none => o.scrBase

/-- Write bytes of the scratchpad an operation works in. -/
def opScrWrite (s : State) (core : Nat) (o : MxOp) (off : Nat) (bs : List Byte) : State :=
  match o.crew with
  | some c => s.setCrew c fun c => { c with scratch := memWrite c.scratch off bs }
  | none => s.setCore core fun c => { c with nodeScratch := memWrite c.nodeScratch (o.scrBase + off) bs }

/-- Byte of the scratchpad an operation works in. -/
def opScrGet (s : State) (core : Nat) (o : MxOp) (off : Nat) : Byte :=
  match o.crew with
  | some _ => memGet (opScratch s core o) off
  | none => memGet (opScratch s core o) (o.scrBase + off)

/-- An accumulator element: row x 128 + column (R231). -/
def accGet (c : Core) (r n : Nat) : Word := ((c.acc.find? (·.1 == r * 128 + n)).map (·.2)).getD 0

/-- Write an accumulator element; a zero is not listed (log 68, DEDUCED). Of a word that ECC cannot correct the other element stays bad (R231). -/
def accSet (c : Core) (r n : Nat) (v : Word) : Core :=
  let rest := c.acc.filter (·.1 != r * 128 + n)
  { c with acc := if v == 0 then rest else (r * 128 + n, v) :: rest, eccAcc := c.eccAcc.filter (· != r * 128 + n) }

/-- The elements of one side of a chunk as values after their zero points, their number padded with zeros, from packed bytes. -/
def sideElems (fmt cnt : Nat) (bytes : List Byte) (zp : Nat → Int) : List FVal :=
  let n := bytesNat bytes
  (List.range cnt).map fun i =>
    let code := packedElem (elemWidth fmt) i n
    if isIntCode fmt then .ofInt false (intElem fmt code - zp i) 1 else (codeFmt fmt).dec code

/-- The scale value of a side and whether its record is refused (R96, R170). -/
def scaleOf (fmt : Nat) (rec : Nat) : FVal × Bool :=
  if scaleBytes fmt == 0 then (.fin false 1 1, false)
  else if isIntCode fmt then (Fmt.f16.dec (rec % 2 ^ 16), recordRefused fmt rec)
  else (e8m0 (rec % 256), false)

/-- Whether an uncorrectable word feeds element (m, n) of chunk `j`: through B, A, a scale or the accumulator (R231). -/
def tileEcc (c : Core) (scrBase : Nat) (t : TileRec) (m n j : Nat) : Bool :=
  let kc := chunkClass t.fmta
  let inB (a : Nat) : Bool := c.eccB.contains (a / 8)
  let inA (a : Nat) : Bool := c.eccScr.contains ((scrBase + a) / 8)
  (List.range (chunkSpan t t.fmtb j)).any (fun b => inB (bByte t n j b)) ||
  (List.range (chunkSpan t t.fmta j)).any (fun b => inA (aByte t m j b)) ||
  (scaleBytes t.fmta != 0 && (List.range (chunkElems t j)).any fun k => inA (aScale t m ((j * kc + k) / scaleGroup t.fmta t.ga))) ||
  (scaleBytes t.fmtb != 0 && (List.range (chunkElems t j)).any fun k => inB (bScale t n ((j * kc + k) / scaleGroup t.fmtb t.gb))) ||
  c.eccAcc.contains ((t.arb + m) * 128 + n)

/-- The segments of chunk `j` for element (m, n) (R103, R168). -/
def tileSegs (s : State) (core : Nat) (o : MxOp) (t : TileRec) (m n j : Nat) : List MxSeg :=
  let kc := chunkClass t.fmta
  let cnt := chunkElems t j
  let aRec (k : Nat) : Nat := bytesNat ((List.range (scaleBytes t.fmta)).map fun i =>
    opScrGet s core o (aScale t m ((j * kc + k) / scaleGroup t.fmta t.ga) + i))
  let bRec (k : Nat) : Nat := memNat (s.core core).bstore (bScale t n ((j * kc + k) / scaleGroup t.fmtb t.gb)) (scaleBytes t.fmtb)
  let as := sideElems t.fmta cnt ((List.range (chunkSpan t t.fmta j)).map fun b => opScrGet s core o (aByte t m j b))
    fun k => recordZp (aRec k)
  let bs := sideElems t.fmtb cnt (memRead (s.core core).bstore (bByte t n j 0) (chunkSpan t t.fmtb j)) fun k => recordZp (bRec k)
  let seg := if kc < 32 then kc else 32
  (List.range (ceilDiv cnt seg)).map fun g =>
    let sa := scaleOf t.fmta (aRec (g * seg))
    let sb := scaleOf t.fmtb (bRec (g * seg))
    { pairs := ((as.zip bs).drop (g * seg)).take seg, scaleA := sa.1, scaleB := sb.1, refused := sa.2 || sb.2 }

/-- An uncorrectable word of a matrix store is met (R231, R368): it is counted; a second time within 24 hours takes the core out of service. `key`: the
word of the B-store, or 2^20 + the word of the accumulator store. -/
def softReport (s : State) (core key : Nat) : State :=
  let again := s.softErrs.any fun x => x.core == core && x.off == key && s.time.dtc ≤ x.dtc + 86400 * usTicks 1000000
  let s1 := healthAdd { s with softErrs := s.softErrs ++ [⟨core, key, s.time.dtc⟩] } 5
  if again then s1.setCore core fun c => { c with outOfService := true } else s1

/-- An uncorrectable word of the scratchpad is met by a tile task or an `accld` (R231): it is counted. -/
def scrReport (s : State) (bad : Bool) : State := if bad then healthAdd s 3 else s

/-- The uncorrectable words of the matrix stores that a chunk of a tile task meets. -/
def softMet (s : State) (core : Nat) (o : MxOp) (t : TileRec) (j : Nat) : List Nat :=
  let c := s.core core
  let cells := (List.range t.m).flatMap fun m => (List.range t.n).map fun n => (m, n)
  let feeds (c : Core) : Bool := cells.any fun p => tileEcc c (opScrBase s o) t p.1 p.2 j
  (c.eccB.filter fun w => feeds { c with eccB := [w], eccScr := [], eccAcc := [] }) ++
  distinct ((c.eccAcc.filter fun w => feeds { c with eccB := [], eccScr := [], eccAcc := [w] }).map (2 ^ 20 + · / 2))

/-- Whether such a chunk meets one of the scratchpad. -/
def scrMet (s : State) (core : Nat) (o : MxOp) (t : TileRec) (j : Nat) : Bool :=
  let c := { s.core core with eccB := [], eccAcc := [] }
  (List.range t.m).any fun m => (List.range t.n).any fun n => tileEcc c (opScrBase s o) t m n j

/-- Chunk `j` of a tile task: every element of its tile is updated once (R103, R170); an element that an uncorrectable word feeds becomes
NaN (R231). -/
def tileChunk (s : State) (core : Nat) (o : MxOp) (t : TileRec) (j : Nat) : State :=
  let cells := (List.range t.m).flatMap fun m => (List.range t.n).map fun n => (m, n)
  let segsOf (p : Nat × Nat) : List MxSeg := tileSegs s core o t p.1 p.2 j
  let val (p : Nat × Nat) : Word :=
    if tileEcc (s.core core) (opScrBase s o) t p.1 p.2 j then 0x7FC00000
    else BitVec.ofNat 32 (mxUpdate (accGet (s.core core) (t.arb + p.1) p.2).toNat (segsOf p))
  let skipped := cells.all fun p => mxSkipped (segsOf p)
  let vals := cells.map fun p => (p, val p)
  perfAdd (s.setCore core fun c => vals.foldl (fun c v => accSet c (t.arb + v.1.1) v.1.2 v.2) c) core (if skipped then 13 else 12) 1

/-- Set the tile's rows to +0 (INIT, `accz`). -/
def accZero (s : State) (core r0 m n : Nat) : State :=
  s.setCore core fun c =>
    ((List.range m).flatMap fun i => (List.range n).map fun k => (r0 + i, k)).foldl (fun c p => accSet c p.1 p.2 0) c

/-- Perform chunks `j` up to `k` of a task; the first one comes after INIT. -/
def tileRun (s : State) (core : Nat) (o : MxOp) (t : TileRec) (j : Nat) : Nat → State
  | 0 => s
  | k + 1 =>
    let s1 := if j == 0 && t.init then accZero s core t.arb t.m t.n else s
    tileRun ((softMet s1 core o t j).foldl (fun s w => softReport s core w) (scrReport (tileChunk s1 core o t j) (scrMet s1 core o t j))) core o t (j + 1) k

/-- Bytes of an output format of `accdrain` (R173). -/
def drainSize (fmt : Nat) : Nat := if fmt == 0 || fmt == 4 then 4 else if fmt ≤ 2 then 2 else 1

/-- One element of a drain (R105, R173, R174): the scaled exact value, rounded once. -/
def drainElem (fmt mode : Nat) (sat : Bool) (scale : Option Nat) (a : Word) : Nat :=
  let v := Fmt.f32.dec a.toNat
  let x := match scale with | some sc => v.mul (Fmt.f32.dec sc) | none => v
  cvtElem fmt (modeOfField mode) sat 0 x

/-- The offset of element (i, k) of an accumulator operation (R174). -/
def accOffset (off n size i k : Nat) : Nat := off + (i * n + k) * size

/-- The value of an accumulator element; NaN where its word is uncorrectable (R231). -/
def accRead (c : Core) (r n : Nat) : Word := if c.eccAcc.contains (r * 128 + n) then 0x7FC00000 else accGet c r n

/-- An accumulator operation as it is performed (R174). -/
def accRun (s : State) (core : Nat) (o : MxOp) : State :=
  let cells (m n : Nat) : List (Nat × Nat) := (List.range m).flatMap fun i => (List.range n).map fun k => (i, k)
  let met (r0 m n : Nat) : List Nat :=
    distinct (((s.core core).eccAcc.filter fun w => (cells m n).any fun p => (r0 + p.1) * 128 + p.2 == w).map (2 ^ 20 + · / 2))
  let report (r0 m n : Nat) (s : State) : State := (met r0 m n).foldl (fun s w => softReport s core w) s
  match o.kind with
  | .tile t => tileRun s core o t o.chunk (tileChunks t - o.chunk)
  | .accz r0 m n => accZero s core r0 m n
  | .accld r0 m n off =>
    let bad (a : Nat) : Bool := (s.core core).eccScr.contains ((opScrBase s o + a) / 8)
    (cells m n).foldl (fun s p =>
      let a := accOffset off n 4 p.1 p.2
      let v := if bad a then 0x7FC00000 else BitVec.ofNat 32 (bytesNat ((List.range 4).map fun i => opScrGet s core o (a + i)))
      s.setCore core fun c => accSet c (r0 + p.1) p.2 v) (scrReport s ((cells m n).any fun p => bad (accOffset off n 4 p.1 p.2)))
  | .accst r0 m n off =>
    report r0 m n <| (cells m n).foldl (fun s p =>
      opScrWrite s core o (accOffset off n 4 p.1 p.2) (natBytes 4 (accRead (s.core core) (r0 + p.1) p.2).toNat)) s
  | .drain r0 m n off fmt mode sat scale =>
    report r0 m n <| (cells m n).foldl (fun s p =>
      opScrWrite s core o (accOffset off n (drainSize fmt) p.1 p.2)
        (natBytes (drainSize fmt) (drainElem fmt mode sat scale (accRead (s.core core) (r0 + p.1) p.2)))) s

/-! ### Queueing -/

/-- The matrix engine holds 16 issued operations (R165). -/
def mxFull (s : State) (core : Nat) : Bool := 16 ≤ (s.core core).mxq.length

/-- Put an operation of a lane into its core's queue, its token register busy (R165, R171). -/
def mxAccept (e : Enc) (kind : State → Fibre → MxKind) (s : State) (f : Fibre) : Option State :=
  let core := s.fibreCore f
  if mxFull s core then none
  else
    let k := kind s f
    let t := tokenOf (scrFlush s f.id) f e
    let o : MxOp :=
      { id := t.2.nextId, kind := k, crew := some f.crew, scrBase := 0, scrSize := scrBytes s f, vf := s.fibreVf f,
        asid := s.fibreAsid f, op := s.fibreOp f, waiter := t.1, started := false, chunk := 0, drain := none }
    some ({ t.2 with nextId := t.2.nextId + 1 }.setCore core fun c => { c with mxq := c.mxq ++ [o] })

/-- The checks of `mtask` (R169). -/
def mtaskCheck (e : Enc) (s : State) (f : Fibre) : Option Trap :=
  let o := (f.src (aField e)).toNat
  match recordCheck s f o with
  | some c => some (scrTrap f c o)
  | none => (tileCheck (scrRecord s f o) (scrBytes s f)).map fun c => Trap.here c f.pc

/-- `mtask` (R165, R169). -/
def execMtask (f : LF) (s : State) : Host.Outcome State Fault Refusal :=
  issue (.mtask f) s fun w s =>
    engineIssue w s (mtaskCheck w.enc)
      (mxAccept w.enc fun s f => .tile (tileRecOf (scrRecord s f (f.src (aField w.enc)).toNat)))

/-- The row word of R173: first row, rows, columns. -/
def rowWord (x : Word) : Nat × Nat × Nat := (natBits x.toNat 8 0, natBits x.toNat 18 9, natBits x.toNat 26 19)

/-- Check 1 of R174. -/
def rowBad (x : Word) : Bool :=
  let r := rowWord x
  natBits x.toNat 31 27 != 0 || r.2.1 == 0 || 512 < r.2.1 || r.2.2 == 0 || 128 < r.2.2 || 512 < r.1 + r.2.1

/-- The checks of R174; `size` 0 for `accz`, which has no offset. -/
def accCheck (e : Enc) (size : Nat) (s : State) (f : Fibre) : Option Trap :=
  let x := f.src (aField e)
  let r := rowWord x
  let off := (f.src (bField e)).toNat
  if rowBad x then some (Trap.here 0x62 f.pc)
  else if size == 0 then none
  else if off % size != 0 then some (scrTrap f 0x40 off)
  else if scrBytes s f < off + r.2.1 * r.2.2 * size then some (scrTrap f 0x46 off)
  else none

/-- `accz` (R173, R174). -/
def execAccz (f : LF) (s : State) : Host.Outcome State Fault Refusal :=
  issue (.accz f) s fun w s =>
    engineIssue w s (accCheck w.enc 0) (mxAccept w.enc fun _ l =>
      let r := rowWord (l.src (aField w.enc))
      .accz r.1 r.2.1 r.2.2)

/-- `accld` (R173, R174). -/
def execAccld (f : LF) (s : State) : Host.Outcome State Fault Refusal :=
  issue (.accld f) s fun w s =>
    engineIssue w s (accCheck w.enc 4) (mxAccept w.enc fun _ l =>
      let r := rowWord (l.src (aField w.enc))
      .accld r.1 r.2.1 r.2.2 (l.src (bField w.enc)).toNat)

/-- `accst` (R173, R174). -/
def execAccst (f : LF) (s : State) : Host.Outcome State Fault Refusal :=
  issue (.accst f) s fun w s =>
    engineIssue w s (accCheck w.enc 4) (mxAccept w.enc fun _ l =>
      let r := rowWord (l.src (aField w.enc))
      .accst r.1 r.2.1 r.2.2 (l.src (bField w.enc)).toNat)

/-- `accdrain` (R173, R174). -/
def execAccdrain (f : LF) (s : State) : Host.Outcome State Fault Refusal :=
  issue (.accdrain f) s fun w s =>
    let i := imm16Of w.enc
    engineIssue w s (accCheck w.enc (drainSize (i % 16))) (mxAccept w.enc fun _ l =>
      let r := rowWord (l.src (aField w.enc))
      .drain r.1 r.2.1 r.2.2 (l.src (bField w.enc)).toNat (i % 16) (natBits i 6 4) (i.testBit 7)
        (if i.testBit 8 then some (l.src (cField w.enc)).toNat else none))

end Sys2Proof.Machine
end

