-- ==== Sys2Proof/Machine/Engines.lean ====
section
/-! DEFINITION. Meanings: copy channels, apertures, join entries, the matrix engine's queue (spec/08 R160 to R162, R170 to R174; spec/17 R299 to
R302). -/

namespace Sys2Proof.Machine

/-! ### Copying rows -/

/-- Where the node scratchpad of an entry or an operation begins on its core (R277). -/
def nodeBase (s : State) (core : Nat) (w : Waiter) : Nat :=
  match w with
  | .node g _ => (((s.core core).nodeScr.find? (·.1 == g)).map (·.2.1)).getD 0
  | _ => 0

/-- Read bytes of the scratchpad that an entry's offsets refer to; an uncorrectable word ends the copy with MEMORY (R161, R228). -/
def entScrRead (s : State) (e : ChanEntry) (off n : Nat) : Except Nat (List Byte) :=
  let base := match e.crew with
    | some c => ((s.crew? c).map (·.scrBase)).getD 0
    | none => nodeBase s e.core e.waiter
  if (s.core e.core).eccScr.any fun w => (base + off) / 8 ≤ w && w ≤ (base + off + n - 1) / 8 then .error 7
  else
    match e.crew with
    | some c => .ok (memRead (((s.crew? c).map (·.scratch)).getD []) off n)
    | none => .ok (memRead (s.core e.core).nodeScratch (base + off) n)

/-- Write bytes of that scratchpad. -/
def entScrWrite (s : State) (e : ChanEntry) (off : Nat) (bs : List Byte) : State :=
  match e.crew with
  | some c => s.setCrew c fun c => { c with scratch := memWrite c.scratch off bs }
  | none => s.setCore e.core fun c => { c with nodeScratch := memWrite c.nodeScratch (nodeBase s e.core e.waiter + off) bs }

/-- Write bytes of a core's B-store; words written whole are correct again (R231). -/
def bstoreWrite (s : State) (core off : Nat) (bs : List Byte) : State :=
  s.setCore core fun c =>
    { c with bstore := memWrite c.bstore off bs, eccB := c.eccB.filter fun w => !(off ≤ 8 * w && 8 * w + 8 ≤ off + bs.length) }

/-- Byte `p` of a copy, counted over its rows: its source and its destination address. -/
def srcAt (d : CopyDesc) (p : Nat) : Nat := d.src.toNat + p / d.rbytes * d.sstride + p % d.rbytes
def dstAt (d : CopyDesc) (p : Nat) : Nat := d.dst.toNat + p / d.rbytes * d.dstride + p % d.rbytes

/-- Put bytes of a copy from position `p` on, all in one row, at their destination (R160): the state and the accesses that are on their way. -/
def copyPut (s : State) (e : ChanEntry) (d : CopyDesc) (p : Nat) (bs : List Byte) : Except Nat (State × List Nat) :=
  let a := dstAt d p
  if d.dkind == 1 then .ok (entScrWrite s e a bs, [])
  else if d.dkind == 2 then .ok (bstoreWrite s e.core a bs, [])
  else
    match devWrite s e.vf e.asid (coreDie e.core) e.op (BitVec.ofNat 64 a) bs with
    | .ok t => .ok (t, (t.accesses.drop s.accesses.length).map (·.ref))
    | .error c => .error (statusOf c)

/-- Send the reads of a piece of another device's memory; their data come back with their position in the copy. -/
def copyFetch (s : State) (e : ChanEntry) (va spa n dev p : Nat) : State × List Nat :=
  (linePieces va (n / 64 + 2) n).foldl
    (fun r q =>
      let a := engineAccess r.1 (coreDie e.core) e.vf e.asid (BitVec.ofNat 64 q.1) (spa + (q.1 - va)) (some dev) (.read q.2) e.op
      (sendAccess r.1 { a with scrOff := p + (q.1 - va) }, r.2 ++ [a.ref])) (s, [])

/-- Copy the pieces of one row, page by page of its source. -/
def copyPieces (e : ChanEntry) (d : CopyDesc) : List (Nat × Nat) → Nat → State × List Nat → Except Nat (State × List Nat)
  | [], _, r => .ok r
  | (va, k) :: ps, p, (s, refs) =>
    match translateWalk s e.vf e.asid va .read with
    | .ok spa none =>
      (match readAt s spa k with
       | .error c => .error (statusOf c)
       | .ok bs =>
         match copyPut (readClock (engineMeets s e.vf spa k true) e.op spa k) e d p bs with
         | .error st => .error st
         | .ok (t, more) => copyPieces e d ps (p + k) (t, refs ++ more))
    | .ok spa (some dev) =>
      let t := copyFetch s e va spa k dev p
      copyPieces e d ps (p + k) (t.1, refs ++ t.2)
    | .fail c _ => .error (statusOf c)
    | _ => .error 2

/-- Copy row `r` (R158). -/
def copyRow (s : State) (e : ChanEntry) (d : CopyDesc) (r : Nat) : Except Nat (State × List Nat) :=
  let p := r * d.rbytes
  if d.skind == 1 then
    match entScrRead s e (srcAt d p) d.rbytes with
    | .error st => .error st
    | .ok bs => copyPut s e d p bs
  else if 2 ^ 57 < srcAt d p + d.rbytes then .error 1
  else copyPieces e d (pagesOf (srcAt d p) d.rbytes) p (s, [])

/-- Change an entry of a channel. -/
def setEntry (s : State) (chan id : Nat) (f : ChanEntry → ChanEntry) : State :=
  s.setChannel chan fun c => { c with entries := mapIf (·.id == id) f c.entries }

def State.entry? (s : State) (chan id : Nat) : Option ChanEntry := (s.channel chan).entries.find? (·.id == id)

/-- The copy of a COPY packet moves its bytes in ascending order (R27). -/
def ChanEntry.ordered (e : ChanEntry) : Bool := match e.waiter with | .packet _ => true | _ => false

/-- Whether a VA names another device's memory. -/
def farVa (s : State) (e : ChanEntry) (va : Nat) : Bool :=
  match translateWalk s e.vf e.asid va .read with
  | .ok _ (some _) => true
  | _ => false

/-- The bytes of the next part of a COPY packet's copy, of which `p` have been copied: within a 1 KiB block on either side, and within a line where a side is
another device's memory. -/
def orderedPart (s : State) (e : ChanEntry) (d : CopyDesc) (p : Nat) : Nat :=
  let a := d.src.toNat + p
  let b := d.dst.toNat + p
  let k := if farVa s e a || farVa s e b then 64 else 1024
  min (d.rbytes - p) (min (k - a % k) (k - b % k))

/-- What an entry has still to do: rows, or bytes of the one row of a COPY packet's copy. -/
def ChanEntry.left (e : ChanEntry) (d : CopyDesc) : Nat := (if e.ordered then d.rbytes else d.rows) - e.row

/-- The next row of an entry, or the next part of a COPY packet's copy, with how much that is; none while such a part waits for what is on its way. -/
def copyStep (s : State) (e : ChanEntry) (d : CopyDesc) : Option (Nat × Except Nat (State × List Nat)) :=
  if !e.ordered then some (1, copyRow s e d e.row)
  else if e.outstanding.any fun r => s.accesses.any (·.ref == r) then none
  else
    let n := orderedPart s e d e.row
    some (n, if 2 ^ 57 < d.src.toNat + d.rbytes then .error 1 else copyPieces e d (pagesOf (d.src.toNat + e.row) n) e.row (s, []))

/-- Copy the next `k` rows of an entry, or parts of a COPY packet's copy; the first failure ends it (R161). In which order the bytes of a copy arrive is left
open: the rows go in ascending order (log 143, DESIGN CHOICE). -/
def copyRows (chan id : Nat) (d : CopyDesc) : Nat → State → State
  | 0, s => s
  | k + 1, s =>
    match s.entry? chan id with
    | none => s
    | some e =>
      if e.left d == 0 || e.status != 0 then s
      else
        match copyStep s e d with
        | none => s
        | some (_, .error st) => setEntry s chan id fun x => { x with status := st, row := x.row + x.left d }
        | some (n, .ok (t, refs)) =>
          copyRows chan id d k (setEntry t chan id fun x => { x with row := x.row + n, outstanding := x.outstanding ++ refs })

/-! ### Accesses of copies to other devices -/

/-- The channel and entry an access belongs to. -/
def copyOfRef (s : State) (ref : Nat) : Option (Nat × ChanEntry) :=
  s.channels.findSome? fun c => (c.entries.find? fun e => e.outstanding.contains ref).map fun e => (c.num, e)

/-- The data of a copy's read has come: it goes to its place. -/
def copyData (s : State) (chan : Nat) (e : ChanEntry) (a : Access) (val : List Byte) : State :=
  let s1 := dropAccess s a.ref
  match e.kind with
  | .copy d =>
    (match copyPut s1 e d a.scrOff val with
     | .error st => setEntry s1 chan e.id fun x => { x with status := if x.status == 0 then st else x.status,
                                                            outstanding := x.outstanding.filter (· != a.ref) }
     | .ok (t, more) => setEntry t chan e.id fun x => { x with outstanding := x.outstanding.filter (· != a.ref) ++ more })
  | .join _ => s1

/-- An access of a copy is refused (R161): the status. -/
def copyFail (s : State) (chan : Nat) (e : ChanEntry) (ref st : Nat) : State :=
  setEntry (dropAccess s ref) chan e.id fun x => { x with status := if x.status == 0 then st else x.status,
                                                          outstanding := x.outstanding.filter (· != ref) }

/-! ### The channel's work -/

/-- SRC of a copy channel (R310): class 4 on the die of its cluster. -/
def chanSrc (chan : Nat) : Nat := srcOf (chan / 8) 4 chan

/-- The entry a channel works on: its first, when it has been accepted (R160). -/
def headEntry (s : State) (chan : Nat) : Option ChanEntry :=
  match (s.channel chan).entries with
  | e :: _ => if e.accepted then some e else none
  | [] => none

/-- Every copy entry that is still there, in channels and in images. -/
def liveEntries (s : State) : List Nat :=
  (s.channels.flatMap fun c => c.entries.map (·.id)) ++ s.ctxs.flatMap fun c => ((c.image.map (·.entries)).getD []).map (·.2.id)

/-- Join entries at the head of their channels whose named entries have all completed leave (R302); `fuel` rounds. -/
def joinEntries (cluster : Nat) : Nat → State → State
  | 0, s => s
  | fuel + 1, s =>
    let live := liveEntries s
    let past (chan : Nat) : Option Nat := match headEntry s chan with
      | some e => (match e.kind with
        | .join ids => if ids.all fun i => !live.contains i then some e.id else none
        | .copy _ => none)
      | none => none
    match (List.range 4).findSome? fun h => (past (4 * cluster + h)).map fun i => (4 * cluster + h, i) with
    | none => s
    | some (chan, id) =>
      let s1 := (s.passClock (.work id) (.chan chan)).dropClock (.work id)
      joinEntries cluster fuel (s1.setChannel chan fun c => { c with entries := c.entries.filter (·.id != id) })

/-- An entry leaves its channel. -/
def dropEntry (s : State) (chan id : Nat) : State :=
  let s1 := s.setChannel chan fun c => { c with entries := c.entries.filter (·.id != id) }
  let s1 := (s1.clocks.filter fun c => c.needs.contains id && match c.key with | .work _ => true | _ => false).foldl
    (fun t c => t.addClock c.key (s.clockOf (.chan chan))) s1
  (distinct (s1.channels.map (·.num / 4))).foldl (fun s k => joinEntries k 260 s) s1

/-- The lease a copy names: its base, if it is live and holds every destination byte (R161, R164). -/
def leaseBase (s : State) (e : ChanEntry) (d : CopyDesc) : Option DWord :=
  if 2 ^ 24 ≤ d.lease then none
  else
    match s.leases.find? fun l => l.vf == e.vf && l.id == d.lease with
    | some l => if sideEnd d d.dst d.dstride ≤ l.bytes then some l.va else none
    | none => none

/-- The descriptor with which a copy starts: a lease destination becomes memory (R160); a lease that is not live is status 4. -/
def startDesc (s : State) (e : ChanEntry) (d : CopyDesc) : CopyDesc × Nat :=
  if d.dkind == 3 then
    match leaseBase s e d with
    | some va => ({ d with dst := va + d.dst, dkind := 0 }, 0)
    | none => (d, 4)
  else (d, 0)

/-- COPY_START (R160): the channel starts its next entry, with an identifier of its own, behind its issuer's accesses and the channel's earlier entries
(R260, R261); rows are copied from now on, how many in this step is free. -/
def execCopyStart (chan : Nat) (s : State) : Host.Outcome State Fault Refusal :=
  .next (match headEntry s chan with
    | none => s
    | some e =>
      match e.kind with
      | .join _ => s
      | .copy d =>
        if e.started || !asidRuns s e.asid || !(clockNeeds s e.id).isEmpty then s
        else
          let m := mint s (chan / 8)
          let x := startDesc s e d
          let s1 := setEntry (startClock m.2 e.id m.1 (stampMerge (s.clockOf (.chan chan)) (s.clockOf (.op e.op)))) chan e.id fun y =>
            { y with started := true, op := m.1, kind := .copy x.1, status := x.2, row := if x.2 == 0 then y.row else y.row + y.left d }
          let s2 := if e.detail then emit s1 (chanSrc chan) 0x0401 m.1 e.op 0 e.vf else s1
          let c := choose s2 (d.rows + 1)
          copyRows chan e.id x.1 c.1 c.2)

/-- A token is written when its register's answer lands (R50, R161). -/
def oweToken (s : State) (w : Waiter) (val : Nat) (op : DWord) : State :=
  match w with
  | .token f r ref => { s with owed := s.owed ++ [⟨ref, f, r, 1, false, some (BitVec.ofNat 64 val), some (s.clockOf (.op op))⟩] }
  | _ => s

/-- The packet or the node that awaits an engine operation hears of its end (R161, R401). -/
def reportWaiter (s : State) (w : Waiter) (status : Nat) (op : DWord) : State :=
  match w with
  | .packet p =>
    (match s.packet? p with
     | some k => completePacket (s.passClock (.op op) (.op k.op)) p (statusAbort status) (if status == 0 then op else if status == 6 then 0 else k.op)
     | none => s)
  | .node g n => nodePart (s.passClock (.op op) (.node g n)) g n (statusAbort status) op
  | _ => oweToken s w status op

/-- The graph of a copy with CK = 1: that of its crew's grid. -/
def entryGraph (s : State) (e : ChanEntry) : Option Nat :=
  match (e.crew.bind s.crew?).bind fun c => s.grid? c.grid with
  | some g => (match g.src with | .node gr _ => some gr | _ => none)
  | none => none

/-- Completion acts (R161): the signal, whose failure becomes the status; the node; then COPY_DONE, and the token, packet or node. -/
def copyEnd (s : State) (chan : Nat) (e : ChanEntry) (d : CopyDesc) (status : Nat) : State :=
  let r : Nat × State := if d.ck == 2 then
      match sigUpdate s e.vf e.asid (coreDie e.core) d.siga (if status == 0 then .sigDec else .sigAbort 2) e.op with
      | .ok t => (status, t)
      | .error c => (statusOf c, s)
    else (status, s)
  let s1 := dropEntry (r.2.passClock (.op e.op) (.chan chan)) chan e.id
  let s2 := match d.ck == 1, entryGraph s e with
    | true, some g => if r.1 == 0 then edgeDown (s1.passClock (.op e.op) (.node g d.node)) g e.op ⟨0, d.node, 0, 0, 0⟩ else nodeBreak s1 g d.node (statusAbort r.1) 0
    | _, _ => s1
  let s3 := if e.detail then emit s2 (chanSrc chan) 0x0402 e.op e.op r.1 e.vf else s2
  let units := if status == 0 then d.rows * ceilDiv d.rbytes 64 else 0
  (reportWaiter (sharedAdd s3 (chanSrc chan) e.vf 0x44 units) e.waiter r.1 e.op).dropClock (.op e.op)

/-- COPY_DONE (R161): the rest is copied; once nothing is on its way to another device the copy completes. -/
def execCopyDone (chan : Nat) (s : State) : Host.Outcome State Fault Refusal :=
  .next (match headEntry s chan with
    | none => s
    | some e =>
      match e.kind with
      | .join _ => s
      | .copy d =>
        if !e.started || !asidRuns s e.asid then s
        else
          let s1 := copyRows chan e.id d (e.left d) s
          match s1.entry? chan e.id with
          | none => s1
          | some x => if (x.left d == 0 || x.status != 0) && x.outstanding.all fun r => !(s1.accesses.any (·.ref == r)) then copyEnd s1 chan x d x.status else s1)

/-- CHANNEL_ACCEPT (R299): a waiting entry is accepted when the channel has room. -/
def execChannelAccept (chan : Nat) (s : State) : Host.Outcome State Fault Refusal :=
  let c := s.channel chan
  .next (match c.entries.find? fun e => !e.accepted with
    | none => s
    | some e => if c.accepted < 64 then setEntry s chan e.id fun x => { x with accepted := true } else s)

/-! ### Apertures -/

/-- A START or JOIN store of a fibre to a copy-engine aperture (R300), which its channel takes in a step of its own: channel, offset, data. -/
def apertureStore (s : State) (a : Access) : Option (Nat × Nat × Nat) :=
  match s.place (a.spa % 2 ^ 49), a.op, a.agent, a.dev with
  | .aperture chan off, .write d _, .fibre _, none =>
    if a.sel == 0 && (off == 0 || off == 4) && d.map (·.1) == [0, 1, 2, 3] then some (chan, off, bytesNat (d.map (·.2))) else none
  | _, _, _, _ => none

/-- A START or JOIN store is refused (R300): the lane parks with COPY_DESC. -/
def apertureRefuse (s : State) (a : Access) : State :=
  match a.owner with
  | some f => deferPark (setResp s a.ref .failed) f 0x51 0 0 (some a.pc)
  | none => dropAccess s a.ref

/-- What a START or JOIN store needs to reach its channel: `acts` takes the store, the channel and the data. -/
def apertureStep (s : State) (ref off : Nat) (acts : State → Access → Nat → Nat → State) : State :=
  match s.accesses.find? (·.ref == ref) with
  | none => s
  | some a =>
    match apertureStore s a with
    | some (chan, o, v) =>
      if o != off || !canPerform s a then s
      else if a.gen != s.gen a.asid then setResp s ref .stale
      else if decide ((s.ctx? a.asid).map (·.state) = some .saved) then s
      else acts s a chan v
    | none => s

/-- Whether a channel takes one more entry now. -/
def chanRoom (s : State) (chan : Nat) : Bool := (s.channel chan).accepted < 64 && (s.channel chan).entries.all (·.accepted)

/-- The crew whose fibre made an access: what the access starts is an operation of it (R212, R291). -/
def ownerCrew (s : State) (a : Access) : Option Nat := (a.owner.bind s.fibre?).map (·.crew)

/-- APERTURE_START (R300, R301): a copy of the template's descriptor enters the channel. -/
def execApertureStart (ref : Nat) (s : State) : Host.Outcome State Fault Refusal :=
  .next (apertureStep s ref 0 fun s a chan v =>
    match (s.channel chan).templates.find? fun t => t.idx == v && t.vf == a.vf with
    | none => apertureRefuse s a
    | some t =>
      if v / 64 != 0 then apertureRefuse s a
      else if !chanRoom s chan then s
      else
        pushEntry ({ dropAccess s ref with nextId := s.nextId + 1 }.addClock (.work s.nextId) a.req) chan
          { id := s.nextId, kind := .copy t.desc, vf := a.vf, asid := t.asid, core := 12 * (chan / 4), crew := none, owner := ownerCrew s a, op := a.opid,
            waiter := .nobody, detail := true, accepted := true, started := false, row := 0, status := 0, outstanding := [], tmpl := some v })

/-- APERTURE_JOIN (R302): a join entry that names what its mask's channels have accepted. -/
def execApertureJoin (ref : Nat) (s : State) : Host.Outcome State Fault Refusal :=
  .next (apertureStep s ref 4 fun s a chan v =>
    if v / 16 != 0 then apertureRefuse s a
    else if !chanRoom s chan then s
    else
      let chans := (List.range 4).filterMap fun h =>
        if v.testBit h && 4 * (chan / 4) + h != chan then some (4 * (chan / 4) + h) else none
      let ids := chans.flatMap fun c => ((s.channel c).entries.filter (·.accepted)).map (·.id)
      joinEntries (chan / 4) 260
        (pushEntry { dropAccess s ref with nextId := s.nextId + 1, clocks := s.clocks ++ [⟨.work s.nextId, a.req, ids⟩] } chan
          { id := s.nextId, kind := .join ids, vf := a.vf, asid := a.asid, core := 12 * (chan / 4), crew := none, owner := ownerCrew s a, op := a.opid,
            waiter := .nobody, detail := false, accepted := true, started := false, row := 0, status := 0, outstanding := [], tmpl := none }))

/-! ### The matrix engine -/

/-- SRC of a matrix engine (R310). -/
def mxSrc (core : Nat) : Nat := srcOf (coreDie core) 3 core

/-- The operation a matrix engine works on. -/
def headOp (s : State) (core : Nat) : Option MxOp := (s.core core).mxq.head?

/-- Change the operation at the head of the queue. -/
def setHeadOp (s : State) (core : Nat) (f : MxOp → MxOp) : State :=
  s.setCore core fun c => { c with mxq := match c.mxq with | o :: os => f o :: os | [] => [] }

/-- TILE_ISSUE (R170, R171): the task starts with an identifier of its own; how many of its chunks are performed in this step is free (log 67, DESIGN CHOICE). -/
def execTileIssue (core : Nat) (s : State) : Host.Outcome State Fault Refusal :=
  .next (match headOp s core with
    | none => s
    | some o =>
      match o.kind with
      | .tile t =>
        if o.started || !asidRuns s o.asid then s
        else
          let m := mint s (coreDie core)
          let s1 := emit m.2 (mxSrc core) 0x0501 m.1 o.op 0 o.vf
          let c := choose s1 (tileChunks t - o.chunk + 1)
          let s2 := setHeadOp (c.2.passClock (.op o.op) (.op m.1)) core fun x => { x with started := true, op := m.1, chunk := x.chunk + c.1 }
          tileRun s2 core o t o.chunk c.1
      | _ => s)

/-- The output of a tile node (R277): element (i, n) at VA + (i x N + n) x size, row by row; the status of the first failure. -/
def drainOut (s : State) (core : Nat) (o : MxOp) (t : TileRec) (va : DWord) (fmt : Nat) : Nat × State :=
  let size := drainSize fmt
  (List.range t.m).foldl
    (fun r i =>
      if r.1 != 0 then r
      else
        let row := (List.range t.n).flatMap fun n =>
          natBytes size (drainElem fmt 0 false none (accRead (r.2.core core) (t.arb + i) n))
        match devWrite r.2 o.vf o.asid (coreDie core) o.op (va + BitVec.ofNat 64 (i * t.n * size)) row with
        | .ok s1 => (0, s1)
        | .error c => (statusOf c, r.2)) (0, s)

/-- The head of the queue is over: it leaves, and whoever awaits it hears of it. -/
def mxEnd (s : State) (core : Nat) (o : MxOp) (status : Nat) : State :=
  reportWaiter (s.setCore core fun c => { c with mxq := c.mxq.filter (·.id != o.id) }) o.waiter status o.op

/-- TILE_DONE (R170): the remaining chunks, TILE_DONE, the output of a tile node, the token. -/
def execTileDone (core : Nat) (s : State) : Host.Outcome State Fault Refusal :=
  .next (match headOp s core with
    | none => s
    | some o =>
      match o.kind with
      | .tile t =>
        if !o.started || !asidRuns s o.asid then s
        else
          let s1 := tileRun s core o t o.chunk (tileChunks t - o.chunk)
          let s2 := emit s1 (mxSrc core) 0x0502 o.op o.op 0 o.vf
          match o.drain with
          | some (va, fmt) => let r := drainOut s2 core o t va fmt; mxEnd r.2 core o r.1
          | none => mxEnd s2 core o 0
      | _ => s)

/-- ACC_OP_DONE (R174): a queued accumulator operation is performed and its token written. -/
def execAccOpDone (core : Nat) (s : State) : Host.Outcome State Fault Refusal :=
  .next (match headOp s core with
    | none => s
    | some o =>
      match o.kind with
      | .tile _ => s
      | _ => if asidRuns s o.asid then mxEnd (accRun s core o) core o 0 else s)

end Sys2Proof.Machine
end

