-- ==== Sys2Proof/WellFormed.lean ====
section
/-! DEFINITION. Well-formed instructions: the fields pass every check of spec/03 R54 that the word alone decides. -/

namespace Sys2Proof

/-- An instruction whose own fields fail no check of R54 (a row without encoding has no fields to check). -/
abbrev Instr.WellFormed (i : Instr) : Prop := i.staticCheck = none

end Sys2Proof
end

