-- ==== Sys2Proof/Decode.lean ====
section
/-! DEFINITION. Decoding: from the bytes at a program counter, through a decode map, to an instruction or the illegal-encoding
code that rejects them (spec/03 R39, R40, R51, R52, R54); then the encoder, from the same tables. -/

namespace Sys2Proof

/-- The H operations (R41). -/
def buildH : Nat → HF → Except IllCode Instr
  | 0x0, f => .ok (.movH f)
  | 0x1, f => .ok (.addS32H f)
  | 0x2, f => .ok (.subS32H f)
  | 0x3, f => .ok (.mulS32H f)
  | 0x4, f => .ok (.andH f)
  | 0x5, f => .ok (.orH f)
  | 0x6, f => .ok (.xorH f)
  | 0x7, f => .ok (.shlH f)
  | 0x8, f => .ok (.shrH f)
  | 0x9, f => .ok (.sarH f)
  | 0xa, f => .ok (.addF32H f)
  | 0xb, f => .ok (.subF32H f)
  | 0xc, f => .ok (.mulF32H f)
  | 0xd, f => .ok (.minF32H f)
  | 0xe, f => .ok (.maxF32H f)
  | 0xf, f => .ok (.negF32H f)
  | _, _ => .error .opcode

/-- The W forms by native opcode (R56). -/
def buildW : Nat → WF → Except IllCode Instr
  | 0x0, f => .ok (.movW f)
  | 0x2, f => .ok (.addW f)
  | 0x3, f => .ok (.subW f)
  | 0x4, f => .ok (.addSatW f)
  | 0x5, f => .ok (.subSatW f)
  | 0x6, f => .ok (.mulW f)
  | 0x7, f => .ok (.mulhiW f)
  | 0x8, f => .ok (.mulwW f)
  | 0xb, f => .ok (.minW f)
  | 0xc, f => .ok (.maxW f)
  | 0xd, f => .ok (.absW f)
  | 0xe, f => .ok (.negW f)
  | 0x10, f => .ok (.andW f)
  | 0x11, f => .ok (.orW f)
  | 0x12, f => .ok (.xorW f)
  | 0x13, f => .ok (.andnW f)
  | 0x14, f => .ok (.notW f)
  | 0x15, f => .ok (.shlW f)
  | 0x16, f => .ok (.shrW f)
  | 0x17, f => .ok (.sarW f)
  | 0x18, f => .ok (.rotW f)
  | 0x1b, f => .ok (.popcW f)
  | 0x1c, f => .ok (.clzW f)
  | 0x1d, f => .ok (.ctzW f)
  | 0x1e, f => .ok (.brevW f)
  | 0x20, f => .ok (.cmpEqW f)
  | 0x21, f => .ok (.cmpNeW f)
  | 0x22, f => .ok (.cmpLtW f)
  | 0x23, f => .ok (.cmpLeW f)
  | 0x24, f => .ok (.cmpGtW f)
  | 0x25, f => .ok (.cmpGeW f)
  | 0x80, f => .ok (.addF32W f)
  | 0x81, f => .ok (.subF32W f)
  | 0x82, f => .ok (.mulF32W f)
  | 0x84, f => .ok (.minF32W f)
  | 0x85, f => .ok (.maxF32W f)
  | 0x86, f => .ok (.minpW f)
  | 0x87, f => .ok (.maxpW f)
  | 0x88, f => .ok (.absF32W f)
  | 0x89, f => .ok (.negF32W f)
  | 0x8a, f => .ok (.clsW f)
  | 0x90, f => .ok (.cmpEqF32W f)
  | 0x91, f => .ok (.cmpNeF32W f)
  | 0x92, f => .ok (.cmpLtF32W f)
  | 0x93, f => .ok (.cmpLeF32W f)
  | 0x94, f => .ok (.cmpGtF32W f)
  | 0x95, f => .ok (.cmpGeF32W f)
  | 0xa0, f => .ok (.rcpW f)
  | 0xa1, f => .ok (.rsqW f)
  | 0xa2, f => .ok (.sqrtW f)
  | 0xa3, f => .ok (.divW f)
  | 0xa4, f => .ok (.exp2W f)
  | 0xa5, f => .ok (.log2W f)
  | 0xa6, f => .ok (.sinpW f)
  | 0xa7, f => .ok (.cospW f)
  | 0xa8, f => .ok (.frcW f)
  | 0xa9, f => .ok (.rintW f)
  | 0xaa, f => .ok (.ldexpW f)
  | 0x101, f => .ok (.pkW f)
  | 0x102, f => .ok (.upkW f)
  | 0x140, f => .ok (.shufIdxW f)
  | 0x141, f => .ok (.shufUpW f)
  | 0x142, f => .ok (.shufDnW f)
  | 0x143, f => .ok (.shufXorW f)
  | 0x148, f => .ok (.voteAnyW f)
  | 0x149, f => .ok (.voteAllW f)
  | 0x14a, f => .ok (.voteBalW f)
  | 0x150, f => .ok (.redcAddW f)
  | 0x151, f => .ok (.redcMinW f)
  | 0x152, f => .ok (.redcMaxW f)
  | 0x201, f => .ok (.cpw f)
  | 0x202, f => .ok (.cpq f)
  | 0x211, f => .ok (.unlease f)
  | 0x283, f => .ok (.brx f)
  | 0x285, f => .ok (.ret f)
  | 0x286, f => if f = ⟨0, 0, 63, 63, 63⟩ then .ok .join else .error .reserved
  | 0x288, f => .ok (.halt f)
  | 0x289, f => .ok (.yield f)
  | 0x28a, f => if f.nw = 0 ∧ f.b = 63 ∧ f.a = 63 ∧ f.d = 63 then .ok (if f.g = 1 then .nopG else .nop) else .error .reserved
  | 0x2c9, f => .ok (.vfence f)
  | 0x340, f => .ok (.timeI f)
  | _, _ => .error .opcode

/-- The WI forms by native opcode (R56). -/
def buildWI : Nat → WIF → Except IllCode Instr
  | 0x42, f => .ok (.addWi f)
  | 0x46, f => .ok (.mulWi f)
  | 0x4b, f => .ok (.minWi f)
  | 0x4c, f => .ok (.maxWi f)
  | 0x50, f => .ok (.andWi f)
  | 0x51, f => .ok (.orWi f)
  | 0x52, f => .ok (.xorWi f)
  | 0x55, f => .ok (.shlWi f)
  | 0x56, f => .ok (.shrWi f)
  | 0x57, f => .ok (.sarWi f)
  | 0x58, f => .ok (.rotWi f)
  | 0x60, f => .ok (.cmpEqWi f)
  | 0x61, f => .ok (.cmpNeWi f)
  | 0x62, f => .ok (.cmpLtWi f)
  | 0x63, f => .ok (.cmpLeWi f)
  | 0x64, f => .ok (.cmpGtWi f)
  | 0x65, f => .ok (.cmpGeWi f)
  | 0x28b, f => .ok (.trap f)
  | 0x28c, f => .ok (.brk f)
  | 0x2c0, f => .ok (.bar f)
  | 0x2c1, f => .ok (.barArv f)
  | 0x2c2, f => .ok (.barWt f)
  | 0x2c3, f => .ok (.gbar f)
  | 0x2c8, f => .ok (.fence f)
  | 0x343, f => .ok (.sysr f)
  | _, _ => .error .opcode

/-- The L forms by native opcode (R56). -/
def buildL : Nat → LF → Except IllCode Instr
  | 0x0, f => .ok (.movL f)
  | 0x2, f => .ok (.addL f)
  | 0x3, f => .ok (.subL f)
  | 0x4, f => .ok (.addSatL f)
  | 0x5, f => .ok (.subSatL f)
  | 0x6, f => .ok (.mulL f)
  | 0x7, f => .ok (.mulhiL f)
  | 0x8, f => .ok (.mulwL f)
  | 0x9, f => .ok (.mad f)
  | 0xa, f => .ok (.madw f)
  | 0xb, f => .ok (.minL f)
  | 0xc, f => .ok (.maxL f)
  | 0xd, f => .ok (.absL f)
  | 0xe, f => .ok (.negL f)
  | 0x10, f => .ok (.andL f)
  | 0x11, f => .ok (.orL f)
  | 0x12, f => .ok (.xorL f)
  | 0x13, f => .ok (.andnL f)
  | 0x14, f => .ok (.notL f)
  | 0x15, f => .ok (.shlL f)
  | 0x16, f => .ok (.shrL f)
  | 0x17, f => .ok (.sarL f)
  | 0x18, f => .ok (.rotL f)
  | 0x19, f => .ok (.bfx f)
  | 0x1a, f => .ok (.bfi f)
  | 0x1b, f => .ok (.popcL f)
  | 0x1c, f => .ok (.clzL f)
  | 0x1d, f => .ok (.ctzL f)
  | 0x1e, f => .ok (.brevL f)
  | 0x1f, f => .ok (.bsel f)
  | 0x20, f => .ok (.cmpEqL f)
  | 0x21, f => .ok (.cmpNeL f)
  | 0x22, f => .ok (.cmpLtL f)
  | 0x23, f => .ok (.cmpLeL f)
  | 0x24, f => .ok (.cmpGtL f)
  | 0x25, f => .ok (.cmpGeL f)
  | 0x26, f => .ok (.sel f)
  | 0x28, f => .ok (.add64 f)
  | 0x29, f => .ok (.lea64 f)
  | 0x80, f => .ok (.addFloatL f)
  | 0x81, f => .ok (.subFloatL f)
  | 0x82, f => .ok (.mulFloatL f)
  | 0x83, f => .ok (.fma f)
  | 0x84, f => .ok (.minFloatL f)
  | 0x85, f => .ok (.maxFloatL f)
  | 0x86, f => .ok (.minpL f)
  | 0x87, f => .ok (.maxpL f)
  | 0x88, f => .ok (.absFloatL f)
  | 0x89, f => .ok (.negFloatL f)
  | 0x8a, f => .ok (.clsL f)
  | 0x90, f => .ok (.cmpEqFloatL f)
  | 0x91, f => .ok (.cmpNeFloatL f)
  | 0x92, f => .ok (.cmpLtFloatL f)
  | 0x93, f => .ok (.cmpLeFloatL f)
  | 0x94, f => .ok (.cmpGtFloatL f)
  | 0x95, f => .ok (.cmpGeFloatL f)
  | 0xa0, f => .ok (.rcpL f)
  | 0xa1, f => .ok (.rsqL f)
  | 0xa2, f => .ok (.sqrtL f)
  | 0xa3, f => .ok (.divL f)
  | 0xa4, f => .ok (.exp2L f)
  | 0xa5, f => .ok (.log2L f)
  | 0xa6, f => .ok (.sinpL f)
  | 0xa7, f => .ok (.cospL f)
  | 0xa8, f => .ok (.frcL f)
  | 0xa9, f => .ok (.rintL f)
  | 0xaa, f => .ok (.ldexpL f)
  | 0xb0, f => .ok (.dot2 f)
  | 0xb1, f => .ok (.cmul f)
  | 0xb2, f => .ok (.bfly f)
  | 0xb3, f => .ok (.twid f)
  | 0x100, f => .ok (.cvt f)
  | 0x101, f => .ok (.pkL f)
  | 0x102, f => .ok (.upkL f)
  | 0x103, f => .ok (.qblk f)
  | 0x104, f => .ok (.dqblk f)
  | 0x140, f => .ok (.shufIdxL f)
  | 0x141, f => .ok (.shufUpL f)
  | 0x142, f => .ok (.shufDnL f)
  | 0x143, f => .ok (.shufXorL f)
  | 0x148, f => .ok (.voteAnyL f)
  | 0x149, f => .ok (.voteAllL f)
  | 0x14a, f => .ok (.voteBalL f)
  | 0x150, f => .ok (.redcAddL f)
  | 0x151, f => .ok (.redcMinL f)
  | 0x152, f => .ok (.redcMaxL f)
  | 0x180, f => .ok (.ld .b8 f)
  | 0x181, f => .ok (.ld .b16 f)
  | 0x182, f => .ok (.ld .b32 f)
  | 0x183, f => .ok (.ld .b64 f)
  | 0x184, f => .ok (.ld .b128 f)
  | 0x185, f => .ok (.ld .s8 f)
  | 0x186, f => .ok (.ld .s16 f)
  | 0x188, f => .ok (.st .b8 f)
  | 0x189, f => .ok (.st .b16 f)
  | 0x18a, f => .ok (.st .b32 f)
  | 0x18b, f => .ok (.st .b64 f)
  | 0x18c, f => .ok (.st .b128 f)
  | 0x190, f => .ok (.lds .b8 f)
  | 0x191, f => .ok (.lds .b16 f)
  | 0x192, f => .ok (.lds .b32 f)
  | 0x193, f => .ok (.lds .b64 f)
  | 0x194, f => .ok (.lds .b128 f)
  | 0x195, f => .ok (.lds .s8 f)
  | 0x196, f => .ok (.lds .s16 f)
  | 0x198, f => .ok (.sts .b8 f)
  | 0x199, f => .ok (.sts .b16 f)
  | 0x19a, f => .ok (.sts .b32 f)
  | 0x19b, f => .ok (.sts .b64 f)
  | 0x19c, f => .ok (.sts .b128 f)
  | 0x19e, f => .ok (.sldt f)
  | 0x1a0, f => .ok (.atom .add f)
  | 0x1a1, f => .ok (.atom .min f)
  | 0x1a2, f => .ok (.atom .max f)
  | 0x1a3, f => .ok (.atom .and f)
  | 0x1a4, f => .ok (.atom .or f)
  | 0x1a5, f => .ok (.atom .xor f)
  | 0x1a6, f => .ok (.atom .xchg f)
  | 0x1a7, f => .ok (.atom .cas f)
  | 0x1a8, f => .ok (.atom .fadd f)
  | 0x1b0, f => .ok (.atoms .add f)
  | 0x1b1, f => .ok (.atoms .min f)
  | 0x1b2, f => .ok (.atoms .max f)
  | 0x1b3, f => .ok (.atoms .and f)
  | 0x1b4, f => .ok (.atoms .or f)
  | 0x1b5, f => .ok (.atoms .xor f)
  | 0x1b6, f => .ok (.atoms .xchg f)
  | 0x1b7, f => .ok (.atoms .cas f)
  | 0x1b8, f => .ok (.atoms .fadd f)
  | 0x1c0, f => .ok (.pf f)
  | 0x200, f => .ok (.cpa f)
  | 0x208, f => .ok (.bcopy f)
  | 0x210, f => .ok (.lease f)
  | 0x240, f => .ok (.mtask f)
  | 0x241, f => .ok (.accz f)
  | 0x242, f => .ok (.accld f)
  | 0x243, f => .ok (.accst f)
  | 0x244, f => .ok (.accdrain f)
  | 0x287, f => .ok (.fork f)
  | 0x2d0, f => .ok (.sigAdd f)
  | 0x2d1, f => .ok (.sigSet f)
  | 0x2d2, f => .ok (.sigRead f)
  | 0x2d3, f => .ok (.sigw f)
  | 0x2d8, f => .ok (.enq f)
  | 0x2dc, f => .ok (.wwait f)
  | 0x300, f => .ok (.ctrAdd f)
  | 0x301, f => .ok (.ctrRead f)
  | 0x302, f => .ok (.ctrSet f)
  | 0x308, f => .ok (.tsend f)
  | 0x310, f => .ok (.invoke f)
  | 0x311, f => .ok (.hwait f)
  | 0x312, f => .ok (.hstat f)
  | 0x341, f => .ok (.evt f)
  | 0x342, f => .ok (.perf f)
  | 0x344, f => .ok (.resreq f)
  | _, _ => .error .opcode

/-- The LI forms by native opcode (R56). -/
def buildLI : Nat → LIF → Except IllCode Instr
  | 0x1, f => .ok (.li f)
  | 0x280, f => .ok (.br f)
  | 0x281, f => .ok (.bcT f)
  | 0x282, f => .ok (.bcF f)
  | 0x284, f => .ok (.call f)
  | _, _ => .error .opcode

/-- The instruction of an encoded form, or the code that rejects it: `join` admits one word, `nop` one with its guard and one without
(R81, R84); an opcode without the form is undefined. -/
def Enc.build : Enc → Except IllCode Instr
  | .h op f => buildH op.toNat f
  | .w op f => buildW op.toNat f
  | .wi op f => buildWI op.toNat f
  | .l op f => buildL op.toNat f
  | .li op f => buildLI op.toNat f

/-- A form exists unless its opcode is undefined. -/
def hasForm : Except IllCode Instr → Bool
  | .error .opcode => false
  | _ => true

/-- The form bits [13:10] of a native operation (R51, R56): which of W, WI, L, LI exist. -/
def formBits (n : Nat) : Nat :=
  (if hasForm (buildW n ⟨0, 0, 0, 0, 0⟩) then 1 else 0) + (if hasForm (buildWI n ⟨0, 0, 0⟩) then 2 else 0) +
  (if hasForm (buildL n ⟨0, 0, 0, 0, 0, 0, 0, 0, 0, 0⟩) then 4 else 0) +
  (if hasForm (buildLI n ⟨0, 0, 0, 0, 0, 0⟩) then 8 else 0)

/-- Decode map 0 (R52). -/
def map0 (n : Nat) : Nat :=
  if n < 0x380 && formBits n != 0 then n + 1024 * formBits n else 0xFFFF

/-- Decode map 1 (R52): without `bfly`, `twid`, `sldt`, `invoke`, `hwait`, `hstat`. -/
def map1 (n : Nat) : Nat :=
  if n == 0xB2 || n == 0xB3 || n == 0x19E || n == 0x310 || n == 0x311 || n == 0x312 then 0xFFFF else map0 n

/-- Decode map 2 (R52): map 1 with 0x100-0x17F and 0x180-0x1FF exchanged. -/
def map2 (n : Nat) : Nat :=
  if 0x100 ≤ n && n < 0x180 then map1 (n + 0x80)
  else if 0x180 ≤ n && n < 0x200 then map1 (n - 0x80)
  else map1 n

/-- An entry that R51 treats as undefined. -/
def entryUndefined (e : Nat) : Bool :=
  e == 0xFFFF || e / 2 ^ 14 != 0 || (e.testBit 10 && e.testBit 11) || (e.testBit 12 && e.testBit 13)

/-- What decoding answers: an instruction with its length, a rejection by name, or that it needs more bytes. -/
inductive DecodeResult where
  | ok (i : Instr) (len : Nat)
  | ill (code : IllCode)
  | short
deriving DecidableEq, Repr

/-- The fields of a format H halfword (R40). -/
def hFields (w : Nat) : HF := ⟨BitVec.ofNat 1 (w / 2 ^ 15), BitVec.ofNat 5 (w / 2 ^ 10), BitVec.ofNat 5 (w / 2 ^ 5)⟩
/-- The fields of a format W word (R40). -/
def wFields (w : Nat) : WF :=
  ⟨BitVec.ofNat 1 (w / 2 ^ 31), BitVec.ofNat 1 (w / 2 ^ 30), BitVec.ofNat 6 (w / 2 ^ 24), BitVec.ofNat 6 (w / 2 ^ 18),
   BitVec.ofNat 6 (w / 2 ^ 12)⟩
/-- The fields of a format WI word (R40). -/
def wiFields (w : Nat) : WIF :=
  ⟨BitVec.ofNat 8 (w / 2 ^ 24), BitVec.ofNat 6 (w / 2 ^ 18), BitVec.ofNat 6 (w / 2 ^ 12)⟩
/-- The fields of a format L word (R40). -/
def lFields (w : Nat) : LF :=
  ⟨BitVec.ofNat 16 (w / 2 ^ 48), BitVec.ofNat 4 (w / 2 ^ 44), BitVec.ofNat 1 (w / 2 ^ 43), BitVec.ofNat 1 (w / 2 ^ 42),
   BitVec.ofNat 1 (w / 2 ^ 41), BitVec.ofNat 5 (w / 2 ^ 36), BitVec.ofNat 6 (w / 2 ^ 30), BitVec.ofNat 6 (w / 2 ^ 24),
   BitVec.ofNat 6 (w / 2 ^ 18), BitVec.ofNat 6 (w / 2 ^ 12)⟩
/-- The fields of a format LI word (R40). -/
def liFields (w : Nat) : LIF :=
  ⟨BitVec.ofNat 32 (w / 2 ^ 32), BitVec.ofNat 3 (w / 2 ^ 29), BitVec.ofNat 1 (w / 2 ^ 28), BitVec.ofNat 4 (w / 2 ^ 24),
   BitVec.ofNat 6 (w / 2 ^ 18), BitVec.ofNat 6 (w / 2 ^ 12)⟩

/-- Length in bytes of the instruction whose first halfword is `w` (R39). -/
def wordLen (w : Nat) : Nat := if w % 2 == 0 then 2 else if w % 4 == 1 then 4 else 8

/-- ILL_MARKER, ILL_OPCODE and ILL_FORMAT of R54, or the form the word has under the map. -/
def parseWord (map : Nat → Nat) (len w : Nat) : Except IllCode Enc :=
  if len == 2 then
    if w % 2 ^ 16 == 0 then .error .marker else .ok (.h (BitVec.ofNat 4 (w / 2)) (hFields w))
  else
    let e := map (natBits w 11 2)
    let op := BitVec.ofNat 10 e
    if entryUndefined e then .error .opcode
    else if len == 4 then
      if e.testBit 10 then .ok (.w op (wFields w))
      else if e.testBit 11 then .ok (.wi op (wiFields w))
      else .error .format
    else if e.testBit 12 then .ok (.l op (lFields w))
    else if e.testBit 13 then .ok (.li op (liFields w))
    else .error .format

/-- Parse the bytes at a program counter: the length marker, the map, the form. Field values are not yet checked. -/
def parseBytes (map : Nat → Nat) (bs : List Byte) : DecodeResult :=
  if bs.length < 2 then .short
  else
    let len := wordLen (bytesNat (bs.take 2))
    if bs.length < len then .short
    else
      match parseWord map len (bytesNat (bs.take len)) with
      | .error c => .ill c
      | .ok e =>
        match e.build with
        | .ok i => .ok i len
        | .error c => .ill c

/-- Decode the bytes at a program counter through a map: parse, then the checks that the word alone decides (R54). -/
def decodeWith (map : Nat → Nat) (bs : List Byte) : DecodeResult :=
  match parseBytes map bs with
  | .ok i n =>
    match i.staticCheck with
    | some c => .ill c
    | none => .ok i n
  | r => r

/-- Decode through decode map 0. -/
def decode (bs : List Byte) : DecodeResult := decodeWith map0 bs

/-- The bits of an encoded form as one number, bit 0 the least significant bit of the first byte (R40). -/
def Enc.val : Enc → Nat
  | .h op f => op.toNat * 2 + f.d.toNat * 2 ^ 5 + f.s.toNat * 2 ^ 10 + f.nw.toNat * 2 ^ 15
  | .w op f => 1 + op.toNat * 4 + f.d.toNat * 2 ^ 12 + f.a.toNat * 2 ^ 18 + f.b.toNat * 2 ^ 24 + f.nw.toNat * 2 ^ 30 +
      f.g.toNat * 2 ^ 31
  | .wi op f => 1 + op.toNat * 4 + f.d.toNat * 2 ^ 12 + f.a.toNat * 2 ^ 18 + f.imm8.toNat * 2 ^ 24
  | .l op f => 3 + op.toNat * 4 + f.d.toNat * 2 ^ 12 + f.a.toNat * 2 ^ 18 + f.b.toNat * 2 ^ 24 + f.c.toNat * 2 ^ 30 +
      f.gbit.toNat * 2 ^ 36 + f.ginv.toNat * 2 ^ 41 + f.gon.toNat * 2 ^ 42 + f.nw.toNat * 2 ^ 43 + f.mod.toNat * 2 ^ 44 +
      f.imm16.toNat * 2 ^ 48
  | .li op f => 3 + op.toNat * 4 + f.d.toNat * 2 ^ 12 + f.a.toNat * 2 ^ 18 + f.mod.toNat * 2 ^ 24 + f.nw.toNat * 2 ^ 28 +
      f.zero.toNat * 2 ^ 29 + f.imm32.toNat * 2 ^ 32

/-- The bytes of an encoded form, lowest address first (R39: little-endian). -/
def Enc.bytes (e : Enc) : List Byte := natBytes e.len e.val

/-- The bytes of an instruction; none for a row of the table that has no encoding. -/
def encode (i : Instr) : Option (List Byte) := i.enc.map Enc.bytes

/-- The instruction the decoder reads from a word of the opcode table: its bits from bit 0 on, every bit above `nbits` zero,
laid out little-endian and decoded through map 0. -/
def decodeTableWord (nbits w : Nat) : Option Instr :=
  match decode (natBytes 8 (w % 2 ^ nbits)) with
  | .ok i _ => some i
  | _ => none

end Sys2Proof
end

