-- ==== Sys2Proof/Machine/Fetch.lean ====
section
/-! DEFINITION. Fetching the bytes at a program counter, and decoding them through the fibre's map (spec/03 R39, R51 to R54; spec/24 R365). -/

namespace Sys2Proof.Machine

/-- What a fetch gives: bytes, or the VA that failed with the low byte of the cause and the stage 2 mark (R364, R365). -/
inductive Fetched where
  | bytes (bs : List Byte)
  | fail (va : DWord) (cause : Nat) (s2 : Bool)
deriving DecidableEq, Repr

/-- `n` bytes of one page at the place a translation gives for `va`. -/
def codeBytes (s : State) (x : Xlate) (va : DWord) (n : Nat) : Fetched × State :=
  match x with
  | .ok spa none =>
    (match readAt s spa n with
     | .ok bs => (.bytes bs, s)
     | .error c => (.fail va c false, s))
  | .ok spa (some _) => (.bytes (remoteBytes s spa n), { s with free := s.free + 1 })
  | .fail c st => (.fail va c (st == 2), s)
  | _ => (.fail va 0x42 false, s)

/-- The translation of a fetch. -/
def fetchXlate (s : State) (f : Fibre) (va : DWord) : Xlate × State :=
  if 2 ^ 57 ≤ va.toNat then (.fail 0x41 1, s)
  else translate s (coreCluster (s.fibreCore f)) (s.fibreVf f) (s.fibreAsid f) va.toNat .fetch

/-- Fetch the instruction at a program counter: the halfword that gives the length, then the bytes of the instruction, which may cross
into the next page, and none beyond them (R39). -/
def fetch (s : State) (f : Fibre) : Fetched × State :=
  let r := fetchXlate s f f.pc
  match (codeBytes r.2 r.1 f.pc 2).1 with
  | .fail va c s2 => (.fail va c s2, r.2)
  | .bytes hs =>
    let len := wordLen (bytesNat hs)
    let k := min len (4096 - f.pc.toNat % 4096)
    let t := codeBytes r.2 r.1 f.pc k
    match t.1 with
    | .fail va c s2 => (.fail va c s2, t.2)
    | .bytes bs =>
      if len ≤ k then t
      else
        let q := f.pc + BitVec.ofNat 64 k
        let x := fetchXlate t.2 f q
        let u := codeBytes x.2 x.1 q (len - k)
        match u.1 with
        | .bytes cs => (.bytes (bs ++ cs), u.2)
        | .fail va c s2 => (.fail va c s2, u.2)

/-- The decode map a fibre uses (R51, R52): entries that have never been loaded are undefined. -/
def mapOf (s : State) (f : Fibre) : Nat → Nat :=
  if f.map == 0 then map0 else if f.map == 1 then map1 else if f.map == 2 then map2
  else fun n =>
    match s.ctx? (s.fibreAsid f) with
    | some c => ((c.maps.find? fun m => m.map == f.map && m.idx == n).map (·.val)).getD 0xFFFF
    | none => 0xFFFF

/-- The trap of a failed fetch (R365). -/
def fetchTrap (f : Fibre) (va : DWord) (cause : Nat) (s2 : Bool) : Trap := ⟨0xB0, f.pc, f.pc, va, cause % 256, s2⟩

/-- The instruction a cohort stands at, without any effect; none where it cannot be had. -/
def peekInstr (s : State) (f : Fibre) : Option Instr :=
  match (fetch s f).1 with
  | .fail _ _ _ => none
  | .bytes bs =>
    match parseBytes (mapOf s f) bs with
    | .ok i _ => some i
    | _ => none

end Sys2Proof.Machine
end

