-- ==== Sys2Proof/Machine/Sync.lean ====
section
/-! DEFINITION. Meanings: barriers, fences, signals, enqueue, wake lines, receive counters, triggered sends, greenware instructions (spec/09
R175 to R194). -/

namespace Sys2Proof.Machine

/-! ### Shared operations -/

/-- Behind an instruction at which lanes may wait: those that are ready go on, every latch of the cohort is void (R46), and those that go on split from
those that wait (R78). -/
def afterWait (w : Issue) (s : State) : State :=
  let step (f : Fibre) : Fibre :=
    if f.status.isReady then { f.voidLatches with pc := nextPc w.enc f } else if f.status.isParked then f else f.voidLatches
  splitReady { s with fibres := mapIf (fun f => w.allIds.contains f.id) step s.fibres } w.allIds

/-- Whether the lanes' earlier accesses are done as a release at `scope` needs (R180, R254). -/
def allQuiet (s : State) (scope : Nat) (ls : List Fibre) : Bool := ls.all fun l => fibreQuiet s scope l.id

/-- The lanes' scratchpad writes reach the crew (R142, R178). -/
def flushLanes (s : State) (ls : List Fibre) : State := ls.foldl (fun s l => scrFlush s l.id) s

/-- The crew of a list of lanes. -/
def crewOf (ls : List Fibre) : Nat := (ls.head?.map (·.crew)).getD 0

/-- A fibre begins to wait. -/
def setWait (s : State) (f : Fibre) (st : FStatus) (kind obj : Nat) : State :=
  waitBegin (s.setFibre f.id fun g => { g with status := st }) f kind obj

/-- A fibre writes registers of a result that is there at once. -/
def setResult (s : State) (f : Fibre) (o : LaneOut) : State := s.setFibre f.id fun g => g.setRegs o.writes

/-! ### Barriers -/

/-- Whether a fibre has an arrival at barrier `n` that it has not completed (R178). -/
def hasArrived (s : State) (f : Fibre) (n : Nat) : Bool := (((s.crew? f.crew).bind fun c => (c.bar n).arrival f.id)).isSome

/-- One lane of `bar` (R178). -/
def barLane (n : Nat) (s : State) (f : Fibre) : State :=
  if hasArrived s f n then park s f.id (Trap.here 0x70 f.pc)
  else setWait (barArrive (scrFlush s f.id) f.crew n f.id) f (.waitBar n) 1 n

/-- `bar` (R178): arrives with a release at `.crew` and waits for its phase (log 81, DEDUCED). -/
def execBar (f : WIF) (s : State) : Host.Outcome State Fault Refusal :=
  issueWhen (.bar f) s (allQuiet s 1) fun w s =>
    barEval (afterWait w ((byLane w.exec).foldl (barLane f.imm8.toNat) s)) (crewOf w.exec) f.imm8.toNat

/-- One lane of `bar.arv` (R178). -/
def barArvLane (n : Nat) (s : State) (f : Fibre) : State :=
  if hasArrived s f n then park s f.id (Trap.here 0x70 f.pc)
  else barArrive (scrFlush s f.id) f.crew n f.id

/-- `bar.arv` (R178): arrives without waiting. -/
def execBarArv (f : WIF) (s : State) : Host.Outcome State Fault Refusal :=
  issueWhen (.barArv f) s (allQuiet s 1) fun w s =>
    barEval (afterWait w ((byLane w.exec).foldl (barArvLane f.imm8.toNat) s)) (crewOf w.exec) f.imm8.toNat

/-- One lane of `bar.wt` (R178): a phase that has completed lets it go on at once. -/
def barWtLane (n : Nat) (s : State) (f : Fibre) : State :=
  match s.crew? f.crew with
  | none => s
  | some c =>
    match (c.bar n).arrival f.id with
    | none => park s f.id (Trap.here 0x70 f.pc)
    | some p =>
      if p < (c.bar n).phase then setAcquire (barLeave s f.crew n f.id) f.id
      else setWait s f (.waitBar n) 1 n

/-- `bar.wt` (R178): waits for the phase of its arrival. -/
def execBarWt (f : WIF) (s : State) : Host.Outcome State Fault Refusal :=
  issue (.barWt f) s fun w s => afterWait w ((byLane w.exec).foldl (barWtLane f.imm8.toNat) s)

/-- Whether a register's group number is one of the crew's groups (R179). -/
def groupOk (s : State) (f : Fibre) (v : Nat) : Bool :=
  v < 256 && match s.fibreCrew f, s.fibreGrid f with
    | some c, some g => g.groups.any fun x => x.num == v && x.crews.contains c.linear
    | _, _ => false

/-- One lane of `gbar` (R179). -/
def gbarLane (w : Issue) (s : State) (f : Fibre) : State :=
  let v := (f.src (aField w.enc)).toNat
  if groupOk s f v then setWait (scrFlush s f.id) f (.waitGbar v) 2 v else park s f.id (Trap.here 0x71 f.pc)

/-- `gbar` (R179): a release at `.pkg`, then the fibre arrives for its crew and waits for the group. -/
def execGbar (f : WIF) (s : State) : Host.Outcome State Fault Refusal :=
  issueWhen (.gbar f) s (allQuiet s 5) fun w s =>
    let t := afterWait w ((byLane w.exec).foldl (gbarLane w) s)
    gbarEvalAll t ((((w.exec.head?).bind s.fibreCrew).map (·.grid)).getD 0)

/-! ### Fences -/

/-- `fence` (R180): a release waits until the fibre's writes are applied; an acquire comes before its later accesses. -/
def execFence (f : WIF) (s : State) : Host.Outcome State Fault Refusal :=
  let order := natBits f.imm8.toNat 1 0
  let scope := natBits f.imm8.toNat 4 2
  issueWhen (.fence f) s (fun ls => !isRelease order || ls.all fun l => fibreApplied s scope l.id) fun w s =>
    memLanes w s fun s l =>
      let s1 := if isRelease order then (if scope == 7 then hostSettle (scrFlush s l.id) else scrFlush s l.id).setFibre l.id fun g => { g with relScope := some scope } else s
      if isAcquire order then setAcquire s1 l.id else s1

/-- What a fibre has written through decoded views enters the causal order as a write to its codes and scales (R259). -/
def fenceDecoded (s : State) (l : Fibre) : State :=
  if l.unfenced.isEmpty then s
  else
    let homes := distinct (l.unfenced.map s.homeOf)
    let s1 := homes.foldl (fun s h =>
      let r := stampWrite s (coreDie (s.fibreCore l)) (l.unfenced.filter fun b => s.homeOf b == h) (s.frontierOf l.id)
      r.2.teach l.id r.1) s
    s1.setFibre l.id fun g => { g with unfenced := [] }

/-- `vfence` (R181): waits for the fibre's writes through decoded views, then discards the address space's lines in the core's L1. -/
def execVfence (f : WF) (s : State) : Host.Outcome State Fault Refusal :=
  let done (l : Fibre) : Bool := !(s.accesses.any fun a => decide (a.agent = .fibre l.id) && a.decodedWrite)
  issueWhen (.vfence f) s (fun ls => ls.all done) fun w s =>
    memLanes w s fun s0 l =>
      let s := fenceDecoded s0 l
      { s with cores := mapIf (·.num == s.fibreCore l)
                 (fun c => { c with l1 := c.l1.filter (·.asid != s.fibreAsid l) }) s.cores }

/-! ### Signals -/

/-- One lane of a signal operation: checks as for an atomic of 8 bytes, then the operation on its way (R182, R183). -/
def signalLane (w : Issue) (op : Fibre → MemOp) (s : State) (f : Fibre) : State :=
  let e := w.enc
  let va := effAddr e f
  let r := checkAddr s f va 8 (if (op f).writes then .write else .read)
  let send (s : State) (spa : Nat) (dev : Option Nat) (held : Bool) : State :=
    let s0 := releaseScr s f.id (orderOf e)
    let d := if (op f).reads then destOf e f 2 0 none else none
    let a := fibreAccess s0 f va spa dev held (op f) d (orderOf e) (scopeOf e)
    let b := if (op f).writes then withRelease s0 f.id a else a
    let s1 := sendAccess s0 b
    acquireBy (if (op f).writes then dropRelease s1 f.id else s1) f.id (orderOf e)
  match r.1 with
  | .bad t => park r.2 f.id t
  | .nonres => parkAddr r.2 f 0x42 va
  | .held => send r.2 0 none true
  | .ok spa dev => send r.2 spa dev false

/-- `sig.add` (R183). -/
def execSigAdd (f : LF) (s : State) : Host.Outcome State Fault Refusal :=
  issue (.sigAdd f) s fun w s => memLanes w s (signalLane w fun l => .sigAdd (l.src64 (bField w.enc)))

/-- One lane of `sig.set`: under ABT the code is checked before the address (R183). -/
def sigSetLane (w : Issue) (s : State) (f : Fibre) : State :=
  if (modOf w.enc).testBit 2 then
    let code := (f.src (bField w.enc)).toNat
    if code == 0 || 7 < code then park s f.id (Trap.here 0x76 f.pc)
    else signalLane w (fun _ => .sigAbort code) s f
  else signalLane w (fun l => .sigSet (l.src64 (bField w.enc))) s f

/-- `sig.set` (R183). -/
def execSigSet (f : LF) (s : State) : Host.Outcome State Fault Refusal :=
  issue (.sigSet f) s fun w s => memLanes w s (sigSetLane w)

/-- `sig.read` (R183). -/
def execSigRead (f : LF) (s : State) : Host.Outcome State Fault Refusal :=
  issue (.sigRead f) s fun w s => memLanes w s (signalLane w fun _ => .sigRead false)

/-- Whether a value satisfies the condition of `sigw` (R184). -/
def sigMet (cond : Nat) (v b : DWord) : Bool :=
  v.slt 0 || (if cond == 0 then v.sle b else if cond == 1 then b.sle v else v != b)

/-- A deadline in device time: no register names no cone, 0 the function's default (R185, R194, R319). -/
def coneOf (s : State) (f : Fibre) (reg : Nat) : Option Nat :=
  if reg == 63 then none
  else
    let t := (f.src reg).toNat
    some (s.time.dtc + usTicks (if t == 0 then ((s.fn? (s.fibreVf f)).map (·.cone)).getD 2000 else t))

/-- A wait on a signal ends: nothing awaits its updates any more. -/
def sigwLeave (s : State) (id : Nat) : State :=
  { s with remote := s.remote.filter fun r => r.use != .watch id
           notifs := s.notifs.filter fun n => match n with
             | .fibre f _ => f != id
             | _ => true }

/-- A fibre in `sigw` sees a value of its signal (R184): it goes on alone, with the value in D and the acquire, or keeps waiting. -/
def sigwSee (s : State) (id : Nat) (v : DWord) (st : Stamp) : State :=
  match s.fibre? id with
  | none => s
  | some f =>
    match f.status with
    | .waitSig w =>
      if sigMet w.cond v w.cmp then
        let land (g : Fibre) : Fibre :=
          { (if w.reg == 63 then g else g.setRegs [(w.reg, lo32 v), (w.reg + 1, hi32 v)]) with
            frontier := stampMerge g.frontier st }
        goOnAlone (sigwLeave (s.setFibre id land) id) id w.next w.scope
      else s.setFibre id fun g => { g with status := .waitSig { w with last := v } }
    | _ => s

/-- One lane of `sigw` (R184, R185): it waits, and a read of the signal is on its way (log 48, DESIGN CHOICE). -/
def sigwLane (w : Issue) (s : State) (f : Fibre) : State :=
  let e := w.enc
  let va := effAddr e f
  let r := checkAddr s f va 8 .read
  match r.1 with
  | .bad t => park r.2 f.id t
  | .ok spa dev =>
    let x : SigWait :=
      { va := va, spa := spa, dev := dev, cond := modOf e % 4, cmp := f.src64 (bField e), deadline := coneOf s f (cField e),
        reg := (dField e).getD 63, scope := scopeOf e, last := 0, next := nextPc e f }
    sendAccess (setWait r.2 f (.waitSig x) 3 (spa % 2 ^ 49 + 2 ^ 52 * dev.getD 0))
      (fibreAccess r.2 f va spa dev false (.sigRead true) none 0 0)
  | _ => parkAddr r.2 f 0x42 va

/-- `sigw` (R184, R185). -/
def execSigw (f : LF) (s : State) : Host.Outcome State Fault Refusal :=
  issue (.sigw f) s fun w s => afterWait w ((byLane w.exec).foldl (sigwLane w) s)

/-! ### Enqueue -/

/-- The 64 bytes of a packet in sixteen registers (R186). -/
def packetBytes (e : Enc) (f : Fibre) : List Byte := (f.srcMany (bField e) 16).flatMap fun v => natBytes 4 v.toNat

/-- The live queue whose descriptor lies at a physical address. -/
def queueAt (s : State) (spa : Nat) (dev : Option Nat) : Option Queue :=
  if dev.isSome then none else s.queues.find? (·.desc == spa)

/-- The status of `enq` as a 32-bit result that lands later (R225). -/
def enqStatus (s : State) (f : Fibre) (e : Enc) (n : Nat) : State := oweReg s f e 1 false (some (BitVec.ofNat 64 n))

/-- Write and publish a packet in the slot reserved for it (R22): the slot, WRIDX, the doorbell. A slot write that its home refuses leaves
the status OK (R186). -/
def publish (s : State) (q : Queue) (slot : Nat) (dev : Option Nat) (f : Fibre) (bytes : List Byte) : State :=
  let n := s.wridx q
  let die := coreDie (s.fibreCore f)
  let s1 := match dev with
    | none =>
      (match writable s slot 64 with
       | .ok stor =>
         let r := applyAt s die slot stor bytes (s.frontierOf f.id) (s.fibreOp f)
         r.2.teach f.id r.1
       | .error _ => s)
    | some _ => sendAccess s (engineAccess s die q.vf q.asid (slotVa q n) slot dev (.write ((List.range 64).zip bytes) false) (s.fibreOp f))
  let s2 := s1.putBytes (q.desc + 8) (natBytes 8 (n + 1))
  queueBell (s2.setQueue q.qnum fun q => { q with pubs := q.pubs ++ [(n, s.fibreOp f)] }) q.qnum

/-- One lane of `enq` behind the checks of its packet and descriptor. -/
def enqQueue (e : Enc) (s : State) (f : Fibre) (q : Queue) : State :=
  let n := s.wridx q
  if 2 ^ q.logsz ≤ n - q.rdidx then enqStatus s f e 1
  else
    let va := slotVa q n
    match translateWalk s q.vf q.asid va.toNat .write with
    | .ok spa dev => enqStatus (publish s q spa dev f (packetBytes e f)) f e 0
    | x => park s f.id (xlateTrap x f.pc va)

/-- One lane of `enq` (R186). Where ENQ_ARG stands among the checks of R131 is not stated: behind range and alignment, before the translation (log 147, DESIGN
CHOICE). -/
def enqLane (w : Issue) (s : State) (f : Fibre) : State :=
  let e := w.enc
  let va := f.src64 (aField e)
  if 2 ^ 57 ≤ va.toNat then parkAddr s f 0x41 va
  else if va.toNat % 64 != 0 then parkAddr s f 0x40 va
  else if ((packetBytes e f).getD 0 0) == 0 then park s f.id (Trap.here 0x72 f.pc)
  else
    let r := checkAddr s f va 64 .write
    match r.1 with
    | .bad t => park r.2 f.id t
    | .ok spa dev =>
      (match queueAt r.2 spa dev with
       | some q => if q.vf == s.fibreVf f && q.enqOk then enqQueue e r.2 f q else enqStatus r.2 f e 2
       | none => enqStatus r.2 f e 2)
    | _ => parkAddr r.2 f 0x42 va

/-- Whether a page that migrates holds an `enq` (R274): its descriptor's or its slot's. -/
def enqHeld (e : Enc) (s : State) (f : Fibre) : Bool :=
  let va := f.src64 (aField e)
  match translateWalk s (s.fibreVf f) (s.fibreAsid f) va.toNat .write with
  | .held => true
  | .ok spa dev => (match queueAt s spa dev with
    | some q => decide (translateWalk s q.vf q.asid (slotVa q (s.wridx q)).toNat .write = .held)
    | none => false)
  | _ => false

/-- `enq` (R186, R22): a release at `.pkg`, then the producer sequence for each lane. -/
def execEnq (f : LF) (s : State) : Host.Outcome State Fault Refusal :=
  issueWhen (.enq f) s (fun ls => allQuiet s 5 ls && ls.all fun l => !enqHeld (.l 0x2D8 f) s l) fun w s =>
    memLanes w (flushLanes s w.exec) (enqLane w)

/-! ### Wake lines -/

/-- Arm a wake entry for a fibre (R187): none when the line has no entry and all 16 are in use. -/
def wakeArm (c : Core) (line asid fibre : Nat) : Option Core :=
  if c.wake.any (·.line == line) then
    some { c with wake := mapIf (·.line == line) (fun e => { e with waiters := e.waiters ++ [fibre] }) c.wake }
  else if c.wake.length < 16 then some { c with wake := c.wake ++ [⟨line, asid, [fibre]⟩] }
  else none

/-- The home registers a core for a line (R363). -/
def wakeRegister (s : State) (line core : Nat) : State :=
  if s.registrations.contains (line, core) then s else { s with registrations := s.registrations ++ [(line, core)] }

/-- A waiter leaves its entry; the last one releases it (R187); a registration that a forwarding entry needs stays (R362). -/
def wakeLeave (s : State) (core line fibre : Nat) : State :=
  let cut (e : WakeEntry) : WakeEntry := { e with waiters := e.waiters.filter (· != fibre) }
  let s1 := s.setCore core fun c => { c with wake := (mapIf (·.line == line) cut c.wake).filter fun e => !e.waiters.isEmpty }
  if (s1.core core).wake.any (·.line == line) || (s1.core core).fwd.any (·.lines.contains line) then s1
  else { s1 with registrations := s1.registrations.filter (· != (line, core)) }

/-- One lane of `wwait` (R187): the arming and the read are one step at the home (log 49, DESIGN CHOICE). Lines are those of storage (R248). -/
def wwaitLane (w : Issue) (s : State) (f : Fibre) : State :=
  let e := w.enc
  let va := effAddr e f
  let r := checkAddr s f va 8 .read
  match r.1 with
  | .bad t => park r.2 f.id t
  | .ok spa dev =>
    (match dev, s.place spa with
     | none, .hbm _ _ =>
       let core := s.fibreCore f
       let line := homeByte s spa / 64
       match readAt r.2 spa 8 with
       | .error c => park r.2 f.id ⟨c, f.pc, f.pc, va, 1, false⟩
       | .ok bs =>
         match wakeArm (s.core core) line (s.fibreAsid f) f.id with
         | none => setResult r.2 f (out32 e 2)
         | some c =>
           let s1 := r.2.teach f.id (stampOf s ((List.range 8).map (homeByte s spa + ·)))
           if BitVec.ofNat 64 (bytesNat bs) != f.src64 (bField e) then setResult s1 f (out32 e 1)
           else
             let x : WakeWait := ⟨s1.nextId, line, va, f.src64 (bField e), (dField e).getD 63, scopeOf e, nextPc e f⟩
             wakeRegister (setWait ((fresh s1).2.setCore core fun _ => c) f (.waitWake x) 4 line) line core
     | _, _ => parkAddr r.2 f 0x73 va)
  | _ => parkAddr r.2 f 0x42 va

/-- Whether a fibre's earlier accesses to the line of a `wwait` have been performed, and what an acquire asks (R249, R256). -/
def wwaitReady (s : State) (e : Enc) (f : Fibre) : Bool :=
  acquired s f &&
  !(s.accesses.any fun a => decide (a.agent = .fibre f.id) && !a.nc && a.va.toNat / 64 == (effAddr e f).toNat / 64)

/-- `wwait` (R187). -/
def execWwait (f : LF) (s : State) : Host.Outcome State Fault Refusal :=
  issueWhen (.wwait f) s (fun ls => ls.all (wwaitReady s (.l 0x2DC f))) fun w s =>
    afterWait w ((byLane w.exec).foldl (wwaitLane w) s)

/-! ### Receive counters and triggered sends -/

/-- The counter word of a lane (R189). -/
def ctrWord (e : Enc) (f : Fibre) : Nat := (f.src (aField e)).toNat

/-- One lane of a counter instruction: a word that names no counter of the function parks it (R189). -/
def ctrLane (w : Issue) (act : State → Fibre → Nat → State) (s : State) (f : Fibre) : State :=
  if counterOk s (s.fibreVf f) (ctrWord w.enc f) then act s f (ctrWord w.enc f) else park s f.id (Trap.here 0x74 f.pc)

/-- `ctr.add` (R189): a release at `.pkg`; D receives the new value. -/
def execCtrAdd (f : LF) (s : State) : Host.Outcome State Fault Refusal :=
  issueWhen (.ctrAdd f) s (allQuiet s 5) fun w s =>
    memLanes w (flushLanes s w.exec) (ctrLane w fun s l n =>
      let t := counterAdd (s.addClock (.counter n) (s.frontierOf l.id)) n (l.src (bField w.enc)).toInt
      setResult t l (out64 w.enc (counterValue { s.counter n with count := (clampCount ((s.counter n).count + (l.src (bField w.enc)).toInt)) })))

/-- `ctr.read` (R189): an acquire at `.fab` (R254). -/
def execCtrRead (f : LF) (s : State) : Host.Outcome State Fault Refusal :=
  issue (.ctrRead f) s fun w s =>
    memLanes w s (ctrLane w fun s l n =>
      setAcquire ((setResult s l (out64 w.enc (counterValue (s.counter n)))).teach l.id (s.clockOf (.counter n))) l.id)

/-- `ctr.set` (R189): a release at `.pkg`; ERR is cleared. -/
def execCtrSet (f : LF) (s : State) : Host.Outcome State Fault Refusal :=
  issueWhen (.ctrSet f) s (allQuiet s 5) fun w s =>
    memLanes w (flushLanes s w.exec) (ctrLane w fun s l n =>
      counterTo (s.setClock (.counter n) (s.frontierOf l.id)) n ((l.src64 (bField w.enc)).toNat % 2 ^ 48) true)

/-- A send record's fields (R190). -/
def sendOf (n id vf asid : Nat) : Send :=
  { id := id, vf := vf, asid := asid, die := ctrDie (natBits n 191 160), src := BitVec.ofNat 64 (natBits n 63 0),
    dst := BitVec.ofNat 64 (natBits n 127 64), bytes := natBits n 159 128, tctr := natBits n 191 160, thresh := natBits n 239 192,
    rctr := natBits n 287 256, rinc := natBits n 319 288, lctr := natBits n 351 320, linc := natBits n 383 352,
    wake := n.testBit 384, dev := none, state := .held, op := 0, outstanding := [] }

/-- The faults of a send record (R190). -/
def sendBad (s : State) (vf n : Nat) : Bool :=
  let x := sendOf n 0 vf 0
  natBits n 511 385 != 0 || natBits n 255 240 != 0 || x.bytes == 0 || 2 ^ 30 < x.bytes || !counterOk s vf x.tctr ||
  (x.lctr != noCounter && !counterOk s vf x.lctr)

/-- One lane of `tsend` (R190, R191). -/
def tsendLane (w : Issue) (s : State) (f : Fibre) : State :=
  let o := (f.src (aField w.enc)).toNat
  match recordCheck s f o with
  | some c => parkScr s f c o
  | none =>
    let n := scrRecord s f o
    if sendBad s (s.fibreVf f) n then park s f.id (Trap.here 0x75 f.pc)
    else
      let r := armSend (issueClock (fresh s).2 f (fresh s).1) (sendOf n (fresh s).1 (s.fibreVf f) (s.fibreAsid f))
      oweReg r.2 f w.enc 1 false (some (BitVec.ofNat 64 r.1))

/-- `tsend` (R190, R191). -/
def execTsend (f : LF) (s : State) : Host.Outcome State Fault Refusal :=
  issue (.tsend f) s fun w s => memLanes w s (tsendLane w)

/-! ### Greenware instructions -/

/-- One lane of `invoke` (R193, R352): the die's table mints a handle and starts the invocation. -/
def invokeLane (w : Issue) (s : State) (f : Fibre) : State :=
  let va := f.src64 (aField w.enc)
  if 2 ^ 57 ≤ va.toNat then parkAddr s f 0x41 va
  else if va.toNat % 64 != 0 then parkAddr s f 0x40 va
  else
    match gwMint s (coreDie (s.fibreCore f)) (s.fibreVf f) (s.fibreOp f) with
    | .error r => oweReg s f w.enc 2 false (some (BitVec.ofNat 64 r))
    | .ok (h, t) =>
      oweReg (gwStart (t.addClock (.handle h) (s.frontierOf f.id)) (coreDie (s.fibreCore f)) h (s.fibreVf f) (s.fibreAsid f) va) f w.enc 2 false
        (some h)

/-- `invoke` (R193): a release at `.fab` comes before the first message. -/
def execInvoke (f : LF) (s : State) : Host.Outcome State Fault Refusal :=
  issueWhen (.invoke f) s (allQuiet s 6) fun w s => memLanes w (flushLanes s w.exec) (invokeLane w)

/-- The state part of a status word (R194). -/
def gwState (v : Word) : Nat := v.toNat % 256

/-- Send a query to a handle's origin device (R194). -/
def gwAsk (s : State) (f : Fibre) (h : DWord) (wait : Bool) (ref : Nat) : State :=
  gwToOrigin { s with gwQueries := s.gwQueries ++ [⟨ref, some s.time.dtc, f.id, h, wait, none⟩] } (s.fibreVf f) h
    (.query h ref (s.fibreVf f) wait s.dev.dev)

/-- One lane of `hwait` (R194). -/
def hwaitLane (w : Issue) (s : State) (f : Fibre) : State :=
  let h := f.src64 (aField w.enc)
  let x : HandleWait := ⟨h, coneOf s f (cField w.enc), (dField w.enc).getD 63, s.nextId, nextPc w.enc f⟩
  let begin (s : State) : State := setWait { s with nextId := s.nextId + 1 } f (.waitHandle x) 5 h.toNat
  if h.toNat % 256 == 0 && handleDev h != s.dev.dev then gwAsk (begin s) f h true s.nextId
  else
    let a := gwAnswer s h (s.fibreVf f)
    if gwState a == 0 then begin s
    else
      let t := setResult s f (out32 w.enc a)
      if gwState a == 1 then setAcquire (t.teach f.id (s.clockOf (.handle h))) f.id else t

/-- `hwait` (R194). -/
def execHwait (f : LF) (s : State) : Host.Outcome State Fault Refusal :=
  issue (.hwait f) s fun w s => afterWait w ((byLane w.exec).foldl (hwaitLane w) s)

/-- One lane of `hstat` (R194). -/
def hstatLane (w : Issue) (s : State) (f : Fibre) : State :=
  let h := f.src64 (aField w.enc)
  if h.toNat % 256 == 0 && handleDev h != s.dev.dev then
    let ref := s.nextId
    gwAsk (oweReg s f w.enc 1 false none) f h false ref
  else setResult s f (out32 w.enc (gwAnswer s h (s.fibreVf f)))

/-- `hstat` (R194). -/
def execHstat (f : LF) (s : State) : Host.Outcome State Fault Refusal :=
  issue (.hstat f) s fun w s => memLanes w s (hstatLane w)

end Sys2Proof.Machine
end

