-- ==== Sys2Proof/Machine/AccessEvents.lean ====
section
/-! DEFINITION. Meanings: accesses performed and answered, landings, wakes and waits of fibres, cohorts (spec/07 R132, R398; spec/08 R152, R156;
spec/09 R184 to R188; spec/04 R79, R81; spec/11 R215, R223; spec/14 R249, R252). -/

namespace Sys2Proof.Machine

/-! ### Accesses -/

def State.access? (s : State) (ref : Nat) : Option Access := s.accesses.find? (·.ref == ref)

/-- ACCESS_PERFORMED (R249): an access is performed at its home, or leaves for another device. -/
def execAccessPerformed (ref : Nat) (s : State) : Host.Outcome State Fault Refusal :=
  .next (match s.access? ref with
    | none => s
    | some a =>
      if !canPerform s a || (apertureStore s a).isSome then s
      else
        match a.dev with
        | some d => endReplays (performRemote s a d)
        | none => endReplays (serveDone (performLocal s a) ref))

/-- Count an access of the memory BAR that finds no leaf (R383). -/
def barFail (s : State) (vf : Nat) : State := s.setFn vf fun f => { f with barFails := f.barFails + 1 }

/-- Where a write of the memory BAR goes when it is sent again: its address is a GPA (R262, R383). -/
def hostPlace (s : State) (vf gpa : Nat) : Xlate :=
  match stage2 s vf gpa with
  | .error c => .fail c.1 c.2
  | .ok (e, lv) =>
    if !e.testBit 5 then .nonres
    else if !e.testBit 3 then .fail 0x91 2
    else if e.testBit 9 then .held
    else .ok (leafAddr e lv gpa) (if e.testBit 11 then some (natBits e 63 52) else none)

/-- A rejected generation of an engine's access, or of the host's (R132, R139): it is translated again and sent again. -/
def replayEngine (s : State) (a : Access) : State :=
  let x := match a.agent with
    | .host vf => hostPlace s vf a.va.toNat
    | _ => translateWalk s a.vf a.asid a.va.toNat (if a.op.writes then .write else .read)
  match x with
  | .held => setResp s a.ref .held
  | .ok spa dev => s.setAccess a.ref fun b => b.moved spa dev (s.gen a.asid)
  | x =>
    match sendOfRef s a.ref, a.agent with
    | some y, _ => sendFail s y (match x with | .nonres => 2 | _ => 1)
    | none, .host vf => barFail (dropAccess s a.ref) vf
    | none, _ => dropAccess s a.ref

/-- The source of a `cpa` is translated and read again; the lane goes on meanwhile (R156). What a translation that now fails does is not stated: the copy ends
in COPY_ERR, as on any error to an issued copy (log 131, DESIGN CHOICE). -/
def replayCpa (s : State) (a : Access) : State :=
  match translateWalk s a.vf a.asid a.va.toNat .read with
  | .ok spa dev => (countReplay s a).setAccess a.ref fun b => { b.moved spa dev (s.gen a.asid) with replays := b.replays + 1 }
  | .nonres => setResp s a.ref (.err 0x42)
  | .fail c _ => setResp s a.ref (.err c)
  | .held => s

/-- The answer of an access reaches its source (R50, R132, R252), in the order of its home's answers (R235): registers are written, stale values and rejected
generations are played again. -/
def landResponse (s : State) (a : Access) : State :=
  match a.resp with
  | .stale =>
    if !answerTurn s a then s
    else if a.cpa then replayCpa s a
    else match a.agent with
      | .fibre _ => endReplays (replayStale s a)
      | _ => replayEngine s a
  | .held =>
    match a.agent with
    | .fibre _ => releaseHeld s a
    | _ => replayEngine s a
  | .ok val st applied =>
    if a.cpa || !landTurn s a then s
    else
      match isWaitRead s a, sendOfRef s a.ref with
      | some f, _ =>
        if a.dev.isNone && isStale s a applied then readAgain s a
        else sigwSee (dropAccess s a.ref) f (BitVec.ofNat 64 (bytesNat val)) st
      | none, some x => sendData (learn s a st) x a val
      | none, none =>
        match copyOfRef s a.ref with
        | some (chan, e) => copyData s chan e a val
        | none =>
          let s1 := endReplays (landAccess s a val st applied)
          if decide (a.agent = .engine) && a.op.writes then packetWrote s1 a.opid false else s1
  | _ => s

/-- The registers of a fibre that a result writes wake their banks (R223). -/
def wakeLanding (s : State) (fibre reg words : Nat) : State :=
  match s.fibre? fibre with
  | some f => wakeBanks s (s.fibreCore f) f.part (banksOf f ((List.range words).map (reg + ·)))
  | none => s

/-- Whether a result may land now: a time once the DTC has reached it (R195), a handle once its message need not enter a full retry list (R355), that
of a saved fibre once it is restored (R370). -/
def owedReady (s : State) (o : Owed) (v : DWord) : Bool :=
  (!o.isTime || v.toNat ≤ s.time.dtc) && !s.isSaved o.fibre && !(o.words == 2 && !o.isTime && retryHolds s v)

/-- A token, status, handle or time lands in its register once it may (R50, R225). A landed token is an acquire at `.pkg` of what its operation has done (R260, R273). -/
def landOwed (s : State) (o : Owed) : State :=
  match o.val with
  | none => s
  | some v =>
    if !owedReady s o v then s
    else
      let s1 := wakeLanding { s with owed := s.owed.filter (·.ref != o.ref) } o.fibre o.reg o.words
      let s2 := match o.token with
        | some st => setAcquire (s1.teach o.fibre st) o.fibre
        | none => s1
      landDest s2 ⟨o.fibre, o.reg, o.words, 0, none⟩ o.ref (natBytes (4 * o.words) v.toNat)

/-- RESPONSE_ARRIVAL (R50): a load, token or status lands in its register. -/
def execResponseArrival (ref : Nat) (s : State) : Host.Outcome State Fault Refusal :=
  .next (match s.access? ref with
    | some a =>
      let s1 := match a.dest with
        | some d => wakeLanding s d.fibre d.reg d.words
        | none => s
      landResponse s1 a
    | none =>
      match s.owed.find? (·.ref == ref) with
      | some o => landOwed s o
      | none => s)

/-! ### Error responses -/

/-- The copies of a fibre after those that have landed in issue order under their tag are credited (R152). -/
def creditAll (cs : List TagCopy) : List TagCopy :=
  cs.filter fun c => !c.landed || cs.any fun d => d.tag == c.tag && !d.landed && d.ref < c.ref

/-- A fibre's copies change, and credits are made: what credited copies have read waits for its next `cpw` or `cpq` (R260). -/
def Fibre.credited (f : Fibre) (cs : List TagCopy) : Fibre :=
  { f with copies := creditAll cs
           credit := (cs.filter fun c => !(creditAll cs).contains c).foldl (fun st c => stampMerge st c.st) f.credit }

/-- COPY_ERR (R156), whose AUX is zero (R364): a waiting lane in `cpw` parks at once, any other at its next boundary. -/
def copyError (s : State) (a : Access) : State :=
  match a.owner.bind s.fibre? with
  | none => dropAccess s a.ref
  | some f =>
    let s1 := (dropAccess s a.ref).setFibre f.id fun g => g.credited (g.copies.filter (·.ref != a.ref))
    if f.status.isWaitTag then
      cpwEval (park s1 f.id ⟨0x50, f.pc, f.pc, a.pc, 0, false⟩) f.cohort
    else deferPark s1 f.id 0x50 a.pc 0 none

/-- ERROR_RESPONSE (R398): the access writes nothing, its registers are no longer busy, the lane parks at its next boundary. -/
def execErrorResponse (ref : Nat) (s : State) : Host.Outcome State Fault Refusal :=
  .next (match s.access? ref with
    | none => s
    | some a =>
      match a.resp with
      | .err c =>
        if !answerTurn s a then s
        else if a.cpa then copyError s a
        else
          match isWaitRead s a, sendOfRef s ref, a.owner with
          | some f, _, _ =>
            park (waitEnd (sigwLeave (dropAccess s ref) f) f) f ⟨c, a.pc, a.pc, a.va, 1, false⟩
          | none, some x, _ => sendFail s x (statusOf c)
          | none, none, some f => deferPark (endReplays (unbusy (dropAccess s ref) ref)) f c a.va 1 none
          | none, none, none =>
            match copyOfRef s ref with
            | some (chan, e) => copyFail s chan e ref (if a.dev.isSome then 5 else statusOf c)
            | none => (match a.agent with
              | .host vf => barFail (dropAccess s ref) vf
              | .engine => packetWrote (nodeRefused (dropAccess s ref) a) a.opid true
              | _ => dropAccess s ref)
      | _ => s)

/-! ### Per-fibre copies -/

/-- Bytes a landing copy writes: those read, zeros behind them (R151). -/
def copyBytes (a : Access) (val : List Byte) : List (Nat × Byte) :=
  (List.range a.scrLen).map fun i => (i, val.getD i 0)

/-- The writes of a fibre to the bytes of a copy that it made behind the `cpa` leave each byte with either value (R155, R226): a free choice for each. Those
made before it reached the scratchpad when it was issued. -/
def copyScr (s : State) (f : Fibre) (o n : Nat) : State :=
  ((f.scr.filter fun p => o ≤ p.1 && p.1 < o + n).map (·.1)).foldl
    (fun s b => let c := choose s 2; if c.1 == 0 then scrShow c.2 f.id b 1 else c.2) s

/-- A copy lands (R151, R152): its bytes are in the scratchpad as one unit, it is credited in issue order. -/
def landCopy (s : State) (a : Access) (val : List Byte) (st : Stamp) : State :=
  match a.owner.bind s.fibre? with
  | none => dropAccess s a.ref
  | some f =>
    let s1 := copyScr s f a.scrOff a.scrLen
    let s2 := s1.setCrew f.crew fun c => { c with scratch := memWriteAt c.scratch a.scrOff (copyBytes a val) }
    let mark (c : TagCopy) : TagCopy := if c.ref == a.ref then { c with landed := true, st := st } else c
    let s3 := (dropAccess (scrGood s2 f.crew a.scrOff a.scrLen) a.ref).setFibre f.id fun g => g.credited (g.copies.map mark)
    cpwEval (reap s3 f.id) f.cohort

/-- CPA_LAND (R152): a per-fibre copy lands and is credited in issue order; a causally stale value is read again (R252, R260). -/
def execCpaLand (ref : Nat) (s : State) : Host.Outcome State Fault Refusal :=
  .next (match s.access? ref with
    | none => s
    | some a =>
      match a.cpa, a.resp with
      | true, .ok val st applied =>
        if !(a.scrOnly || copyTurn s a) then s
        else if !a.scrOnly && a.dev.isNone && isStale s a applied then readAgain s a
        else landCopy s a val st
      | _, _ => s)

/-! ### Wakes and waits -/

/-- A waiting fibre goes on with a status of `wwait` (R187); it leaves its entry. -/
def wakeOne (s : State) (core : Nat) (id : Nat) (status : Word) : State :=
  match s.fibre? id with
  | none => s
  | some f =>
    match f.status with
    | .waitWake w =>
      let s1 := if w.reg == 63 then s else s.setFibre id fun g => g.setReg w.reg status
      wakeLeave (goOn s1 id w.next w.scope) core w.line id
    | _ => s

/-- A wake reaches a core (R187): every fibre there that waits on the line with one of the armings goes on with WOKEN. Those of one cohort go on together and
split from the rest (R78). -/
def wakeFibres (s : State) (core line : Nat) (arms : Option (List Nat)) : State :=
  let hit (f : Fibre) : Bool := s.fibreCore f == core && match f.status with
    | .waitWake w => w.line == line && (arms.map (·.contains w.arm)).getD true
    | _ => false
  let fs := s.fibres.filter hit
  (distinct (fs.map (·.cohort))).foldl
    (fun s n =>
      let ids := (fs.filter (·.cohort == n)).map (·.id)
      newCohort (ids.foldl (fun s id => wakeOne s core id 0) s) ids) s

/-- What arrives at a core for crews that have left is held for them, up to 64 items of each until it is restored (R362). -/
def fwdHold (s : State) (core line : Nat) (op : DWord) : State :=
  let keep (e : FwdEntry) : FwdEntry :=
    if e.lines.contains line && decide (e.dst ≠ some core) && (e.dst.isSome || e.held.length < 64) then
      { e with held := e.held ++ [(line, op)] }
    else e
  if (s.core core).fwd.isEmpty then s else s.setCore core fun c => { c with fwd := c.fwd.map keep }

/-- WAKE_DELIVERY (R187): a wake that is on its way reaches its core, and what forwarding entries hold there (R362). -/
def execWakeDelivery (ref : Nat) (s : State) : Host.Outcome State Fault Refusal :=
  .next (match s.wakes.find? (·.ref == ref) with
    | none => s
    | some w => wakeFibres (fwdHold { s with wakes := s.wakes.filter (·.ref != ref) } w.core w.line w.op) w.core w.line w.arms)

/-- The value of a local signal at its home, as a waiting fibre reads it. -/
def signalNow (s : State) (w : SigWait) : Option (DWord × Stamp) :=
  match atomStorage s w.spa 8 with
  | .ok bs => if eccFails s bs then none else some (BitVec.ofNat 64 (bytesNat (bs.map s.getByte)), stampOf s bs)
  | .error _ => none

/-- SIGW_EVALUATE (R184): a notification of an update makes the waiting fibre evaluate again. -/
def execSigwEvaluate (fibre : Nat) (s : State) : Host.Outcome State Fault Refusal :=
  .next (match s.notifs.find? fun n => match n with
      | .fibre f _ => f == fibre
      | _ => false with
    | none => s
    | some n =>
      let s1 := { s with notifs := s.notifs.erase n }
      match s.fibre? fibre with
      | none => s1
      | some f =>
        match f.status with
        | .waitSig w =>
          (match signalNow s w with
           | some (v, st) => sigwSee s1 fibre v st
           | none => s1)
        | _ => s1)

/-- WITNESS_EXPIRE of a timed wait of a fibre (R319). -/
def waitExpire (s : State) (f : Fibre) : State :=
  emit s (coreSrc (s.fibreCore f)) 0x0605 (s.fibreOp f) 0 0 (s.fibreVf f)

/-- SIGW_TIMEOUT (R185): the cone expires with the condition unsatisfied; the last value read goes to D, without an acquire. -/
def execSigwTimeout (fibre : Nat) (s : State) : Host.Outcome State Fault Refusal :=
  .next (match s.fibre? fibre with
    | none => s
    | some f =>
      match f.status with
      | .waitSig w =>
        (match w.deadline with
         | none => s
         | some d =>
           if s.time.dtc < d || s.accesses.any (fun a => decide (isWaitRead s a = some fibre)) then s
           else
             let s1 := waitExpire (sigwLeave s fibre) f
             let s2 := if w.reg == 63 then s1 else s1.setFibre fibre fun g => g.setRegs [(w.reg, lo32 w.last), (w.reg + 1, hi32 w.last)]
             goOnAlone s2 fibre w.next 0)
      | _ => s)

/-- HWAIT_TIMEOUT (R194, R319): the wait on a handle ends with TIMEOUT. -/
def execHwaitTimeout (fibre : Nat) (s : State) : Host.Outcome State Fault Refusal :=
  .next (match s.fibre? fibre with
    | none => s
    | some f =>
      match f.status with
      | .waitHandle w =>
        (match w.deadline with
         | none => s
         | some d =>
           if s.time.dtc < d then s
           else
             let s1 := waitExpire { s with gwQueries := s.gwQueries.filter (·.ref != w.ref) } f
             let s2 := if w.reg == 63 then s1 else s1.setFibre fibre fun g => g.setReg w.reg 5
             goOnAlone s2 fibre w.next 0)
      | _ => s)

/-- THROTTLE_RETRY (R247): a request refused at a throttled row is sent again; the replay is counted. -/
def execThrottleRetry (ref : Nat) (s : State) : Host.Outcome State Fault Refusal :=
  .next (match s.access? ref with
    | none => s
    | some a =>
      if a.resp = .retry then setResp ((countReplay s a).setAccess ref fun b => { b with replays := b.replays + 1 }) ref .none else s)

/-- REMOTE_SIGNAL_POLL (R338): a waiter on another device's signal reads it again. -/
def execRemoteSignalPoll (fibre : Nat) (s : State) : Host.Outcome State Fault Refusal := .next (rereadSignal s fibre)

/-! ### Cohorts -/

/-- JOIN_RELEASE (R81). -/
def execJoinRelease (crew part jgrp : Nat) (s : State) : Host.Outcome State Fault Refusal := .next (joinRelease s crew part jgrp)

/-- Whether two cohorts may merge (R79): one crew and partition, one program counter, every latch void, no lane twice. -/
def canMerge (a b : List Fibre) : Bool :=
  match a, b with
  | x :: _, _ :: _ =>
    (a ++ b).all (fun f => f.crew == x.crew && f.part == x.part && f.pc == x.pc && f.status.isReady && decide (f.b0.mark = .void) &&
      decide (f.b1.mark = .void) && decide (f.b2.mark = .void)) &&
    a.all fun f => b.all fun g => f.lane != g.lane
  | _, _ => false

/-- COHORT_MERGE (R79, R80): the merged cohort has the union of the two join groups. -/
def execCohortMerge (a b : Nat) (s : State) : Host.Outcome State Fault Refusal :=
  let fa := s.fibres.filter (·.cohort == a)
  let fb := s.fibres.filter (·.cohort == b)
  .next (if a != b && canMerge fa fb then
    match fa with
    | [] => s
    | x :: _ =>
      let gs := (fa ++ fb).map (·.jgrp)
      let one (f : Fibre) : Fibre :=
        { f with cohort := if f.cohort == b then a else f.cohort,
                 jgrp := if f.crew == x.crew && f.part == x.part && gs.contains f.jgrp then x.jgrp else f.jgrp }
      { s with fibres := s.fibres.map one }
  else s)

/-- LATE_WRITE_SPLIT (R215): the lanes with no busy operand split from the rest; LLWAIT 0xFFFF never splits. How long the state has lasted
is not modelled (log 73, DESIGN CHOICE). -/
def execLateWriteSplit (cohort : Nat) (s : State) : Host.Outcome State Fault Refusal :=
  let ls := s.cohortLanes cohort
  .next (match ls with
    | [] => s
    | l :: _ =>
      match (peekInstr s l).bind fun i => i.enc.bind fun e => i.usage.map fun u => (e, u) with
      | none => s
      | some (e, u) =>
        let late := ls.filter fun f => isGuarded e && f.isBusy 0 || laneGuard e f && laneBusy e u f
        let wait := ((s.fibreGrid l).map (·.llwait)).getD 0
        if late.isEmpty || late.length == ls.length || wait == 0xFFFF then s
        else perfAdd (newCohort (voidCohort s cohort) (late.map (·.id))) (s.fibreCore l) 6 1)

/-- BANK_DROWSY (R223): a bank that holds a live window and has not been accessed becomes drowsy (log 98, DESIGN CHOICE). -/
def execBankDrowsy (core part bank : Nat) (s : State) : Host.Outcome State Fault Refusal :=
  let live := s.fibres.any fun f => f.part == part && s.fibreCore f == core && f.hasWindow && f.wb < 64 * bank + 64 && 64 * bank < f.wb + f.ws
  .next (if live && bank < 16 && !s.drowsy.contains (core, part, bank) then { s with drowsy := (core, part, bank) :: s.drowsy } else s)

end Sys2Proof.Machine
end

