-- ==== Sys2Proof/Machine/Packets.lean ====
section
/-! DEFINITION. Meanings: doorbells, the fetch of packets, kernel, copy, tile, invoke, signal and barrier packets, queue scheduling (spec/01 R9 to
R14; spec/02 R15 to R38). -/

namespace Sys2Proof.Machine

/-! ### Doorbells and fetch -/

/-- DOORBELL (R19, R20): a value with other bits, or a queue of another function, is ignored; otherwise the head slot is read again. -/
def execDoorbell (vf : Nat) (value : DWord) (s : State) : Host.Outcome State Fault Refusal :=
  .next (match s.queue? value.toNat with
    | some q => if value.toNat < 65536 && q.vf == vf then queueBell s q.qnum else s
    | none => s)

/-- The address fields of a packet that must be aligned, with the alignment (R26). -/
def pktAligns (n : Nat) : List (Nat × Nat) :=
  let t := natBits n 7 0
  let f (hi : Nat) : Nat := natBits n hi (hi - 63)
  (f 511, 8) ::
    (if t == 2 then [(f 127, 64), (f 191, 8)]
     else if t == 4 || t == 5 then [(f 127, 64)]
     else if t == 6 then [(f 127, 64), (f 191, 8)]
     else if t == 7 || t == 8 then (List.range 5).map fun i => (f (127 + 64 * i), 8)
     else if t == 9 then [(f 127, 8)]
     else [])

/-- The zero fields of a packet by its type (R26). -/
def pktZeroBad (n : Nat) : Bool :=
  let t := natBits n 7 0
  natBits n 15 14 != 0 ||
  (if t == 1 then natBits n 31 17 != 0
   else if t == 2 then natBits n 31 24 != 0 || natBits n 447 192 != 0 || natBits n 63 32 != 0
   else if t == 3 then natBits n 31 23 != 0 || natBits n 447 256 != 0 || natBits n 63 32 != 0
   else if t == 4 then natBits n 31 16 != 0 || natBits n 447 128 != 0 || natBits n 63 48 != 0
   else if t == 5 then natBits n 31 16 != 0 || natBits n 447 128 != 0 || natBits n 63 32 != 0
   else if t == 6 then natBits n 31 16 != 0 || natBits n 447 192 != 0 || natBits n 63 32 != 0
   else if t == 7 || t == 8 then natBits n 31 16 != 0 || natBits n 447 416 != 0 || natBits n 63 32 != 0
   else natBits n 31 17 != 0 || natBits n 447 192 != 0 || natBits n 63 32 != 0 || (n.testBit 16 && natBits n 191 128 != 0))

/-- Whether two ranges of a COPY packet overlap (R27). -/
def rangesMeet (a b n : Nat) : Bool := n != 0 && a < b + n && b < a + n

/-- The checks of R31. -/
def pktMalformed (s : State) (vf n : Nat) : Bool :=
  let t := natBits n 7 0
  t == 0 || 9 < t || (t == 6 && !s.hasFeature vf 16) || pktZeroBad n || (pktAligns n).any (fun a => a.1 % a.2 != 0) ||
  (t == 1 && kernelBodyBad n) ||
  (t == 3 && (2 ^ 40 < natBits n 255 192 || rangesMeet (natBits n 127 64) (natBits n 191 128) (natBits n 255 192))) ||
  (t == 4 && 192 ≤ natBits n 47 32 && natBits n 47 32 != 0xFFFF)

/-- The cause of a packet's start: the work whose `enq` published it, or 0 (R401). -/
def pktCause (q : Queue) (n : Nat) : DWord := ((q.pubs.find? (·.1 == n)).map (·.2)).getD 0

/-- RDIDX moves behind a slot. -/
def passSlot (s : State) (q : Queue) : State :=
  updQueue s q.qnum fun x => { x with rdidx := x.rdidx + 1, pubs := x.pubs.filter (·.1 != q.rdidx) }

/-- RDIDX moves behind a slot, whose header becomes EMPTY (R17). Where that write fails, in a ring that may be read but not written, the packet is taken all
the same: the spec does not say what happens then (log 139, DESIGN CHOICE). -/
def takeSlot (s : State) (q : Queue) : State :=
  let s1 := match devWrite s q.vf q.asid (queueDie s q.qnum) 0 (slotVa q q.rdidx) (natBytes 4 0) with
    | .ok t => t
    | .error _ => s
  passSlot s1 q

/-- A slot that cannot be read aborts the queue (R399). -/
def slotFault (s : State) (q : Queue) : State :=
  let src := queueSrc s q.qnum
  let m := mint s (queueDie s q.qnum)
  emit (abortQueue m.2 q.qnum 2 q.rdidx m.1) src 0x0103 m.1 0 2 q.vf

/-- Whether a queue may fetch (R9, R18, R34): it holds a slot, and no packet of it holds the next (log 75, DEDUCED). -/
def mayFetch (s : State) (q : Queue) : Bool :=
  (decide (q.state = .active) || decide (q.state = .blocked)) && q.look &&
  !(s.packets.any fun p => p.queue == q.qnum && (p.bbit || decide (p.state = .fetched)))

/-- PACKET_FETCH (R17, R31): the packet at RDIDX is taken with acquire, its slot emptied; one that fails the checks aborts without starting. -/
def execPacketFetch (qn : Nat) (s : State) : Host.Outcome State Fault Refusal :=
  .next (match s.queue? qn with
    | none => s
    | some q =>
      if !mayFetch s q then s
      else
        match headWord s q with
        | .error _ => slotFault s q
        | .ok h =>
          if h % 256 == 0 then queueIdle (s.setQueue qn fun x => { x with look := false }) qn
          else
            match devRead s q.vf q.asid (slotVa q q.rdidx) 64 with
            | .error _ => slotFault s q
            | .ok bs =>
              let m := mint (takeSlot s q) (queueDie s qn)
              let p : Packet :=
                { id := m.2.nextId, queue := qn, vf := q.vf, asid := q.asid, index := q.rdidx, bytes := bs, op := m.1, cause := pktCause q q.rdidx, state := .fetched,
                  watch := [], since := s.time.dtc, deadline := none, lastOp := 0 }
              let s1 := devClock { m.2 with packets := m.2.packets ++ [p], nextId := m.2.nextId + 1 } q.vf q.asid (slotVa q q.rdidx) 64 m.1
              if pktMalformed s q.vf (bytesNat bs) then abortPacket s1 p 7 p.cause else s1)

/-! ### The start of a packet -/

/-- Whether a fetched packet may start: not in an ABORTED queue, where it completes with UPSTREAM (R12, R35), nor a barrier packet in an UNMAPPED one (R34). -/
def mayStart (s : State) (p : Packet) : Bool :=
  match s.queue? p.queue with
  | some q => decide (q.state ≠ .aborted) && !(p.isBarrier && decide (q.state = .unmapped))
  | none => false

/-- The acquire of a packet (R24): its work sees what the packets of its queue have released. -/
def packetAcquire (s : State) (p : Packet) : State := if p.acq == 0 then s else s.passClock (.queue p.queue) (.op p.op)

/-- A fetched packet of a type starts: its acquire, but for a barrier packet's (R24), and PKT_START (R278). None where it is not there to start. -/
def pktStart (s : State) (id typ : Nat) : Option (Packet × State) :=
  match s.packet? id with
  | none => none
  | some p =>
    if decide (p.state = .fetched) && p.typ == typ && mayStart s p then
      let q := { p with state := .running }
      some (q, emit ((if p.isBarrier then s else packetAcquire s p).setPacket id fun _ => q) (queueSrc s p.queue) 0x0101 p.op p.cause p.typ p.vf)
    else none

/-- What a start does. -/
def startWith (s : State) (id typ : Nat) (f : Packet → State → State) : Host.Outcome State Fault Refusal :=
  .next (match pktStart s id typ with
    | some (p, t) => f p t
    | none => s)

/-- The packet as a number. -/
def Packet.num (p : Packet) : Nat := bytesNat p.bytes

/-- KERNEL_PACKET (R27, R206): its descriptor and group table are read and checked, its grid is launched. -/
def execKernelPacket (p : Nat) (s : State) : Host.Outcome State Fault Refusal :=
  startWith s p 1 fun k s =>
    match makeGrid s (.packet k.id) k.op k.vf k.asid k.num 255 (k.num.testBit 16) (pktDetail s k) false with
    | .error c => abortPacket s k c k.op
    | .ok g => if couldHold s g then { s with grids := s.grids ++ [g], nextId := s.nextId + 1 } else abortPacket s k 7 k.op

/-- The descriptor of a COPY packet's one row (R27). -/
def packetCopy (n chan : Nat) : CopyDesc :=
  { siga := 0, node := 0, lease := 0, dstride := 0, sstride := 0, chan := chan % 4, ck := 0, skind := 0, dkind := 0, rows := 1,
    rbytes := natBits n 255 192, dst := BitVec.ofNat 64 (natBits n 191 128), src := BitVec.ofNat 64 (natBits n 127 64) }

/-- The channel of a COPY packet: the one it names, or one of the function's clusters that the queue unit chooses (R26). -/
def packetChan (s : State) (vf n : Nat) : Nat × State :=
  if n.testBit 16 then (natBits n 22 17, s)
  else
    let cl := vfClusters s vf
    let c := choose s (4 * cl.length)
    (4 * cl.getD (c.1 / 4) 0 + c.1 % 4, c.2)

/-- Whether the context of a packet runs (R371): a packet of one that is halted or saved waits. -/
def pktRuns (s : State) (p : Nat) : Bool :=
  match s.packet? p with
  | some k => asidRuns s k.asid
  | none => false

/-- COPY_PACKET (R27): the copy enters its channel; a COUNT of 0 completes at once. -/
def execCopyPacket (p : Nat) (s : State) : Host.Outcome State Fault Refusal :=
  if !pktRuns s p then .next s
  else startWith s p 3 fun k s =>
    if natBits k.num 255 192 == 0 then completePacket s k.id 0 k.op
    else
      let c := packetChan s k.vf k.num
      pushEntry { c.2 with nextId := c.2.nextId + 1 } c.1
        { id := c.2.nextId, kind := .copy (packetCopy k.num c.1), vf := k.vf, asid := k.asid, core := 12 * (c.1 / 4), crew := none, owner := none,
          op := k.op, waiter := .packet k.id, detail := true, accepted := true, started := false, row := 0, status := 0,
          outstanding := [], tmpl := none }

/-- Cores on which a function's tile packet may run: of its clusters, free for its context, with room in the queue. -/
def tileCores (s : State) (vf asid : Nat) : List Nat :=
  (List.range 192).filter fun c =>
    (vfClusters s vf).contains (coreCluster c) && coreFree s c asid && !mxFull s c && inService s c asid &&
    !(s.dev.lostDies.contains (coreDie c))

/-- The scratchpad that a packet's tile task refers to: the node scratchpad its function holds on the core, else none (R172) (log 77, DEDUCED). -/
def packetScr (s : State) (vf asid core : Nat) : Nat × Nat :=
  let mine (r : Nat × Nat × Nat) : Bool := ((s.graph? r.1).map fun g => g.vf == vf && g.asid == asid).getD false
  (((s.core core).nodeScr.find? mine).map (·.2)).getD (0, 0)

/-- TILE_PACKET (R27, R169, R172): the record is checked as for a tile node; the task joins the queue of its core. One that names a core that its function
does not hold, or one on a lost die, waits until the core can take it (log 142, DESIGN CHOICE). -/
def execTilePacket (p : Nat) (s : State) : Host.Outcome State Fault Refusal :=
  match s.packet? p with
  | none => .next s
  | some k0 =>
    let cs := if natBits k0.num 47 32 == 0xFFFF then tileCores s k0.vf k0.asid
      else (tileCores s k0.vf k0.asid).filter (· == natBits k0.num 47 32)
    if cs.isEmpty || !pktRuns s p then .next s
    else
      startWith s p 4 fun k s =>
        match devNat s k.vf k.asid (k.u64 8) 64 with
        | .error _ => abortPacket s k 2 k.op
        | .ok n =>
          let c := choose s cs.length
          let core := cs.getD c.1 0
          let scr := packetScr s k.vf k.asid core
          match tileCheck n scr.2 with
          | some _ => abortPacket c.2 k 7 k.op
          | none =>
            let o : MxOp :=
              { id := c.2.nextId, kind := .tile (tileRecOf n), crew := none, scrBase := scr.1, scrSize := scr.2, vf := k.vf,
                asid := k.asid, op := k.op, waiter := .packet k.id, started := false, chunk := 0, drain := none }
            (enterCore { c.2 with nextId := c.2.nextId + 1 } core k.asid).setCore core fun x => { x with mxq := x.mxq ++ [o] }

/-- The identifier of a handle's mint. -/
def handleOp (s : State) (h : DWord) : DWord := (s.gwEntry (handleDie h) (handleIdx h)).op

/-- INVOKE_PACKET (R27, R352): mints a handle on the die of its slot, stores it at HDST with the packet's release, completes; without quota or room it
waits, running. -/
def execInvokePacket (p : Nat) (s : State) : Host.Outcome State Fault Refusal :=
  .next (match s.packet? p with
    | none => s
    | some k =>
      if k.typ != 6 || !(decide (k.state = .running) || decide (k.state = .fetched) && mayStart s k) then s
      else
        let s0 := if decide (k.state = .fetched) then ((pktStart s p 6).map (·.2)).getD s else s
        let die := queueDie s0 k.queue
        match gwMint s0 die k.vf k.op with
        | .error _ => s0
        | .ok (h, s1) =>
          let s2 := if k.rel == 0 then gwStart s1 die h k.vf k.asid (k.u64 8)
            else ((gwStart s1 die h k.vf k.asid (k.u64 8)).passClock (.op k.op) (.op (handleOp s1 h))).passClock (.op k.op) (.handle h)
          match devWrite s2 k.vf k.asid die (handleOp s1 h) (k.u64 16) (natBytes 8 h.toNat) with
          | .ok s3 => endPacket s3 p (handleOp s1 h)
          | .error _ => completePacket s2 p 2 k.op)

/-- SIGNAL_SET (R27): stores VALUE at TARGET as one 64-bit atomic store. -/
def execSignalSet (p : Nat) (s : State) : Host.Outcome State Fault Refusal :=
  match s.packet? p with
  | none => .next s
  | some k0 =>
    if k0.num.testBit 16 then .next s
    else
      startWith s p 9 fun k s =>
        match sigUpdate s k.vf k.asid (queueDie s k.queue) (k.u64 8) (.sigSet (k.u64 16)) k.op with
        | .ok t => endPacket t k.id k.op
        | .error _ => completePacket s k.id 2 k.op

/-- SIGNAL_DEC (R27): applies R11 to TARGET. -/
def execSignalDec (p : Nat) (s : State) : Host.Outcome State Fault Refusal :=
  match s.packet? p with
  | none => .next s
  | some k0 =>
    if k0.num.testBit 16 then
      startWith s p 9 fun k s =>
        match sigUpdate s k.vf k.asid (queueDie s k.queue) (k.u64 8) .sigDec k.op with
        | .ok t => endPacket t k.id k.op
        | .error _ => completePacket s k.id 2 k.op
    else .next s

/-! ### Barrier packets -/

/-- The listed signal addresses, with their places in the list (R26). -/
def Packet.waits (p : Packet) : List (Nat × DWord) :=
  ((List.range 5).map fun i => (i, p.u64 (8 + 8 * i))).filter fun w => w.2 != 0

/-- A listed signal as it stands: its value; the code of a failure. A signal of another device reads a free value (log 10, DESIGN CHOICE). -/
def waitValue (s : State) (p : Packet) (va : DWord) : Except Nat Int :=
  if 2 ^ 57 ≤ va.toNat then .error 0x41
  else
    match translateWalk s p.vf p.asid va.toNat .read with
    | .ok spa none =>
      (match atomStorage s spa 8 with
       | .ok bs => if eccFails s bs then .error 0x48 else .ok (sigVal (bytesNat (bs.map s.getByte)))
       | .error c => .error c)
    | .ok spa (some _) => .ok (sigVal (bytesNat (remoteBytes s spa 8)))
    | .fail c _ => .error c
    | _ => .error 0x42

/-- The signals whose updates are notified to a barrier packet (R28). -/
def waitWatch (s : State) (p : Packet) : List Nat :=
  p.waits.filterMap fun w =>
    match translateWalk s p.vf p.asid w.2.toNat .read with
    | .ok spa none => some spa
    | _ => none

/-- The outcome of an evaluation: none while it goes on, else the abort code, 0 for success (R10, R28). The values come in list order. -/
def barrierDecides (any : Bool) (vs : List Int) : Option Nat :=
  if vs.isEmpty then some 0
  else if any then
    if vs.any (· == 0) then some 0 else if vs.all (· < 0) then some 1 else none
  else if vs.any (· < 0) then some 1
  else if vs.all (· == 0) then some 0 else none

/-- The unsatisfied waits as a mask (R311). -/
def unsatisfied (s : State) (p : Packet) : Nat :=
  (p.waits.filter fun w => match waitValue s p w.2 with | .ok v => v != 0 | .error _ => true).foldl (fun m w => m + 2 ^ w.1) 0

/-- The acquire of a barrier packet that completes (R24): what the updates of its signals have released is there for the packets behind it. -/
def barrierAcquire (s : State) (p : Packet) : State :=
  if p.acq == 0 then s
  else ((p.waits.foldl (fun s w => devClock s p.vf p.asid w.2 8 p.op) s).passClock (.op p.op) (.queue p.queue))

/-- A barrier packet is decided (R28, R34, R401): BARRIER_RELEASE and the queue's return to ACTIVE on success. -/
def barrierEnd (s : State) (p : Packet) (code : Nat) (update : Option DWord) : State :=
  if code == 0 then
    let s1 := emit (barrierAcquire s p) (queueSrc s p.queue) 0x0105 p.op (update.getD p.op) 0 p.vf
    let others := s.packets.any fun x => x.queue == p.queue && x.id != p.id && decide (x.state = .waiting)
    let s2 := match s1.queue? p.queue with
      | some q => if decide (q.state = QState.blocked) && !others then updQueue s1 p.queue fun q => { q with state := .active } else s1
      | none => s1
    completePacket (s2.setPacket p.id fun x => { x with state := .running }) p.id 0 (update.getD p.op)
  else completePacket s p.id code (if code == 1 then update.getD 0 else p.op)

/-- The outcome of an evaluation that reads the listed signals in order (R28): the first negative value decides a BARRIER_ALL, the first zero a BARRIER_ANY; a
signal that cannot be read before makes it FAULT (R30). -/
def barrierScan (any : Bool) (look : DWord → Except Nat Int) : List (Nat × DWord) → List Int → Option Nat
  | [], vs => barrierDecides any vs
  | w :: ws, vs =>
    match look w.2 with
    | .error _ => some 2
    | .ok v => if any && v == 0 then some 0 else if !any && v < 0 then some 1 else barrierScan any look ws (vs ++ [v])

/-- One evaluation of a barrier packet; `update` is the operation that the notification carried. Answers whether it is decided. -/
def barrierLook (s : State) (p : Packet) (update : Option DWord) : Bool × State :=
  match barrierScan (p.typ == 8) (waitValue s p) p.waits [] with
  | some c => (true, barrierEnd s p c update)
  | none => (false, s)

/-- The cone of a barrier packet (R29): TMO in microseconds, or the function's default. -/
def barrierCone (s : State) (p : Packet) : Nat :=
  let t := p.bits 415 384
  s.time.dtc + usTicks (if t == 0 then ((s.fn? p.vf).map (·.cone)).getD 2000 else t)

/-- A barrier packet starts (R28, R29): its first evaluation; if it goes on it waits, with BARRIER_WAIT and a wait record, and its queue is
BLOCKED. -/
def barrierStart (s : State) (k : Packet) : State :=
  let r := barrierLook { s with free := s.free + 1 } k none
  if r.1 then r.2
  else
    let s1 := r.2.setPacket k.id fun x =>
      { x with state := .waiting, watch := waitWatch s k, since := s.time.dtc, deadline := some (barrierCone s k) }
    let s2 := match s1.queue? k.queue with
      | some q => if q.state = .active then updQueue s1 k.queue fun q => { q with state := .blocked } else s1
      | none => s1
    let s3 := emit s2 (queueSrc s k.queue) 0x0104 k.op k.op (unsatisfied s k) k.vf
    waitRecord s3 (queueDie s k.queue) 6 k.id 0 k.id

/-- BARRIER_ALL (R10). -/
def execBarrierAll (p : Nat) (s : State) : Host.Outcome State Fault Refusal := startWith s p 7 fun k s => barrierStart s k

/-- BARRIER_ANY (R28). -/
def execBarrierAny (p : Nat) (s : State) : Host.Outcome State Fault Refusal := startWith s p 8 fun k s => barrierStart s k

/-- A waiting barrier packet whose queue holds a slot (R34). -/
def barrierActive (s : State) (k : Packet) : Bool :=
  decide (k.state = .waiting) && (((s.queue? k.queue).map fun (q : Queue) => decide (q.state ≠ QState.unmapped)).getD false)

/-- BARRIER_EVALUATE (R28): a notified update makes a waiting barrier packet evaluate again; one of an UNMAPPED queue does not (R34). A packet with a
signal of another device evaluates whenever it learns of an update there, whose operation is a free value (R401; log 10, DESIGN CHOICE). -/
def execBarrierEvaluate (p : Nat) (s : State) : Host.Outcome State Fault Refusal :=
  .next (match s.packet? p with
    | none => s
    | some k =>
      if !barrierActive s k then s
      else
        let mine (n : Notif) : Option DWord := match n with
          | .packet x op => if x == p then some op else none
          | _ => none
        match s.notifs.findSome? mine with
        | some op =>
          let s1 := { s with free := s.free + 1, notifs := s.notifs.eraseP fun n => (mine n).isSome }
          (barrierLook s1 k (some op)).2
        | none =>
          if k.waits.length == k.watch.length then s
          else (barrierLook { s with free := s.free + 1 } k (some (BitVec.ofNat 64 (Config.freeNat s.free)))).2)

/-- BARRIER_PACKET_TIMEOUT (R29): the cone expires while the packet still waits; WITNESS_EXPIRE names the first listed signal that is not zero. -/
def execBarrierPacketTimeout (p : Nat) (s : State) : Host.Outcome State Fault Refusal :=
  .next (match s.packet? p with
    | none => s
    | some k =>
      if decide (k.state ≠ .waiting) || s.time.dtc < k.deadline.getD (s.time.dtc + 1) then s
      else
        let r := if barrierActive s k then barrierLook s k none else (false, s)
        if r.1 then r.2
        else
          let first := ((k.waits.find? fun w => match waitValue s k w.2 with | .ok v => v != 0 | .error _ => true).map (·.1)).getD 0
          completePacket (emit s (queueSrc s k.queue) 0x0605 k.op 0 first k.vf) p 5 k.op)

/-! ### Scheduling of queues -/

/-- The waiting queue that is mapped next (R37): the highest effective priority, then the longest wait. -/
def nextQueue (s : State) : Option Queue :=
  (s.queues.filter fun q => queueWaits s q && (freeHwSlot s q.vf).isSome).foldl
    (fun best q => match best with
      | none => some q
      | some b => if effOf s b < effOf s q || (effOf s b == effOf s q && q.waitSince < b.waitSince) then some q else best) none

/-- QUEUE_MAP (R34, R37): the scheduler gives a free slot to the waiting queue that comes next; its waiting barrier packets evaluate at once. -/
def execQueueMap (slot : Nat) (s : State) : Host.Outcome State Fault Refusal :=
  .next (if 128 ≤ slot || s.dev.lostDies.contains (slot / 16) || s.queues.any (fun q => q.slot == some slot) then s
  else
    match nextQueue s with
    | none => s
    | some q =>
      let bars := s.packets.filter fun p => p.queue == q.qnum && decide (p.state = .waiting)
      let s1 := updQueue s q.qnum fun q =>
        { q with state := if bars.isEmpty then .active else .blocked, slot := some slot, effPrio := q.prio, mappedAt := s.time.dtc,
                 look := true }
      bars.foldl (fun s p => match s.packet? p.id with
        | some k => if decide (k.state = .waiting) then (barrierLook s k none).2 else s
        | none => s) { s1 with free := s1.free + 1 })

/-- The quantum of a function in microseconds (R38). -/
def quantumOf (s : State) (vf : Nat) : Nat := match s.fn? vf with | some f => if f.quantum == 0 then 50 else f.quantum | none => 50

/-- QUANTUM_END (R34, R38): a mapped queue whose quantum is over gives its slot up while a queue of equal or higher effective priority waits. -/
def execQuantumEnd (slot : Nat) (s : State) : Host.Outcome State Fault Refusal :=
  .next (match s.queues.find? fun q => q.slot == some slot with
    | none => s
    | some q =>
      let past := q.mappedAt + usTicks (quantumOf s q.vf) ≤ s.time.dtc
      let wanted := s.queues.any fun w => queueWaits s w && effOf s q ≤ effOf s w
      if past && wanted && (decide (q.state = .active) || decide (q.state = .blocked)) then unmapQueue s q.qnum else s)

/-- PRIORITY_AGING (R37): the recorded effective priority of a waiting queue is brought up to what it has become. -/
def execPriorityAging (qn : Nat) (s : State) : Host.Outcome State Fault Refusal :=
  .next (match s.queue? qn with
    | none => s
    | some q => if queueWaits s q then s.setQueue qn fun x => { x with effPrio := effOf s q } else s)

/-! ### Draining -/

/-- Drain one slot of an ABORTED queue (R12, R35): its packet completes with UPSTREAM; a slot that cannot be read counts as a packet without
CSIG, and nothing is written there (R399; log 128, DEDUCED). -/
def drainSlot (s : State) (q : Queue) : State :=
  match devRead s q.vf q.asid (slotVa q q.rdidx) 64 with
  | .error _ =>
    let m := mint (passSlot s q) (queueDie s q.qnum)
    emit m.2 (queueSrc s q.qnum) 0x0103 m.1 q.abcid 1 q.vf
  | .ok bs =>
    let m := mint (takeSlot s q) (queueDie s q.qnum)
    upstreamPacket m.2
      { id := 0, queue := q.qnum, vf := q.vf, asid := q.asid, index := q.rdidx, bytes := bs, op := m.1, cause := 0, state := .fetched, watch := [],
        since := 0, deadline := none, lastOp := 0 }

/-- The next published packet of a ring is drained, where there is one. -/
def drainNext (s : State) (q : Queue) : Option State :=
  if s.wridx q ≤ q.rdidx then none
  else
    match headWord s q with
    | .ok h => if h % 256 == 0 then none else some (drainSlot s q)
    | .error _ => some (drainSlot s q)

/-- The published packets of a ring up to an index are drained in ring order, at most `fuel`. -/
def drainUpto (qn upto : Nat) : Nat → State → State
  | 0, s => s
  | fuel + 1, s =>
    match (s.queue? qn).bind fun q => if upto ≤ q.rdidx then none else drainNext s q with
    | none => s
    | some t => drainUpto qn upto fuel t

/-- QUEUE_DRAIN (R35): the firmware takes the next published packet of an ABORTED queue; one fetched before that has not started ends too. -/
def execQueueDrain (qn : Nat) (s : State) : Host.Outcome State Fault Refusal :=
  .next (match s.queue? qn with
    | none => s
    | some q =>
      if decide (q.state ≠ .aborted) then s
      else
        match s.packets.find? fun p => p.queue == qn && decide (p.state = .fetched) with
        | some p => upstreamPacket s p
        | none => (drainNext s q).getD s)

end Sys2Proof.Machine
end

