-- ==== Sys2Proof/Machine/Collectives.lean ====
section
/-! DEFINITION. Collectives (spec/20 R339 to R344; spec/18 R319): descriptors, arrival, the roster, the exchange of data, reductions, elastic exclusion.
How participants agree is the model's (logs 28 to 31). -/

namespace Sys2Proof.Machine

/-! ### Descriptors -/

/-- Bytes of an element by TYPE (R340). -/
def collElem (ty : Nat) : Nat := if ty == 3 then 8 else if ty == 1 || ty == 2 then 2 else 4

/-- Elements of SRC and of DST for `n` ranks (R340). -/
def collSizes (kind n count : Nat) : Nat × Nat :=
  if kind == 1 then (n * count, count)
  else if kind == 2 then (count, n * count)
  else if kind == 4 then (n * count, n * count)
  else (count, count)

/-- Whether KIND reduces (R340). -/
def collReduces (kind : Nat) : Bool := kind ≤ 1

def State.comm (s : State) (vf id : Nat) : Comm :=
  (s.comms.find? fun c => c.vf == vf && c.id == id).getD ⟨vf, id, [], false, [], [], []⟩

def State.setComm (s : State) (vf id : Nat) (f : Comm → Comm) : State :=
  { s with comms := setOr (fun c => c.vf == vf && c.id == id) f ⟨vf, id, [], false, [], [], []⟩ s.comms }

/-- Whether two buffers of a descriptor overlap (R340). -/
def buffersMeet (a b : Nat × Nat) : Bool := a.1 < b.1 + b.2 && b.1 < a.1 + a.2

/-- The rule on overlaps (R340): no DST may overlap another SRC or DST; SRC = DST of one participant only where it is permitted. -/
def overlapBad (kind : Nat) (elastic : Bool) (bs : List ((Nat × Nat) × (Nat × Nat))) : Bool :=
  let ix := (List.range bs.length).zip bs
  ix.any fun i => ix.any fun j =>
    (i.1 != j.1 && buffersMeet i.2.2 j.2.2) ||
    (buffersMeet i.2.2 j.2.1 &&
      !(i.1 == j.1 && i.2.2.1 == i.2.1.1 && (kind == 0 || kind == 3) && !elastic))

/-- Whether a participant names a rank that is this die's (R339, R340). -/
def rankBad (s : State) (vf comm i rank die : Nat) : Bool :=
  if comm == 0 then rank != i
  else match (s.comm vf comm).ranks[rank]? with
    | some r => r.1 != s.dev.dev || r.2.1 != die
    | none => true

/-- The participants of a descriptor as numbers: rank, die, DST, SRC, and whether a zero field is set. -/
def partFields (n : Nat) : Nat × Nat × Nat × Nat × Bool :=
  (natBits n 143 128, natBits n 147 144, natBits n 127 64, natBits n 63 0, natBits n 255 148 != 0)

/-- The fields of a descriptor that do not need its participants (R340). -/
def collHeadBad (s : State) (vf d : Nat) : Bool :=
  let kind := natBits d 31 28
  let ty := natBits d 39 36
  let npart := natBits d 47 40
  let comm := natBits d 63 48
  let ranks := if comm == 0 then npart else (s.comm vf comm).ranks.length
  natBits d 511 256 != 0 || natBits d 143 128 != 0 || natBits d 25 0 != 0 || natBits d 255 192 % 32 != 0 ||
  4 < kind || 3 < natBits d 35 32 || 5 < ty || npart == 0 || 8 < npart || 4096 ≤ comm ||
  natBits d 127 64 == 0 || 2 ^ 36 < natBits d 127 64 ||
  (natBits d 35 32 == 3 && 4 ≤ ty) || (!collReduces kind && natBits d 35 32 != 0) ||
  (if kind == 3 then ranks ≤ natBits d 159 144 else natBits d 159 144 != 0) ||
  (d.testBit 27 && !s.hasFeature vf 4) || (comm != 0 && ranks == 0)

/-- The participants of a descriptor (R340). -/
def collPartsBad (s : State) (vf d dies : Nat) (ps : List Nat) : Bool :=
  let kind := natBits d 31 28
  let comm := natBits d 63 48
  let el := collElem (natBits d 39 36)
  let n := if comm == 0 then ps.length else (s.comm vf comm).ranks.length
  let z := collSizes kind n (natBits d 127 64)
  let fs := ps.map partFields
  let bufs := fs.map fun f => ((f.2.2.2.1, z.1 * el), (f.2.2.1, z.2 * el))
  fs.any (fun f => f.2.2.2.2 || 8 ≤ f.2.1 || !dies.testBit f.2.1 || f.2.2.1 % el != 0 || f.2.2.2.1 % el != 0) ||
  ((List.range fs.length).zip fs).any (fun p => rankBad s vf comm p.1 p.2.1 p.2.2.1) ||
  decide ((fs.map (·.2.1)).eraseDups.length ≠ fs.length) || overlapBad kind (d.testBit 26) bufs

/-- A participant as it stands before it arrives. -/
def partOf (n seq : Nat) : CollPart :=
  let f := partFields n
  { rank := f.1, die := f.2.1, src := BitVec.ofNat 64 f.2.2.2.1, dst := BitVec.ofNat 64 f.2.2.1, seq := seq, op := 0, arrived := false,
    deadline := 0, arrivals := [], roster := none, doomed := false, sent := false, contrib := [], result := none, written := none,
    lastOp := 0, done := false, abort := 0 }

/-- Read and check a descriptor (R340): the collective, or the abort code. Its instances are numbered where it starts. -/
def makeColl (s : State) (src : WorkSrc) (op : DWord) (vf asid : Nat) (va : DWord) (dies : Nat) : Except Nat Coll :=
  match devNat s vf asid va 64 with
  | .error _ => .error 2
  | .ok d =>
    if collHeadBad s vf d then .error 7
    else
      match (List.range (natBits d 47 40)).mapM fun i => devNat s vf asid (BitVec.ofNat 64 (natBits d 255 192 + 32 * i)) 32 with
      | .error _ => .error 2
      | .ok ps =>
        if collPartsBad s vf d dies ps then .error 7
        else
          .ok { id := s.nextId, comm := natBits d 63 48, vf := vf, asid := asid, src := src, op := op, kind := natBits d 31 28,
                red := natBits d 35 32, ty := natBits d 39 36, count := natBits d 127 64, root := natBits d 159 144,
                tmo := natBits d 191 160, insw := d.testBit 27, elastic := d.testBit 26,
                parts := ps.map fun n =>
                  partOf n (if natBits d 63 48 == 0 then s.nextId
                    else (((s.comm vf (natBits d 63 48)).started.find? (·.1 == (partFields n).1)).map (·.2)).getD 0) }

/-- The dies whose collective engines a descriptor names, as far as it can be read (R288). -/
def collDies (s : State) (vf asid : Nat) (va : DWord) : List Nat :=
  match devNat s vf asid va 64 with
  | .error _ => []
  | .ok d => distinct ((List.range (min 8 (natBits d 47 40))).filterMap fun i =>
      match devNat s vf asid (BitVec.ofNat 64 (natBits d 255 192 + 32 * i)) 32 with
      | .ok n => some (partFields n).2.1
      | .error _ => none)

/-! ### Instances and messages -/

def State.coll? (s : State) (id : Nat) : Option Coll := s.colls.find? (·.id == id)

def State.setPart (s : State) (id rank : Nat) (f : CollPart → CollPart) : State :=
  let g (c : Coll) : Coll := { c with parts := mapIf (·.rank == rank) f c.parts }
  { s with colls := mapIf (·.id == id) g s.colls }

def Coll.part? (c : Coll) (rank : Nat) : Option CollPart := c.parts.find? (·.rank == rank)

/-- Ranks of an instance's communicator. -/
def collRanks (s : State) (c : Coll) : Nat := if c.comm == 0 then c.parts.length else (s.comm c.vf c.comm).ranks.length

/-- Whether a rank is on this device. -/
def rankHere (s : State) (vf comm rank : Nat) : Bool :=
  comm == 0 || (((s.comm vf comm).ranks[rank]?).map (·.1)).getD s.dev.dev == s.dev.dev

/-- Whether the switches take part (R343). -/
def inSwitch (s : State) (c : Coll) : Bool := c.insw && c.comm != 0 && (s.comm c.vf c.comm).switchGroup && c.ty != 3 && c.kind != 4

/-- A message of a participant. -/
def collMsg (c : Coll) (p : CollPart) (flag rcv n off total : Nat) (data : List Byte) : CollMsg :=
  { vf := c.vf, comm := c.comm, flag := flag, kind := c.kind, red := c.red, ty := c.ty, root := c.root, count := c.count, frm := p.rank,
    rcv := rcv, n := n, seq := p.seq, off := off, total := total, data := data, op := p.op }

/-- Bytes of data that one packet of a collective carries behind the header of its message: three lines (log 28, DESIGN CHOICE) (log 16, DESIGN CHOICE). -/
def collRoom : Nat := 192

/-- A message in pieces of a packet's size. -/
def collPieces (m : CollMsg) : List CollMsg :=
  (List.range (max 1 (ceilDiv m.data.length collRoom))).map fun i =>
    { m with off := if m.flag == 0 then m.off else collRoom * i, data := (m.data.drop (collRoom * i)).take collRoom }

/-- Whether two pieces are of one message. -/
def samePiece (m x : CollMsg) : Bool :=
  x.vf == m.vf && x.comm == m.comm && x.flag == m.flag && x.frm == m.frm && x.rcv == m.rcv && x.seq == m.seq && x.n == m.n && x.total == m.total

/-- Whether a message is a piece only. -/
def isPiece (m : CollMsg) : Bool := m.data.length < m.total

/-- The message of a piece, once every piece of it is there; they travel on planes of their own (R329). -/
def joinMsg (l : List CollMsg) (m : CollMsg) : Option CollMsg :=
  ((List.range (ceilDiv m.total collRoom)).mapM fun i => l.find? fun x => samePiece m x && isPiece x && x.off == collRoom * i).map fun ps =>
    { m with off := 0, data := ps.flatMap (·.data) }

/-- A message that arrives joins those that are here, the last piece as the whole. -/
def addMsg (net : List CollMsg) (m : CollMsg) : List CollMsg :=
  if isPiece m then
    match joinMsg (net ++ [m]) m with
    | some w => net.filter (fun x => !(samePiece m x && isPiece x)) ++ [w]
    | none => net ++ [m]
  else net ++ [m]

/-- A message leaves for a rank: whole to one of this device, in pieces to another or to the switches. -/
def postMsg (s : State) (m : CollMsg) : State :=
  { s with collNet := s.collNet ++ (if m.rcv != 0xFFFF && rankHere s m.vf m.comm m.rcv then [m] else collPieces m) }

/-- The payload of a message (log 28, DESIGN CHOICE). -/
def msgBytes (m : CollMsg) : List Byte :=
  natBytes 2 m.comm ++ natBytes 1 m.flag ++ natBytes 1 (16 * m.kind + m.red) ++ natBytes 1 m.ty ++ natBytes 1 0 ++ natBytes 2 m.frm ++
    natBytes 2 m.rcv ++ natBytes 2 m.n ++ natBytes 2 m.root ++ natBytes 2 m.data.length ++ natBytes 8 m.seq ++ natBytes 8 m.count ++
    natBytes 8 m.off ++ natBytes 8 m.total ++ m.data

/-- The message in a payload. -/
def msgOf (vf : Nat) (op : DWord) (b : List Byte) : CollMsg :=
  let f (o n : Nat) : Nat := bytesNat ((b.drop o).take n)
  { vf := vf, comm := f 0 2, flag := f 2 1, kind := f 3 1 / 16, red := f 3 1 % 16, ty := f 4 1, root := f 12 2, count := f 24 8,
    frm := f 6 2, rcv := f 8 2, n := f 10 2, seq := f 16 8, off := f 32 8, total := f 40 8, data := (b.drop 48).take (f 14 2), op := op }

/-- OP of a message's packet (R332): COLL_RED or COLL_MCAST through the switches, else COLL_DATA. -/
def msgOp (m : CollMsg) : Nat := if m.rcv != 0xFFFF then 0x11 else if collReduces m.kind then 0x12 else 0x13

/-- Where the plane of a message's packet starts from (R329): the line of its data (log 28, DESIGN CHOICE). -/
def msgBase (dev : Nat) (m : CollMsg) : Nat := planeBase dev (if m.flag == 0 then 0 else m.off)

/-- The packet of a message; one for the switches is addressed to the device of rank 0 (log 28, DESIGN CHOICE). -/
def msgPkt (s : State) (m : CollMsg) : FabPkt × Nat :=
  let r := ((s.comm m.vf m.comm).ranks.getD (if m.rcv == 0xFFFF then 0 else m.rcv) (0, 0, 0))
  let b := msgBytes m
  ({ blankPkt s r.1 0 with cid := m.op, op := BitVec.ofNat 8 (msgOp m), vc := 2, addr := 0, len := BitVec.ofNat 5 (ceilDiv b.length 16),
                           payload := b }, r.1)

/-! ### The end of a participant -/

/-- The roster of a participant is fixed: its wait record goes (R317, R342). -/
def dropCollWait (s : State) (id rank : Nat) : State := waitDrop s fun w m => w.kind == 7 && w.owner == id && m == rank

/-- The collective ends when every participant has (R27, R287): with the first abort code there is. -/
def collEval (s : State) (id : Nat) (op : DWord) : State :=
  match s.coll? id with
  | none => s
  | some c =>
    if !(c.parts.all (·.done)) then s
    else
      let code := ((c.parts.find? (·.abort != 0)).map (·.abort)).getD 0
      let all (k : ClockKey) : State := c.parts.foldl (fun s p => (s.passClock (.op p.op) k).dropClock (.op p.op)) s
      let s1 : State := match c.src with
        | .packet _ => all (.op c.op)
        | .node g n => all (.node g n)
        | .invoked _ _ => s
      let s1 := { s1 with colls := s1.colls.filter (·.id != id) }
      match c.src with
      | .packet p => completePacket s1 p code (if code == 0 then op else if code == 3 || code == 6 then 0 else c.op)
      | .node g n => nodePart s1 g n code op
      | .invoked _ _ => s1

/-- A participant completes with an abort code. -/
def partFail (s : State) (id rank code : Nat) : State :=
  match (s.coll? id).bind (Coll.part? · rank) with
  | none => s
  | some p =>
    if p.done then s
    else collEval ((dropCollWait s id rank).setPart id rank fun p => { p with done := true, abort := code }) id p.op

/-- The times of an instance's arrivals, for the next instance's cones (R319). -/
def arrivalTimes (l : List (Nat × Nat × DWord)) : List (Nat × Nat × DWord) :=
  let f := l.foldl (fun m a => min m a.2.1) ((l.map (·.2.1)).headD 0)
  l.map fun a => (a.1, a.2.1 - f, a.2.2)

/-- A participant completes (R342): COLL_DONE with the roster size and the operation whose data came last. -/
def partDone (s : State) (c : Coll) (p : CollPart) : State :=
  let s1 := emit s (collSrc p.die) 0x0604 p.op (if p.lastOp == 0 then p.op else p.lastOp) ((p.roster.getD []).length) c.vf
  let s2 := (s1.setPart c.id p.rank fun q => { q with done := true }).setComm c.vf c.comm fun m => { m with prev := arrivalTimes p.arrivals }
  collEval s2 c.id p.op

/-! ### Reductions (R343) -/

/-- The format of a floating TYPE. -/
def collFmt (ty : Nat) : Fmt := if ty == 0 then .f32 else if ty == 1 then .f16 else if ty == 2 then .bf16 else .f64

/-- Sums of `.f32`, `.f16` and `.bf16` are carried as FP32. -/
def carries32 (ty red : Nat) : Bool := ty ≤ 2 && (red == 0 || red == 3)

/-- Bytes of a value between stages. -/
def carryElem (ty red : Nat) : Nat := if carries32 ty red then 4 else collElem ty

/-- An input as it is carried: widened exactly. -/
def widen (ty red x : Nat) : Nat := if carries32 ty red then Fmt.f32.rne ((collFmt ty).dec x) else x

/-- One combination of two carried values. -/
def combine (ty red x y : Nat) : Nat :=
  if red == 1 || red == 2 then
    if ty ≤ 3 then fminmax (collFmt ty) (red == 2) x y
    else
      let a := BitVec.ofNat 32 x
      let b := BitVec.ofNat 32 y
      (if red == 2 then aluMax (ty == 5) a b else aluMin (ty == 5) a b).toNat
  else if ty ≤ 2 then Fmt.f32.rne (FVal.sum false [Fmt.f32.dec x, Fmt.f32.dec y])
  else if ty == 3 then Fmt.f64.rne (FVal.sum false [Fmt.f64.dec x, Fmt.f64.dec y])
  else (x + y) % 2 ^ 32

/-- The value in DST of a carried result `v` over `n` ranks; a NaN is canonical, that of a single rank too (R90). -/
def finalValue (ty red n v : Nat) : Nat :=
  if 4 ≤ ty then v
  else if red == 1 || red == 2 then (if ((collFmt ty).dec v).isNan then (collFmt ty).nan else v)
  else
    let x := (if ty == 3 then Fmt.f64 else Fmt.f32).dec v
    (collFmt ty).rne (if red == 3 then x.div (.fin false n 1) else x)

/-- Combine in any tree: which two come next is left open (R343, log 30, DESIGN CHOICE). -/
def reduceTree (ty red base : Nat) : Nat → List Nat → Nat
  | 0, vs => vs.headD 0
  | fuel + 1, vs =>
    match vs with
    | [] => 0
    | [v] => v
    | v :: rest =>
      let i := Config.freeNat (base + fuel) % rest.length
      let j := Config.freeNat (base + 65536 + fuel) % (rest.length)
      let w := combine ty red v (rest.getD i 0)
      let left := rest.eraseIdx i
      reduceTree ty red base fuel (left.take j ++ w :: left.drop j)

/-- Combine the carried values of one element, in ascending rank: communicator 0 in that order (R343). -/
def reduceAll (ty red : Nat) (base : Option Nat) (vs : List Nat) : Nat :=
  match base with
  | some b => reduceTree ty red b vs.length vs
  | none => match vs with
    | [] => 0
    | v :: rest => rest.foldl (combine ty red) v

/-- Element `i` of bytes. -/
def elemAt (b : List Byte) (w i : Nat) : Nat := bytesNat ((b.drop (w * i)).take w)

/-- Where the free tree of an element of an instance begins (log 30, DESIGN CHOICE). -/
def treeBase (c : Coll) (seq e : Nat) : Nat := 2 ^ 64 * (1 + e + 2 ^ 40 * (c.vf + 512 * (c.comm + 4096 * seq)))

/-- The reduced elements from `first` on, of contributions in ascending rank whose own bytes begin at element `at_`. -/
def reduceBytes (c : Coll) (seq n first at_ count : Nat) (ins : List (List Byte)) : List Byte :=
  (List.range count).flatMap fun i =>
    let vs := ins.map fun b => widen c.ty c.red (elemAt b (collElem c.ty) (at_ + i))
    natBytes (collElem c.ty)
      (finalValue c.ty c.red n (reduceAll c.ty c.red (if c.comm == 0 then none else some (treeBase c seq (first + i))) vs))

/-! ### Arrival -/

/-- Participants of a die that run (R341). -/
def collRunning (s : State) (die : Nat) : Nat :=
  ((s.colls.flatMap (·.parts)).filter fun p => p.die == die && p.arrived && !p.done).length

/-- Participants of a die that are queued (R341). -/
def collQueued (s : State) (die : Nat) : Nat := ((s.colls.flatMap (·.parts)).filter fun p => p.die == die && !p.arrived && !p.done).length

/-- Whether the collective engines of some dies can take another collective of a function (R288, R341). -/
def collFull (s : State) (vf : Nat) (dies : List Nat) : Bool :=
  dies.any (fun d => 1024 ≤ collQueued s d) ||
  ((s.fn? vf).map (·.quotaColls)).getD 256 ≤ (s.colls.filter (·.vf == vf)).length

/-- A participant arrives (R342): its identifier, COLL_ARRIVE, its wait record, its cone; its peers are told. An excluded one completes with TIMEOUT (R344) (log 31, DESIGN CHOICE). -/
def partArrive (s : State) (c : Coll) (p : CollPart) : State :=
  let m := mint s p.die
  let tmo := if c.tmo == 0 then ((s.fn? c.vf).map (·.cone)).getD 2000 else c.tmo
  let q := { p with arrived := true, op := m.1, deadline := s.time.dtc + usTicks tmo, arrivals := p.arrivals ++ [(p.rank, s.time.dtc, m.1)] }
  let s1 := emit ((m.2.setPart c.id p.rank fun _ => q).passClock (.op c.op) (.op m.1)) (collSrc p.die) 0x0601 m.1 c.op p.rank c.vf
  if (s.comm c.vf c.comm).excluded.contains p.rank then partFail s1 c.id p.rank 5
  else
    ((List.range (collRanks s c)).filter (· != p.rank)).foldl (fun s r => postMsg s (collMsg c q 0 r 0 s.time.dtc 0 []))
      (waitRecord s1 p.die 7 c.id p.rank p.rank)

/-- Take queued participants while their engines run fewer than 64 (R341), each rank's in order. -/
def collAccept (s : State) : State :=
  (s.colls.flatMap fun c => (c.parts.filter fun p => !p.arrived && !p.done).map fun p => (c.id, p.rank)).foldl
    (fun s k =>
      match s.coll? k.1 with
      | none => s
      | some c =>
        match c.part? k.2 with
        | none => s
        | some p => if collRunning s p.die < 64 then partArrive s c p else s) s

/-! ### Rosters -/

/-- Ranks that an instance waits for. -/
def missing (s : State) (c : Coll) (p : CollPart) : List Nat :=
  (List.range (collRanks s c)).filter fun r =>
    !(s.comm c.vf c.comm).excluded.contains r && !(p.arrivals.any (·.1 == r))

/-- A roster is fixed, or replaced by a smaller one, which restarts the data phase (R342, R344). -/
def setRoster (s : State) (id rank : Nat) (l : List Nat) : State :=
  (dropCollWait s id rank).setPart id rank fun p =>
    { p with roster := some l, sent := p.sent && p.roster == some l, written := if p.roster == some l then p.written else none }

/-- The roster is fixed once no rank is missing (R342). -/
def rosterFix (s : State) (id rank : Nat) : State :=
  match s.coll? id with
  | none => s
  | some c =>
    match c.part? rank with
    | none => s
    | some p =>
      if p.arrived && !p.done && !p.doomed && p.roster.isNone && (missing s c p).isEmpty then
        setRoster s id rank ((List.range (collRanks s c)).filter fun r => p.arrivals.any (·.1 == r) && !(s.comm c.vf c.comm).excluded.contains r)
      else s

/-- A decision on the roster reaches a participant: none decides TIMEOUT; another is adopted, and the ranks it lacks are excluded (R344). -/
def takeDecision (s : State) (c : Coll) (p : CollPart) (l : List Nat) : State :=
  if p.done then s
  else if l.isEmpty then s.setPart c.id p.rank fun p => { p with doomed := true }
  else
    let out := (List.range (collRanks s c)).filter fun r => !l.contains r
    let s1 := s.setComm c.vf c.comm fun m => { m with excluded := m.excluded ++ out.filter fun r => !m.excluded.contains r }
    if (p.roster.map (·.length)).getD 65536 ≤ l.length then s1 else setRoster s1 c.id p.rank l

/-- A decision is spread to the participants of the instance here and on other devices (log 18, DESIGN CHOICE). -/
def spreadDecision (s : State) (c : Coll) (p : CollPart) (l : List Nat) : State :=
  ((List.range (collRanks s c)).filter (· != p.rank)).foldl
    (fun s r => postMsg s (collMsg c p 2 r l.length 0 (2 * l.length) (l.flatMap (natBytes 2)))) s

/-- Members of a roster are lost in the data phase (R344). -/
def loseRanks (s : State) (c : Coll) (p : CollPart) (lost : List Nat) : State :=
  match p.roster with
  | none => s
  | some l =>
    if p.done || !(l.any lost.contains) then s
    else if !c.elastic then partFail s c.id p.rank 5
    else
      let l2 := l.filter fun r => !lost.contains r
      spreadDecision (takeDecision s c p l2) c p l2

/-! ### The data phase -/

/-- Whether an earlier instance of the communicator is unfinished at a rank (R341). -/
def earlierOpen (s : State) (c : Coll) (p : CollPart) : Bool :=
  s.colls.any fun x => x.vf == c.vf && x.comm == c.comm && x.parts.any fun q => q.rank == p.rank && q.seq < p.seq && !q.done

/-- What a rank sends to another: offset and length in its SRC, in bytes; none in a broadcast from a rank that is not the root. -/
def shareFor (c : Coll) (n frm rcv : Nat) : Nat × Nat :=
  let b := c.count * collElem c.ty
  if c.kind == 1 || c.kind == 4 then (rcv * b, b)
  else if c.kind == 3 && frm != c.root then (0, 0)
  else (0, (collSizes c.kind n c.count).1 * collElem c.ty)

/-- The peers' places in a roster: shares are by rank of the communicator. -/
def roundsTo (l : List Nat) (own : Nat) : List Nat := l.filter (· != own)

/-- The messages of a participant's data phase: to each peer its share, or once to the switches (R343). -/
def dataMsgs (s : State) (c : Coll) (p : CollPart) (l : List Nat) (bs : List Byte) : List CollMsg :=
  let n := collRanks s c
  if inSwitch s c && l.length != 1 then
    (if c.kind == 3 && p.rank != c.root then [] else [collMsg c p 1 0xFFFF l.length 0 bs.length bs])
  else
    (roundsTo l p.rank).filterMap fun r =>
      let x := shareFor c n p.rank r
      if x.2 == 0 then none else some (collMsg c p 1 r l.length 0 x.2 ((bs.drop x.1).take x.2))

/-- The data phase of a participant begins (R342): SRC is read, and sent where it is due. -/
def partData (s : State) (id rank : Nat) : State :=
  match s.coll? id with
  | none => s
  | some c =>
    match c.part? rank with
    | none => s
    | some p =>
      match p.roster with
      | none => s
      | some l =>
        if p.done || p.sent || p.doomed || earlierOpen s c p then s
        else if !l.contains rank || (c.kind == 3 && !l.contains c.root) then partFail s id rank 5
        else
          match devRead s c.vf c.asid p.src ((collSizes c.kind (collRanks s c) c.count).1 * collElem c.ty) with
          | .error _ =>
            (roundsTo l rank).foldl (fun s r => postMsg s (collMsg c p 3 r 0 0 0 [])) (partFail s id rank 2)
          | .ok bs =>
            let s := devClock s c.vf c.asid p.src ((collSizes c.kind (collRanks s c) c.count).1 * collElem c.ty) p.op
            let ms := dataMsgs s c p l bs
            let s1 := if ms.isEmpty || p.contrib.any (·.frm == rank) then s else emit s (collSrc p.die) 0x0602 p.op p.op 0 c.vf
            let mine : Contrib := ⟨rank, l.length, bs, bs.length, 0⟩
            ms.foldl postMsg
              (s1.setPart id rank fun p => { p with sent := true, contrib := p.contrib.filter (·.frm != rank) ++ [mine] })

/-! ### Delivery -/

/-- Whether a message fits its instance (R341). -/
def msgFits (c : Coll) (m : CollMsg) : Bool :=
  m.kind == c.kind && m.red == c.red && m.ty == c.ty && m.root == c.root && m.count == c.count

/-- Take the data of a peer or a switch: COLL_RECV (R342). -/
def takeShare (s : State) (c : Coll) (p : CollPart) (m : CollMsg) : State :=
  let new : Contrib := ⟨m.frm, m.n, m.data, m.total, m.op⟩
  let same (x : Contrib) : Bool := x.frm == m.frm && x.n == m.n
  let q := if m.frm == 0xFFFF then { p with result := some new } else { p with contrib := p.contrib.filter (!same ·) ++ [new] }
  emit ((s.setPart c.id p.rank fun _ => { q with lastOp := m.op }).passClock (.op m.op) (.op p.op)) (collSrc p.die) 0x0603 p.op m.op 0 c.vf

/-- A message reaches a participant. -/
def takeMsg (s : State) (c : Coll) (p : CollPart) (m : CollMsg) : State :=
  if m.flag == 2 then takeDecision s c p ((List.range (m.data.length / 2)).map fun i => elemAt m.data 2 i)
  else if m.flag == 3 then loseRanks s c p [m.frm]
  else if !msgFits c m then partFail s c.id p.rank 7
  else if m.flag == 0 then
    (if p.arrivals.any (·.1 == m.frm) then s
     else s.setPart c.id p.rank fun p => { p with arrivals := p.arrivals ++ [(m.frm, m.off, m.op)] })
  else takeShare s c p m

/-- The participants here that a message is for: of its communicator, rank and instance. -/
def partsFor (s : State) (m : CollMsg) : List (Coll × CollPart) :=
  (s.colls.filter fun c => c.vf == m.vf && c.comm == m.comm).flatMap fun c =>
    (c.parts.filter fun p => p.seq == m.seq && p.rank == m.rcv).map fun p => (c, p)

/-- Whether a message comes after its instance has ended at its rank. -/
def msgLate (s : State) (m : CollMsg) : Bool :=
  if m.comm == 0 then !(s.colls.any (·.id == m.seq))
  else m.seq < (((s.comm m.vf m.comm).started.find? (·.1 == m.rcv)).map (·.2)).getD 0

/-- Deliver a message of this package: none while its participant has not arrived, or while it is a piece only. -/
def deliverMsg (s : State) (m : CollMsg) : Option State :=
  match partsFor s m with
  | [] => if msgLate s m then some s else none
  | ps =>
    if isPiece m || ps.any fun x => !x.2.arrived && !x.2.done then none
    else some (ps.foldl (fun s x =>
      match (s.coll? x.1.id).bind fun c => (c.part? x.2.rank).map fun p => (c, p) with
      | some (c, p) => if p.done then s else takeMsg s c p m
      | none => s) s)

/-- Whether a message is for this device. -/
def msgHere (s : State) (m : CollMsg) : Bool := m.rcv != 0xFFFF && rankHere s m.vf m.comm m.rcv

/-- Messages go to the participants of this device, and as packets to other devices and to the switches; what cannot go yet stays. -/
def collFlush (s : State) : State :=
  s.collNet.foldl
    (fun s m =>
      let kept := { s with collNet := s.collNet ++ [m] }
      if msgHere s m then (deliverMsg s m).getD kept
      else
        let k := msgPkt s m
        if s.dev.lostDevs.contains k.2 then s else
        (sendOn s k.2 m.vf (msgBase k.2 m) k.1 .coll).getD kept) { s with collNet := [] }

/-- Every participant here. -/
def allParts (s : State) : List (Nat × Nat) := s.colls.flatMap fun c => c.parts.map fun p => (c.id, p.rank)

/-- What the collective engines do at once: queued participants arrive, messages go, rosters are fixed, data phases begin. -/
def collGo (s : State) : State :=
  let s1 := collFlush (collAccept s)
  let s2 := (allParts s1).foldl (fun s k => rosterFix s k.1 k.2) s1
  collFlush ((allParts s2).foldl (fun s k => partData s k.1 k.2) s2)

/-! ### The start of a collective -/

/-- A checked collective starts: each of its ranks starts its next instance (R341) (log 29, DESIGN CHOICE). -/
def startColl (s : State) (c : Coll) : State :=
  let bump (l : List (Nat × Nat)) (p : CollPart) : List (Nat × Nat) :=
    setOr (·.1 == p.rank) (fun x => (x.1, x.2 + 1)) (p.rank, 0) l
  let s1 := { s with colls := s.colls ++ [c], nextId := s.nextId + 1 }
  collGo (if c.comm == 0 then s1 else s1.setComm c.vf c.comm fun m => { m with started := c.parts.foldl bump m.started })

/-- COLLECTIVE_PACKET (R27, R340 to R342): its descriptor is checked and its participants enter their engines; while one is full the packet waits. -/
def execCollectivePacket (p : Nat) (s : State) : Host.Outcome State Fault Refusal :=
  match s.packet? p with
  | none => .next s
  | some k0 =>
    match makeColl s (.packet p) k0.op k0.vf k0.asid (k0.u64 8) 255 with
    | .ok c =>
      if collFull s c.vf (c.parts.map (·.die)) then .next s
      else startWith s p 5 fun k s =>
        startColl s { c with id := s.nextId, op := k.op,
                             parts := c.parts.map fun q => { q with seq := if c.comm == 0 then s.nextId else q.seq } }
    | .error code => startWith s p 5 fun k s => abortPacket s k code k.op

/-! ### Completion and expiry -/

/-- The contributions a participant needs for its result are here (R342). -/
def partReady (c : Coll) (p : CollPart) (sw : Bool) : Bool :=
  match p.roster with
  | none => false
  | some l =>
    p.sent &&
    (if sw && collReduces c.kind && l.length != 1 then
      (match p.result with | some x => x.n == l.length && x.data.length == x.total | none => false)
     else l.all fun r => (c.kind == 3 && r != c.root) ||
       p.contrib.any fun x => x.frm == r && x.n == l.length && x.data.length == x.total)

/-- A rank's contribution for the present roster. -/
def contribOf (p : CollPart) (n r : Nat) : List Byte := ((p.contrib.find? fun x => x.frm == r && x.n == n).map (·.data)).getD []

/-- The result of a participant (R340, R343), by offset in DST; blocks of ranks outside the roster stay. -/
def partResult (s : State) (c : Coll) (p : CollPart) (l : List Nat) : List (Nat × List Byte) :=
  let el := collElem c.ty
  let b := c.count * el
  let sw := inSwitch s c && l.length != 1
  if collReduces c.kind then
    let first := if c.kind == 1 then p.rank * c.count else 0
    if sw then
      let w := carryElem c.ty c.red
      let got := ((p.result.map (·.data)).getD [])
      [(0, (List.range c.count).flatMap fun i => natBytes el (finalValue c.ty c.red l.length (elemAt got w (first + i))))]
    else
      let ins := l.map fun r => contribOf p l.length r
      let own (r : Nat) (x : List Byte) : List Byte := if c.kind == 1 && r == p.rank then x.drop (first * el) else x
      [(0, reduceBytes c p.seq l.length first 0 c.count ((l.zip ins).map fun x => own x.1 x.2))]
  else if c.kind == 3 then [(0, contribOf p l.length c.root)]
  else
    l.map fun r =>
      let x := contribOf p l.length r
      (r * b, if c.kind == 4 && r == p.rank then (x.drop (r * b)).take b else x)

/-- Write the result at its homes (R342). -/
def writeResult (s : State) (c : Coll) (p : CollPart) (l : List Nat) : Except Nat State :=
  (partResult s c p l).foldlM (fun s x => devWrite s c.vf c.asid p.die p.op (p.dst + BitVec.ofNat 64 x.1) x.2) s

/-- COLL_DONE (R342): the result of a participant is written, and once every byte has been applied it completes; one whose instance has been decided
against completes with TIMEOUT (R344). -/
def execCollDone (coll rank : Nat) (s : State) : Host.Outcome State Fault Refusal :=
  .next (match (s.coll? coll).bind fun c => (c.part? rank).map fun p => (c, p) with
    | none => s
    | some (c, p) =>
      if p.done then s
      else if p.doomed then collGo (partFail s coll rank 5)
      else
        match p.roster, p.written with
        | some l, none =>
          if !partReady c p (inSwitch s c) then s
          else
            (match writeResult s c p l with
             | .error _ => collGo (partFail s coll rank 2)
             | .ok t =>
               let refs := (t.accesses.filter fun a => s.nextId ≤ a.ref).map (·.ref)
               let t1 := t.setPart coll rank fun p => { p with written := some refs }
               if refs.isEmpty then collGo (partDone t1 c p) else t1)
        | some _, some refs =>
          let open_ := s.accesses.filter fun a => refs.contains a.ref
          let bad (a : Access) : Bool := match a.resp with | .err _ => true | _ => false
          if open_.any bad then
            collGo (partFail { s with accesses := s.accesses.filter fun a => !refs.contains a.ref } coll rank 2)
          else if open_.isEmpty then collGo (partDone s c p) else s
        | none, _ => s)

/-- The first late rank (R319): the smallest expected time, the lowest rank among equals; with its previous COLL_ARRIVE. -/
def firstLate (s : State) (c : Coll) (p : CollPart) : Nat × DWord :=
  let prev := (s.comm c.vf c.comm).prev
  let late := missing s c p
  let key (r : Nat) : Option (Nat × DWord) := (prev.find? (·.1 == r)).map (·.2)
  let pick := late.foldl (fun b r => match key r, key b with
    | some x, some y => if x.1 < y.1 then r else b
    | some _, none => if prev.isEmpty then b else r
    | _, _ => b) (late.headD 0)
  (pick, ((key pick).map (·.2)).getD 0)

/-- WITNESS_EXPIRE (R319, R344): the cone of a participant that still waits has run out; it names the first late rank and decides the instance. -/
def execWitnessExpire (coll rank : Nat) (s : State) : Host.Outcome State Fault Refusal :=
  .next (match (s.coll? coll).bind fun c => (c.part? rank).map fun p => (c, p) with
    | none => s
    | some (c, p) =>
      if p.done || !p.arrived || p.roster.isSome || s.time.dtc < p.deadline then s
      else
        let w := firstLate s c p
        let s1 := emit s (collSrc p.die) 0x0605 p.op w.2 w.1 c.vf
        if p.doomed then collGo (partFail s1 coll rank 5)
        else if !c.elastic then collGo (partFail (spreadDecision s1 c p []) coll rank 5)
        else
          let l := (p.arrivals.map (·.1)).filter fun r => !(s.comm c.vf c.comm).excluded.contains r
          let sorted := (List.range (collRanks s c)).filter l.contains
          collGo (spreadDecision (takeDecision s1 c p sorted) c p sorted))

/-- A device or one of its dies is lost (R344): every participant whose roster holds a rank there. -/
def collLost (s : State) (dev : Nat) (die : Option Nat) : State :=
  let there (c : Coll) : List Nat :=
    ((List.range (collRanks s c)).zip (s.comm c.vf c.comm).ranks).filterMap fun x =>
      if x.2.1 == dev && (die.isNone || die == some x.2.2.1) then some x.1 else none
  collGo ((allParts s).foldl
    (fun s k =>
      match (s.coll? k.1).bind fun c => (c.part? k.2).map fun p => (c, p) with
      | some (c, p) => loseRanks s c p (there c)
      | none => s) s)

/-! ### Packets -/

/-- The function that a packet's key names. -/
def keyFn (s : State) (key : BitVec 16) : Option Nat := (s.fns.find? (·.pkey == some key.toNat)).map (·.vf)

/-- A message for every rank of this device, its sender apart. -/
def toRanks (s : State) (m : CollMsg) : List CollMsg :=
  if m.rcv != 0xFFFF then [m]
  else ((List.range (s.comm m.vf m.comm).ranks.length).filter fun r => r != m.frm && rankHere s m.vf m.comm r).map fun r => { m with rcv := r }

/-- A collective packet from a peer or the switches arrives (R342): it is acknowledged and its message delivered. -/
def takeCollPkt (s : State) (p : FabPkt) : State :=
  match keyFn s p.pkey with
  | none => sendRefusal s p 0xA1
  | some vf => collGo { (sendAnswer s p 6 []) with collNet := (toRanks s (msgOf vf p.cid p.payload)).foldl addMsg s.collNet }

/-! ### The switches -/

/-- The result of a reducing switch: carried values, combined in any tree. -/
def switchResult (m : CollMsg) (got : List CollMsg) : List Byte :=
  let n := m.total / collElem m.ty
  (List.range n).flatMap fun i =>
    let vs := got.map fun x => widen m.ty m.red (elemAt x.data (collElem m.ty) i)
    natBytes (carryElem m.ty m.red) (reduceAll m.ty m.red (some (2 ^ 64 * (1 + i + 2 ^ 40 * (m.comm + 4096 * m.seq)))) vs)

/-- The packets that carry a switch's result to the devices of a communicator. -/
def switchPkts (s : State) (p : FabPkt) (m : CollMsg) (bs : List Byte) : List Out :=
  let res := { m with flag := 1, frm := 0xFFFF, rcv := 0xFFFF, off := 0, total := bs.length, data := bs }
  let vf := (keyFn s p.pkey).getD 0
  let devs := ((s.comm vf m.comm).ranks.map (·.1)).eraseDups
  devs.flatMap fun d => (collPieces res).map fun x =>
    let b := msgBytes x
    Out.pkt { p with op := 0x13, dstdev := BitVec.ofNat 12 d, plane := BitVec.ofNat 5 (planeOf s (msgBase d x)), payload := b, len := BitVec.ofNat 5 (ceilDiv b.length 16) }

/-- COLL_RED (R343): a contribution reaches a reducing switch of the fabric; the last one completes the result, which is multicast with its CID (log 17, DESIGN CHOICE). -/
def takeCollRed (s : State) (p : FabPkt) : State :=
  let m := msgOf 0 p.cid p.payload
  let same (a : SwitchAcc) : Bool := a.comm == m.comm && a.pkey == p.pkey.toNat && a.seq == m.seq && a.n == m.n
  let add (a : SwitchAcc) : SwitchAcc := { a with got := addMsg a.got m }
  let s1 := { (sendAnswer s p 6 []) with switches := setOr same add ⟨m.comm, p.pkey.toNat, m.seq, m.n, []⟩ s.switches }
  match s1.switches.find? same with
  | none => s1
  | some a =>
    if a.got.length == a.n && !a.got.any isPiece then
      { s1 with switches := s1.switches.filter (!same ·), outbox := s1.outbox ++ switchPkts s p m (switchResult m a.got) }
    else s1

end Sys2Proof.Machine
end

