-- ==== Sys2Proof/Machine/Wheel.lean ====
section
/-! DEFINITION. Meanings of the Wheels: graph packets, the dispatch and the end of nodes, node scratchpad, lost dies (spec/16 R277; spec/17 R281 to
R298; spec/11 R213, R221; spec/13 R235). -/

namespace Sys2Proof.Machine

/-! ### Records -/

/-- A node record (R282) as the Wheels hold it. -/
def nodeOf (i n : Nat) : GNode :=
  { idx := i, kind := natBits n 7 0, cor := n.testBit 9, retry := n.testBit 10, trace := n.testBit 11, local1 := n.testBit 12,
    count := natBits n 23 16, fmt := natBits n 27 24, diemask := natBits n 47 40, core := natBits n 63 48,
    ops := (List.range 4).map fun k => natBits n (95 + 32 * k) (64 + 32 * k), ntile := natBits n 287 256, ndep := natBits n 319 288,
    nout := natBits n 351 320, firste := natBits n 383 352, pay := BitVec.ofNat 64 (natBits n 447 384),
    aux := BitVec.ofNat 64 (natBits n 511 448), state := 0, unmet := natBits n 319 288, code := 0, op := 0, retired := 0, counters := [],
    grid := none, pending := 0, status := 0, lastOp := 0, upBroken := false, upBy := 0, readyAt := 0, placed := false }

/-- A drain format a tile node may name (R173, R277). -/
def drainFmtOk (f : Nat) : Bool := f == 0 || f == 1 || f == 2 || f == 4 || f == 6 || f == 7

/-- The fields a kind does not permit, and the limits of R282 and R283; `tileOut`: the node has a TILE out-edge. -/
def nodeBad (n : Nat) (tileOut : Bool) : Bool :=
  let k := natBits n 7 0
  let core := natBits n 63 48
  let pay := natBits n 447 384
  let aux := natBits n 511 448
  let kern := k == 1
  natBits n 255 192 != 0 || natBits n 39 28 != 0 || natBits n 15 13 != 0 || n.testBit 8 || 5 < k ||
  (192 ≤ core && core != 0xFFFF) ||
  (!kern && (natBits n 191 64 != 0 || natBits n 47 40 != 0 || n.testBit 12 || n.testBit 10 || n.testBit 9)) ||
  (k != 2 && natBits n 27 24 != 0) || (k != 3 && natBits n 23 16 != 0) || (k == 0 && (pay != 0 || n.testBit 11)) ||
  ((k == 0 || k == 3 || k == 4) && aux != 0) || ((k == 0 || 4 ≤ k) && core != 0xFFFF) ||
  ((k == 2 || k == 3) && core == 0xFFFF) || ((k == 1 || k == 2 || 4 ≤ k) && pay % 64 != 0) || (k == 3 && pay % 16 != 0) ||
  (kern && (aux % 8 != 0 || (aux == 0 && (n.testBit 10 || tileOut)) || (n.testBit 12 && core == 0xFFFF))) ||
  (k == 2 && (if aux == 0 then natBits n 27 24 != 0 else !drainFmtOk (natBits n 27 24))) ||
  (k == 3 && (natBits n 23 16 == 0 || 4 < natBits n 23 16)) || (k == 5 && aux % 8 != 0)

/-- An edge record (R284) of a producer. -/
def edgeOf (src n : Nat) : GEdge := { src := src, dst := natBits n 63 32, wop := natBits n 5 4, rop := natBits n 3 2, ek := natBits n 1 0 }

/-- The zero fields and limits of an edge record (R284, R285). -/
def edgeBad (nodes src n : Nat) : Bool :=
  natBits n 31 6 != 0 || n % 4 == 3 || (n % 4 != 2 && natBits n 5 2 != 0) || natBits n 63 32 ≤ src || nodes ≤ natBits n 63 32

/-- The graph record's own checks (R281). -/
def graphRecBad (n : Nat) : Bool :=
  natBits n 511 320 != 0 || natBits n 63 56 != 0 || natBits n 31 14 != 0 || natBits n 319 256 % 64 != 0 || natBits n 255 224 % 64 != 0 ||
  2 ^ 24 < natBits n 223 192 || natBits n 191 128 % 8 != 0 || (natBits n 223 192 == 0 && natBits n 191 128 != 0) ||
  natBits n 127 64 % 64 != 0 || natBits n 55 32 == 0 || 8192 < natBits n 13 0

/-- Read `count` records of `size` bytes; the abort code where one cannot be translated (R285) (log 54, DESIGN CHOICE). -/
def readRecs (s : State) (vf asid : Nat) (va : Nat) (size count : Nat) : Except Nat (List Nat) :=
  match (List.range count).mapM fun i => devNat s vf asid (BitVec.ofNat 64 (va + size * i)) size with
  | .ok l => .ok l
  | .error _ => .error 2

/-- The out-edge ranges follow each other (R285). -/
def edgeRangesOk (ns : List GNode) (nedge : Nat) : Bool :=
  (ns.foldl (fun r n => (r.1 && n.firste == r.2, r.2 + n.nout)) (true, 0)) == (true, nedge)

/-- The producer of each edge, in the order of the edge array. -/
def edgeSources (ns : List GNode) : List Nat := ns.flatMap fun n => List.replicate n.nout n.idx

/-- A write operand (R292). -/
def writeOperand (w : Nat) : Bool :=
  let f := opFields w
  f.1 == f.2.1 && 1 ≤ f.1 && f.2.2.1 == f.2.2.2 && 1 ≤ f.2.2.1

/-- Whether a node's KERNEL image matters to the checks of R285. -/
def needsImage (es : List GEdge) (n : GNode) : Bool :=
  n.kind == 1 && es.any fun e => (e.src == n.idx && e.ek != 0) || (e.dst == n.idx && e.ek == 2)

/-- The images of the nodes that need them, by node. -/
def readImages (s : State) (vf asid : Nat) (es : List GEdge) (ns : List GNode) : Except Nat (List (Nat × Nat)) :=
  (ns.filter (needsImage es)).mapM fun n =>
    match devNat s vf asid n.pay 64 with
    | .ok i => .ok (n.idx, i)
    | .error _ => .error 2

def imageOf (imgs : List (Nat × Nat)) (n : Nat) : Nat := ((imgs.find? (·.1 == n)).map (·.2)).getD 0

/-- Whether a node launches a co-resident grid by its COR or its group table (R294). -/
def corNode (imgs : List (Nat × Nat)) (n : GNode) : Bool := n.cor || natBits (imageOf imgs n.idx) 383 320 != 0

/-- The checks of an edge that need its nodes (R285, R292). -/
def edgeNodesBad (imgs : List (Nat × Nat)) (ns : List GNode) (e : GEdge) : Bool :=
  match ns.find? (·.idx == e.src), ns.find? (·.idx == e.dst) with
  | some p, some c =>
    (e.ek == 1 && (p.kind != 1 || !corNode imgs p)) ||
    (e.ek == 2 && (p.kind != 1 || c.kind != 1 || !writeOperand (p.ops.getD e.wop 0) || c.ops.getD e.rop 0 == 0 ||
      natBits (imageOf imgs p.idx) 191 160 != 1 || corNode imgs c))
  | _, _ => true

/-- Counts of a node's in-edges agree with its record (R285). -/
def countsBad (es : List GEdge) (n : GNode) : Bool :=
  n.ndep != (es.filter fun e => e.dst == n.idx && e.ek != 2).length || n.ntile != (es.filter fun e => e.dst == n.idx && e.ek == 2).length

/-- A copy entry (R283): descriptor, core, whether it breaks a limit. -/
def copyEntryOf (n : Nat) : DWord × Nat × Bool :=
  (BitVec.ofNat 64 (natBits n 63 0), natBits n 79 64, natBits n 63 0 % 64 != 0 || 192 ≤ natBits n 79 64 || natBits n 127 80 != 0)

/-- The crew counters a node needs: those of its grid when it has TILE in-edges (R285, R286). -/
def counterCount (imgs : List (Nat × Nat)) (n : GNode) : Nat := if n.ntile == 0 then 0 else imageCrews (imageOf imgs n.idx)

/-- Whether bytes can be written at a VA (R285). -/
def canWrite (s : State) (vf asid : Nat) (va n : Nat) : Bool :=
  va + n ≤ 2 ^ 57 && (pagesOf va n).all fun p => match translateWalk s vf asid p.1 .write with
    | .ok spa none => (match writable s spa p.2 with | .ok _ => true | .error _ => false)
    | .ok _ (some _) => true
    | _ => false

/-- The graph of a GRAPH packet, read and checked (R285); or the abort code. -/
def readGraph (s : State) (k : Packet) : Except Nat Graph := do
  let vf := k.vf
  let asid := k.asid
  let dies := if k.bits 23 16 == 0 then 255 else k.bits 23 16
  let r ← readRecs s vf asid (k.u64 8).toNat 64 1
  let rec_ := r.headD 0
  if graphRecBad rec_ then throw 7
  let nn := natBits rec_ 55 32
  let raw ← readRecs s vf asid (natBits rec_ 127 64) 64 nn
  let ns := ((List.range nn).zip raw).map fun p => nodeOf p.1 p.2
  let nedge := natBits rec_ 223 192
  if !edgeRangesOk ns nedge then throw 7
  let eraw ← readRecs s vf asid (natBits rec_ 191 128) 8 nedge
  let pairs := (edgeSources ns).zip eraw
  let es := pairs.map fun p => edgeOf p.1 p.2
  let copies ← (ns.filter (·.kind == 3)).mapM fun n =>
    (readRecs s vf asid n.pay.toNat 16 (min 4 n.count)).map fun l => l.map copyEntryOf
  let imgs ← readImages s vf asid es ns
  let named := ((ns.map (·.core)).filter (· != 0xFFFF)) ++ copies.flatten.map (·.2.1)
  let cl := vfClusters s vf
  let wbytes := natBits rec_ 255 224
  let need := 32 * nn + 4 * (ns.map (counterCount imgs)).foldl (· + ·) 0
  if ((List.range nn).zip raw).any (fun p => nodeBad p.2 (es.any fun e => e.src == p.1 && e.ek == 2)) ||
      pairs.any (fun p => edgeBad nn p.1 p.2) ||
      decide ((es.map fun e => (e.src, e.dst)).eraseDups.length ≠ es.length) || ns.any (countsBad es) || es.any (edgeNodesBad imgs ns) ||
      copies.flatten.any (·.2.2) ||
      (((ns.filter (·.kind == 3)).zip copies).any fun p => p.2.head?.map (·.2.1) != some p.1.core) || named.any (fun c => !cl.contains (coreCluster c) || !dies.testBit (coreDie c)) ||
      (ns.any (·.kind == 5) && !s.hasFeature vf 16) || wbytes < (need + 63) / 64 * 64 then throw 7
  if !canWrite s vf asid (natBits rec_ 319 256) wbytes then throw 2
  let scr := 64 * natBits rec_ 13 0
  return { id := s.nextId, packet := k.id, vf := vf, asid := asid, dies := dies, work := BitVec.ofNat 64 (natBits rec_ 319 256), scr := scr,
           waiting := if scr == 0 then [] else (List.range 192).filter named.contains,
           nodes := ns.map fun n => { n with counters := List.replicate (counterCount imgs n) 0 }, edges := es, pool := [], broken := none }

/-! ### The start -/

/-- The work area as the Wheels set it up (R286). -/
def setWork (s : State) (g : Graph) : State :=
  let s1 := g.nodes.foldl (fun s n => workWrite s g (32 * n.idx) (entryHead n ++ List.replicate 16 0)) s
  workWrite s1 g (32 * g.nodes.length) (List.replicate (4 * (g.nodes.map (·.counters.length)).foldl (· + ·) 0) 0)

/-- Reserve node scratchpad, zeroed, on the cores in ascending order while each has room (R277, R285). -/
def reserveCores (g asid scr : Nat) : List Nat → State → State
  | [], s => s
  | c :: cs, s =>
    match (if coreFree s c asid then scrPlace (scrTaken s c) (topBoundary s c 0) scr else none) with
    | none => s.setGraph g fun x => { x with waiting := c :: cs }
    | some base =>
      let s1 := (takeScr (enterCore s c asid) c base scr 0).setCore c fun k => { k with nodeScr := k.nodeScr ++ [(g, base, scr)] }
      reserveCores g asid scr cs (s1.setGraph g fun x => { x with waiting := cs })

/-- Every node without DONE or START in-edges becomes ready, with the packet as its cause (R285, R278). -/
def rootsReady (s : State) (g : Nat) : State :=
  match s.graph? g with
  | none => s
  | some x =>
    if !x.waiting.isEmpty then s
    else
      let op := ((s.packet? x.packet).map (·.op)).getD 0
      (x.nodes.filter fun n => n.ndep == 0 && n.state == 0).foldl (fun s n => nodeReady s g n.idx op) s

/-- GRAPH_PACKET (R27, R285): the Wheels read and check the graph, set up the work area and reserve node scratchpad. -/
def execGraphPacket (p : Nat) (s : State) : Host.Outcome State Fault Refusal :=
  startWith s p 2 fun k s =>
    match readGraph s k with
    | .error c => abortPacket s k c k.op
    | .ok g =>
      let s1 := setWork { s with graphs := s.graphs ++ [g], nextId := s.nextId + 1 } g
      rootsReady (reserveCores g.id g.asid g.scr g.waiting s1) g.id

/-- NODE_SCRATCHPAD_RESERVE (R285): a reservation that has waited for room goes on. -/
def execNodeScratchpadReserve (graph : Nat) (s : State) : Host.Outcome State Fault Refusal :=
  .next (match s.graph? graph with
    | none => s
    | some g => if g.waiting.isEmpty then s else rootsReady (reserveCores graph g.asid g.scr g.waiting s) graph)

/-! ### Dispatch -/

/-- A node's identity as a source of work. -/
def nodeWaiter (g n : Nat) : Waiter := .node g n

/-- The copy entries of a node (R283) with its descriptors, and whether an entry breaks a limit; or the abort code. -/
def nodeEntries (s : State) (x : Graph) (y : GNode) : Except Nat (List (Nat × Nat) × Bool) :=
  match readRecs s x.vf x.asid y.pay.toNat 16 y.count with
  | .error c => .error c
  | .ok l =>
    let es := l.map copyEntryOf
    (es.mapM fun (e : DWord × Nat × Bool) => match devNat s x.vf x.asid e.1 64 with
      | .ok d => Except.ok (d, e.2.1)
      | .error _ => .error 2).map fun r => (r, es.any (·.2.2) || ((es.headD (0, 0, false)).2.1 != y.core))

/-- The channel a node's copy entry enters (R277). -/
def entryChan (e : Nat × Nat) : Nat := 4 * coreCluster e.2 + (copyDescOf e.1).chan

/-- The engines a node needs (R288): the core of a tile node, the channels of a copy node, the dies of a collective, the table of an invocation. -/
def nodeEngines (s : State) (x : Graph) (y : GNode) : List Nat :=
  if y.kind == 2 then [y.core]
  else if y.kind == 3 then (match nodeEntries s x y with | .ok l => l.1.map entryChan | .error _ => [])
  else if y.kind == 4 then collDies s x.vf x.asid y.pay
  else if y.kind == 5 then [ownerDie x y]
  else []

/-- Whether a node waits behind an earlier one for the same engine, in the order in which nodes became ready, whatever their graphs (R288); a Wheel's pool
holds the first 4,096 of its nodes. Where in the work area a pool stands while its context is pre-empted is not stated: it stays here (R298) (log 137, DESIGN
CHOICE). -/
def nodeBehind (s : State) (x : Graph) (y : GNode) : Bool :=
  let ready := (s.graphs.filter fun g => asidRuns s g.asid).flatMap fun g => (g.nodes.filter (·.state == 1)).map fun z => (g, z)
  let before := ready.filter fun p => p.2.readyAt < y.readyAt
  let mine := nodeEngines s x y
  4096 ≤ (before.filter fun p => ownerDie p.1 p.2 == ownerDie x y).length ||
    before.any fun p => p.2.kind == y.kind && (nodeEngines s p.1 p.2).any mine.contains

/-- The node is accepted (R287, R289): RUNNING, NODE_DISPATCH, out of the pool. -/
def nodeRunning (s : State) (x : Graph) (y : GNode) (parts : Nat) : State :=
  let s1 := nodeState s x.id y.idx fun z => { z with state := 2, pending := parts }
  let s2 := s1.setGraph x.id fun z => { z with pool := z.pool.filter (· != y.idx) }
  emit (s2.passClock (.node x.id y.idx) (.op y.op)) (wheelSrc x y) 0x0202 y.op y.op y.idx x.vf

/-- Detail is selected for a node: its TRACE and trace level FULL (R282, R311). -/
def nodeDetail (s : State) (x : Graph) (y : GNode) : Bool := y.trace && ((s.fn? x.vf).map (·.trace)).getD 0 == 1

/-- The counters of a consumer of tiles at its dispatch (R293): the producer crews it reads that have not retired. -/
def startCounters (x : Graph) (grids : Nat → Option Grid) (total : Nat) (y : GNode) (gx gy : Nat)
    (retired : Nat → List Nat) (shape : Nat → Nat × Nat) : List Nat :=
  (List.range total).map fun k =>
    ((x.edges.filter fun e => e.dst == y.idx && e.ek == 2).map fun e =>
      let p := (x.node? e.src).map (fun p => p.ops.getD e.wop 0)
      let sh := match grids e.src with | some g => (g.gx, g.gy) | none => shape e.src
      ((tileCrews (y.ops.getD e.rop 0) (p.getD 0) sh.1 sh.2 (k % gx) (k / gx % gy)).filter fun c =>
        !(retired e.src).contains (c.1 + sh.1 * c.2)).length).foldl (· + ·) 0

/-- The crews of a producer that have retired: of its grid, or by its bitmap (R283). -/
def nodeRetiredCrews (s : State) (x : Graph) (n : Nat) : List Nat :=
  match s.nodeGrid x.id n, x.node? n with
  | some g, _ => g.retired
  | none, some y =>
    if y.retired == 0 then []
    else
      let sh := nodeShape s x n
      (match devNat s x.vf x.asid y.aux ((sh.1 * sh.2 + 7) / 8) with
       | .ok b => (List.range (sh.1 * sh.2)).filter b.testBit
       | .error _ => [])
  | none, none => []

/-- Clear the retired-crew bitmap (R283). -/
def clearBitmap (s : State) (x : Graph) (y : GNode) (total : Nat) : Except Nat State :=
  if y.aux == 0 then .ok s
  else match devWrite s x.vf x.asid (ownerDie x y) y.op y.aux (List.replicate ((total + 7) / 8) 0) with
    | .ok t => .ok t
    | .error _ => .error 2

/-- Dispatch of a kernel node (R289, R293, R294). -/
def dispatchKernel (s : State) (x : Graph) (y : GNode) : State :=
  match devNat s x.vf x.asid y.pay 64 with
  | .error _ => nodeBreak s x.id y.idx 2 0
  | .ok img =>
    if kernelImgBad img then nodeBreak s x.id y.idx 7 0
    else
      match makeGrid s (.node x.id y.idx) y.op x.vf x.asid img (if y.diemask == 0 then x.dies else y.diemask) y.retry (nodeDetail s x y) y.cor with
      | .error c => nodeBreak s x.id y.idx c 0
      | .ok g =>
        if !couldHold s g then nodeBreak s x.id y.idx 7 0
        else
          match clearBitmap s x y g.total with
          | .error c => nodeBreak s x.id y.idx c 0
          | .ok t =>
            let s1 := nodeRunning { t with grids := t.grids ++ [g], nextId := t.nextId + 1 } x y 1
            let s2 := s1.setNode x.id y.idx fun z => { z with grid := some g.id }
            if y.ntile == 0 then s2
            else setCounters s2 x.id y.idx
              (startCounters x (fun n => s.nodeGrid x.id n) g.total y g.gx g.gy (nodeRetiredCrews s x) (nodeShape s x))

/-- The node scratchpad a graph has on a core: base and size. -/
def graphScr (s : State) (g core : Nat) : Nat × Nat := (((s.core core).nodeScr.find? (·.1 == g)).map (·.2)).getD (0, 0)

/-- Dispatch of a tile node (R289, R277) (log 84, DEDUCED). -/
def dispatchTile (s : State) (x : Graph) (y : GNode) : State :=
  if mxFull s y.core || !coreFree s y.core x.asid then s
  else
    match devNat s x.vf x.asid y.pay 64 with
    | .error _ => nodeBreak s x.id y.idx 2 0
    | .ok n =>
      let scr := graphScr s x.id y.core
      if (tileCheck n scr.2).isSome || (y.aux != 0 && y.aux.toNat % drainSize y.fmt != 0) || s.dev.lostDies.contains (coreDie y.core) then
        nodeBreak s x.id y.idx (if s.dev.lostDies.contains (coreDie y.core) then 3 else 7) 0
      else
        let o : MxOp :=
          { id := s.nextId, kind := .tile (tileRecOf n), crew := none, scrBase := scr.1, scrSize := scr.2, vf := x.vf, asid := x.asid,
            op := y.op, waiter := nodeWaiter x.id y.idx, started := false, chunk := 0,
            drain := if y.aux == 0 then none else some (y.aux, y.fmt) }
        let s1 := nodeRunning { s with nextId := s.nextId + 1 } x y 1
        (enterCore s1 y.core x.asid).setCore y.core fun k => { k with mxq := k.mxq ++ [o] }

/-- The entries of a copy node enter their channels (R277). -/
def pushNodeCopies (s : State) (x : Graph) (y : GNode) (es : List (Nat × Nat)) : State :=
  es.foldl (fun s e =>
    pushEntry { s with nextId := s.nextId + 1 } (entryChan e)
      { id := s.nextId, kind := .copy (copyDescOf e.1), vf := x.vf, asid := x.asid, core := e.2, crew := none, owner := none, op := y.op,
        waiter := nodeWaiter x.id y.idx, detail := true, accepted := true, started := false, row := 0, status := 0,
        outstanding := [], tmpl := none }) s

/-- Dispatch of a copy node (R289, R277): once its channels can take it, it is checked and accepted. -/
def dispatchCopy (s : State) (x : Graph) (y : GNode) : State :=
  match nodeEntries s x y with
  | .error c => nodeBreak s x.id y.idx c 0
  | .ok (es, bad) =>
    let full := es.any fun e => 64 < (s.channel (entryChan e)).accepted + (es.filter fun f => entryChan f == entryChan e).length ||
      !(s.channel (entryChan e)).entries.all (·.accepted)
    if full then s
    else if bad || es.any (fun e => copyDescBad e.1 (graphScr s x.id e.2).2 true || (copyDescOf e.1).ck != 0) then nodeBreak s x.id y.idx 7 0
    else if es.any (fun e => s.dev.lostDies.contains (coreDie e.2)) then nodeBreak s x.id y.idx 3 0
    else pushNodeCopies (nodeRunning s x y es.length) x y es

/-- Dispatch of a collective node (R289, R340): once the engines that its descriptor names can take it, it is checked and accepted. -/
def dispatchColl (s : State) (x : Graph) (y : GNode) : State :=
  if collFull s x.vf (collDies s x.vf x.asid y.pay) then s
  else
    match makeColl s (.node x.id y.idx) y.op x.vf x.asid y.pay x.dies with
    | .error c => nodeBreak s x.id y.idx c 0
    | .ok c => startColl (nodeRunning s x y 1) c

/-- Dispatch of an invoke node (R288, R352): its handle is minted and stored; the node waits while none can be. -/
def dispatchInvoke (s : State) (x : Graph) (y : GNode) : State :=
  let die := ownerDie x y
  match gwMint s die x.vf y.op with
  | .error _ => s
  | .ok (h, s1) =>
    let s2 := (nodeRunning (gwStart s1 die h x.vf x.asid y.pay) x y 1).passClock (.op y.op) (.handle h)
    match devWrite s2 x.vf x.asid die (handleOp s1 h) y.aux (natBytes 8 h.toNat) with
    | .ok t => nodePart t x.id y.idx 0 0
    | .error _ => nodePart s2 x.id y.idx 2 0

/-- NODE_DISPATCH (R288, R289): a ready node is checked and accepted by its engine; one whose engine is full, or that stands behind another for it,
stays in the pool. A pre-empted context dispatches nothing (R298). -/
def execNodeDispatch (graph node : Nat) (s : State) : Host.Outcome State Fault Refusal :=
  .next (match s.graph? graph with
    | none => s
    | some x =>
      match x.node? node with
      | none => s
      | some y =>
        if y.state != 1 || y.kind == 0 || !asidRuns s x.asid || nodeBehind s x y then s
        else if y.kind == 1 then dispatchKernel s x y
        else if y.kind == 2 then dispatchTile s x y
        else if y.kind == 3 then dispatchCopy s x y
        else if y.kind == 4 then dispatchColl s x y
        else dispatchInvoke s x y)

/-- NODE_DONE (R287, R291): a barrier node that is ready, or a running node whose work has ended, its writes to other devices among it. The release flush
waits for nothing more, since work in this package ends only when its writes have been applied. -/
def execNodeDone (graph node : Nat) (s : State) : Host.Outcome State Fault Refusal :=
  .next (match s.gnode? graph node with
    | none => s
    | some y =>
      if y.kind == 0 && y.state == 1 then nodeFinish s graph node y.lastOp
      else if y.state != 2 || y.pending != 0 || nodeWrites s y then s
      else if y.status == 0 then nodeFinish s graph node y.lastOp
      else nodeBreak s graph node y.status 0)

/-! ### Lost dies -/

/-- A crew on a lost die is gone (R213): its fibres and what they had under way; its grid places it again under RETRY. -/
def loseCrew (s : State) (c : Crew) : State :=
  let ids := (s.fibres.filter (·.crew == c.id)).map (·.id)
  let mine (a : Access) : Bool := match a.owner with | some f => ids.contains f | none => false
  let s1 := waitDrop { s with
    crews := s.crews.filter (·.id != c.id)
    fibres := s.fibres.filter fun f => !ids.contains f.id
    accesses := s.accesses.filter fun a => !mine a
    owed := s.owed.filter fun o => !ids.contains o.fibre
    gwQueries := s.gwQueries.filter fun q => q.dev.isSome || !ids.contains q.fibre } fun w m => w.kind ≤ 5 && ids.contains m
  match s1.grid? c.grid with
  | none => s1
  | some g =>
    let lose (x : Grid) : Grid :=
      if x.retry then { x with queued := (List.range x.total).filter fun l => x.queued.contains l || l == c.linear }
      else { x with dieLost := true }
    gridEval (gbarEvalAll (s1.setGrid g.id lose) g.id) g.id

/-- Engine work on a lost die ends with DIE_LOST for its packet or node (R297, R30). -/
def loseWaiter (s : State) (w : Waiter) : State :=
  match w with
  | .packet p => completePacket s p 3 0
  | .node g n => nodePart s g n 3 0
  | _ => s

/-- Whether a page of a range has its home on a die. -/
def onDie (s : State) (vf asid : Nat) (va n die : Nat) : Bool :=
  (pagesOf va n).any fun p => match translateWalk s vf asid p.1 .read with
    | .ok spa none => homeDie (s.homeOf (spa % 2 ^ 49)) == die
    | _ => false

/-- A graph after the loss of a die (R297): its Wheels go on without it, or every node that is not final breaks. -/
def loseGraph (s : State) (die : Nat) (g : Graph) : State :=
  match s.packet? g.packet with
  | none => s
  | some k =>
    let rec_ := match devNat s g.vf g.asid (k.u64 8) 64 with | .ok r => r | .error _ => 0
    let work := 32 * g.nodes.length + 4 * (g.nodes.map (·.counters.length)).foldl (· + ·) 0
    let gone := onDie s g.vf g.asid g.work.toNat work die ||
      onDie s g.vf g.asid (natBits rec_ 127 64) (64 * g.nodes.length) die || onDie s g.vf g.asid (natBits rec_ 191 128) (8 * g.edges.length) die
    let s1 := s.setGraph g.id fun x => { x with dies := if x.dies == 2 ^ die then x.dies else x.dies - (if x.dies.testBit die then 2 ^ die else 0) }
    if gone || g.dies == 2 ^ die then graphEval (breakAll s1 g.id 3) g.id else s1

/-- The checker's entry for a group with members on a lost die (R221, R324 KIND 4): which of its crews there the entry names is left open. -/
def checkLostGroup (s : State) (die : Nat) (g : Grid) (x : GroupSt) : State :=
  let there := s.crews.filter fun c => c.grid == g.id && coreDie c.core == die && x.crews.contains c.linear
  let d := choose s there.length
  match there[d.1]? with
  | none => s
  | some c => checkLog d.2 g.vf ⟨4, x.num, 0, c.linear, 0, g.op, s.time.dtc⟩

/-- The checker's entries when a die is lost (R324 KIND 4). -/
def checkLostGroups (s : State) (die : Nat) : State :=
  s.grids.foldl (fun s g => g.groups.foldl (fun s x => checkLostGroup s die g x) s) s

/-- A die is isolated (R213, R221, R235, R297, R344, R358): what ran on it is lost (log 82, DESIGN CHOICE) (log 123, DESIGN CHOICE). -/
def isolateDie (s : State) (die : Nat) : State :=
  if s.dev.lostDies.contains die || 8 ≤ die then s
  else
    let s0 := { s with dev := { s.dev with lostDies := s.dev.lostDies ++ [die] } }
    let s1 := s0.graphs.foldl (fun s g => loseGraph s die g) s0
    let s2 := (s1.crews.filter fun c => coreDie c.core == die).foldl loseCrew (checkLostGroups s1 die)
    let ops := (s2.cores.filter fun c => coreDie c.num == die).flatMap fun c => c.mxq.map (·.waiter)
    let ents := (s2.channels.filter fun c => c.num / 8 == die).flatMap fun c => c.entries.map (·.waiter)
    let s3 := { s2 with
      cores := s2.cores.filter fun c => coreDie c.num != die
      channels := s2.channels.filter fun c => c.num / 8 != die }
    let s3 := (s3.queues.filter fun q => q.slot.map (· / 16) == some die).foldl (fun s q => unmapQueue s q.qnum) s3
    let s4 := (ops ++ ents).foldl loseWaiter s3
    let there := (s4.colls.flatMap fun c => (c.parts.filter fun p => p.die == die && !p.done).map fun p => (c.id, p.rank))
    let s5 := there.foldl (fun s k => partFail s k.1 k.2 3) s4
    let s6 := (allParts s5).foldl (fun s k => match (s.coll? k.1).bind fun c => (c.part? k.2).map fun p => (c, p) with
      | some (c, p) => loseRanks s c p ((there.filter (·.1 == c.id)).map (·.2))
      | none => s) s5
    let s7 := gwLost (collLost s6 s6.dev.dev (some die)) s6.dev.dev (some die)
    let s8 := (s7.green.filter fun e => e.die == die && e.state == 1).foldl (fun s e => gwRelease s e.vf (gwHandle s e) 0x302) s7
    { s8 with green := s8.green.filter (·.die != die) }

/-- DIE_ISOLATION (R213, R297). -/
def execDieIsolation (die : Nat) (s : State) : Host.Outcome State Fault Refusal := .next (isolateDie s die)

/-- The die boundaries of a die by the indices of R328. -/
def boundariesOf (die : Nat) : List Nat :=
  (24 + die / 2) :: ((if die < 2 then [] else [28 + (die - 2)]) ++ (if 6 ≤ die then [] else [28 + die]))

/-- DIE_BOUNDARY_FAILURE (R235): traffic goes around the failed boundary in order; only a die with no working boundary is isolated. -/
def execDieBoundaryFailure (boundary : Nat) (s : State) : Host.Outcome State Fault Refusal :=
  .next (if boundary < 24 || 33 < boundary || s.dev.badBoundaries.contains boundary then s
  else
    let s1 := { s with dev := { s.dev with badBoundaries := s.dev.badBoundaries ++ [boundary] } }
    (List.range 8).foldl (fun s d => if (boundariesOf d).all s1.dev.badBoundaries.contains then isolateDie s d else s) s1)

end Sys2Proof.Machine
end

