-- ==== Sys2Proof/Machine/Contexts.lean ====
section
/-! DEFINITION. Meanings: pre-emption, images, restoration, migration, slices (spec/23 R362, R363; spec/24 R369 to R376; spec/25 R380, R387). -/

namespace Sys2Proof.Machine

/-! ### Layouts -/

/-- The scheduler image a function runs under: the pinned version (R387). -/
def schedImage (s : State) (vf : Nat) : Option FwImage :=
  ((s.fn? vf).map (·.schedPin)).bind fun v => s.dev.images.find? fun i => i.kind == 2 && i.version == v

/-- The save layouts a function's scheduler accepts, bit n for layout n (R386); the ROM's own scheduler accepts 1 to 3 (log 34, DESIGN CHOICE). -/
def layoutsOf (s : State) (vf : Nat) : Nat := ((schedImage s vf).map (·.layouts)).getD 14

/-- The newest of a set of layouts, which its image writes (R374). -/
def newestLayout (m : Nat) : Nat := ((List.range 16).filter m.testBit).foldl max 0

/-! ### The end of a context -/

/-- The forwarding entries for crews leave every core, with the registrations nothing needs any more (R362, R378). -/
def dropForwards (s : State) (p : FwdEntry → Bool) : State :=
  let cut (c : Core) : Core := { c with fwd := c.fwd.filter fun e => !p e }
  let s1 := { s with cores := s.cores.map cut }
  let gone (r : Nat × Nat) : Bool :=
    (s.core r.2).fwd.any (fun e => p e && e.lines.contains r.1) &&
    !((s1.core r.2).wake.any (·.line == r.1) || (s1.core r.2).fwd.any (·.lines.contains r.1))
  { s1 with registrations := s.registrations.filter fun r => !gone r }

/-- An entry of a channel ends with KILLED (R161, R378). -/
def killEntry (s : State) (chan : Nat) (e : ChanEntry) : State :=
  match e.kind with
  | .copy d => copyEnd s chan e d 6
  | .join _ => dropEntry s chan e.id

/-- The engine work a discarded image holds ends with KILLED (R161, R378). -/
def dropImageWork (s : State) (i : Image) : State :=
  let s1 := i.entries.foldl (fun s e => killEntry s e.1 e.2) s
  (i.cores.flatMap (·.mxq)).foldl (fun s o => reportWaiter s o.waiter 6 o.op) s1

/-- A context is killed (R161, R191, R298, R368, R371, R374): its image is discarded, its held sends end, every node of its graphs that is not final breaks,
its copies end with KILLED, every grid of its address space ends with a code. -/
def killCtx (s : State) (asid code : Nat) : State :=
  match s.ctx? asid with
  | none => s
  | some c =>
    let s1 := s.setCtx asid fun c => { c with state := .running, image := none }
    let s2 := dropForwards s1 fun e => e.asid == asid
    let held (x : Send) : Bool := x.asid == asid && decide (x.state = .held)
    let s3 := { s2 with sends := s2.sends.filter (!held ·) }
    let gs := (s3.graphs.filter (·.asid == asid)).map (·.id)
    let s4 := gs.foldl (fun s g => graphEval (breakAll s g code) g) s3
    let s5 := match c.image with
      | some i => dropImageWork s4 i
      | none => s4
    let live := s5.channels.flatMap fun ch => (ch.entries.filter (·.asid == asid)).map fun e => (ch.num, e)
    let s6 := live.foldl (fun s e => killEntry s e.1 e.2) s5
    ((s6.grids.filter (·.asid == asid)).map (·.id)).foldl (fun s g => killGrid s g code) s6

/-! ### Halting -/

/-- The packet whose work asks for cores with the highest priority (R37, R371): its identifier, 0 where none does. -/
def requester (s : State) (asid : Nat) : DWord :=
  let prio (p : Packet) : Nat := ((s.queue? p.queue).map (effOf s)).getD 0
  let ask (p : Packet) : Bool := s.grids.any fun g => g.asid != asid && g.nextCrew.isSome && decide (g.src = .packet p.id)
  let ps := s.packets.filter ask
  let top := (ps.map prio).foldl max 0
  ((ps.find? fun p => prio p == top).map (·.op)).getD 0

/-- PREEMPT_HALT (R369, R371): the context's cohorts issue no more from here on; further requests merge. -/
def execPreemptHalt (ctx reason : Nat) (s : State) : Host.Outcome State Fault Refusal :=
  .next (match s.ctx? ctx with
    | none => s
    | some c =>
      if decide (c.state ≠ .running) || reason == 0 || 3 < reason then s
      else
        let m := mint s 0
        emit (m.2.setCtx ctx fun c => { c with state := .halting, preOp := m.1 }) fwSrc 0x0902 m.1
          (if reason == 1 then requester s ctx else 0) reason c.vf)

/-! ### Saving -/

/-- The fibres of a context. -/
def ctxFibres (s : State) (asid : Nat) : List Fibre := s.fibres.filter fun f => s.fibreAsid f == asid

/-- The cores whose records a context saves (R370): those that hold crews or engine work of it, or bytes in their stores. -/
def ctxCores (s : State) (asid : Nat) : List Core :=
  s.cores.filter fun c => c.ctx == some asid && (coreBusy s c.num || !c.bstore.isEmpty || !c.acc.isEmpty)

/-- An access of a context that a save waits for (R370): of its fibres; a store to an aperture that awaits room is withdrawn, one that a migration holds is
saved (R274). -/
def saveWaits (s : State) (asid : Nat) (a : Access) : Bool :=
  a.asid == asid && decide (a.resp ≠ .held) &&
  (match a.agent with
   | .fibre _ => !(match apertureStore s a with | some (chan, _, _) => !chanRoom s chan | none => false)
   | _ => false)

/-- Whether what a context has issued has landed (R110, R139, R155, R370). -/
def drained (s : State) (asid : Nat) : Bool :=
  let fs := ctxFibres s asid
  !(s.accesses.any (saveWaits s asid)) && fs.all (fun f => f.copies.isEmpty) &&
  !(s.owed.any fun o => o.isTime && fs.any fun f => f.id == o.fibre) &&
  s.channels.all fun c => c.entries.all fun e =>
    e.asid != asid || e.outstanding.all fun r => !(s.accesses.any (·.ref == r))

/-- What remains of a time, in microseconds rounded up (R373) (log 92, DEDUCED). -/
def remaining (s : State) (d : Nat) : Nat := ceilDiv (d - s.time.dtc) (usTicks 1)

/-- A fibre's status in its record (R373): a timeout is what remains of it. -/
def savedStatus (s : State) : FStatus → FStatus
  | .waitSig w => .waitSig { w with deadline := w.deadline.map (remaining s) }
  | .waitHandle w => .waitHandle { w with deadline := w.deadline.map (remaining s) }
  | x => x

/-- Nothing outside the image awaits anything for a saved fibre any more. -/
def leaveWaits (s : State) (f : Fibre) : State :=
  let s1 := waitEnd (sigwLeave s f.id) f.id
  { s1 with gwQueries := s1.gwQueries.filter fun q => !(q.wait && q.dev.isNone && q.fibre == f.id) }

/-- The forwarding entries that a save leaves on a core, one for each crew it saved there (R362). -/
def forwards (c : Ctx) (fs : List Fibre) (crews : List Crew) (core : Nat) : List FwdEntry :=
  (crews.filter (·.core == core)).map fun k =>
    { crew := k.id, asid := c.asid, vf := c.vf, dst := none, since := none, op := 0,
      lines := distinct (fs.filterMap fun f => match f.status with
        | .waitWake w => if f.crew == k.id then some w.line else none
        | _ => none),
      held := [] }

/-- A core after its record has been saved: it holds nothing of the context (R370). -/
def clearedCore (c : Core) (fwd : List FwdEntry) : Core :=
  { Core.idle c.num with boundary := c.boundary, fwd := fwd, outOfService := c.outOfService }

/-- The accesses of a context that a migration holds (R274). -/
def heldAccesses (s : State) (asid : Nat) : List Access :=
  s.accesses.filter fun a => a.asid == asid && decide (a.resp = .held) && ((a.owner.bind s.fibre?).map fun f => s.fibreAsid f == asid).getD false

/-- Their lanes are saved as parked with STALE_GEN (R132, R274). -/
def parkHeld (s : State) (asid : Nat) : State :=
  (heldAccesses s asid).foldl
    (fun s a => match a.owner.bind s.fibre? with
      | none => s
      | some f => match f.status with
        | .replay rs => if rs.contains a.ref then s else replayPark s f a.ref
        | _ => replayPark s f a.ref) s

/-- A copy entry as it is saved: it runs again from its first byte (R162); one that found its lease gone has ended. -/
def savedEntry (e : ChanEntry) : ChanEntry := if e.status == 4 then e else { e with row := 0, status := 0, outstanding := [] }

/-- CTX_SAVED (R370 to R373): once everything has drained the image is written, the cores are free, and forwarding entries stand (R362) (log 89, DESIGN CHOICE). -/
def saveCtx (s0 : State) (c : Ctx) : State :=
  let cores := ctxCores s0 c.asid
  let banks := s0.drowsy.filter fun d => cores.any (·.num == d.1)
  let p := parkHeld (banks.foldl (fun s d => wakeBanks s d.1 d.2.1 [d.2.2]) s0) c.asid
  let held := heldAccesses p c.asid
  let s := { p with accesses := p.accesses.filter fun a => !held.any (·.ref == a.ref) }
  let fs := ctxFibres s c.asid
  let crews := s.crews.filter fun k => ((s.grid? k.grid).map (·.asid)) == some c.asid
  let cores := ctxCores s c.asid
  let entries := s.channels.flatMap fun ch => (ch.entries.filter (·.asid == c.asid)).map fun e => (ch.num, savedEntry e)
  let saved (f : Fibre) : Fibre := { f with status := savedStatus s f.status }
  let layout := newestLayout (layoutsOf s c.vf)
  let img : Image :=
    { layout := layout, digestOk := true, gen := c.gen, cor := s.grids.any (fun g => g.asid == c.asid && g.coresident && crews.any (·.grid == g.id)),
      cid := c.preOp, dtc := s.time.dtc, crews := crews, fibres := fs.map saved,
      cores := cores.map (fun k => { k with l1 := [], fwd := [] }), entries := entries, accesses := held }
  let s1 := fs.foldl leaveWaits s
  let unset (e : FwdEntry) : FwdEntry := if crews.any (·.id == e.crew) then { e with dst := none } else e
  let leave (k : Core) : Core :=
    let kept := (k.fwd.map unset).filter fun e => !(crews.any fun w => w.id == e.crew && w.core == k.num)
    if k.ctx == some c.asid then clearedCore k (kept ++ forwards c fs crews k.num) else { k with fwd := kept }
  let away (e : ChanEntry) : Bool := e.asid == c.asid
  let cut (ch : Channel) : Channel := { ch with entries := ch.entries.filter fun e => !away e }
  let s2 := { s1 with
    crews := s1.crews.filter (fun k => !crews.any (·.id == k.id)),
    fibres := s1.fibres.filter (fun f => !fs.any (·.id == f.id)),
    cores := s1.cores.map leave, channels := s1.channels.map cut }
  emit (s2.setCtx c.asid fun c => { c with state := .saved, image := some img }) fwSrc 0x0903 c.preOp c.preOp layout c.vf

/-- CTX_SAVED (R371). -/
def execCtxSaved (ctx : Nat) (s : State) : Host.Outcome State Fault Refusal :=
  .next (match s.ctx? ctx with
    | none => s
    | some c => if decide (c.state = .halting) && drained s ctx then saveCtx s c else s)

/-! ### Restoring -/

/-- The core on which the records of a core are restored: itself where the firmware names no other. -/
def newCore (cores : List (Nat × Nat)) (c : Nat) : Nat := ((cores.find? (·.1 == c)).map (·.2)).getD c

/-- Whether an image passes R374. A generation differs from the saved one only after generation changes, which pass (R262). -/
def imageOk (s : State) (c : Ctx) (i : Image) : Bool := (layoutsOf s c.vf).testBit i.layout && i.digestOk

/-- The wake lines of a crew's core record. -/
def imageLines (i : Image) (core : Nat) : List Nat :=
  distinct (i.fibres.filterMap fun f => match f.status with
    | .waitWake w => if i.crews.any (fun k => k.id == f.crew && k.core == core) then some w.line else none
    | _ => none)

/-- Whether the cores that the firmware has chosen offer what an image needs (R208, R375): of its function, idle, each for one record; node scratchpads
stay on their cores (log 91, DESIGN CHOICE). -/
def coresFit (s : State) (c : Ctx) (i : Image) (cores : List (Nat × Nat)) : Bool :=
  let ts := i.cores.map fun k => newCore cores k.num
  (distinct ts).length == ts.length &&
  i.cores.all fun k =>
    let t := newCore cores k.num
    t < 192 && !coreBusy s t && (vfClusters s c.vf).contains (coreCluster t) && !s.dev.lostDies.contains (coreDie t) &&
    !(s.core t).outOfService && (k.nodeScr.isEmpty || t == k.num) && (imageLines i k.num).length ≤ 16

/-- The channel in which a saved entry is entered again (R370): the same, of its crew's cluster now. -/
def newChan (i : Image) (cores : List (Nat × Nat)) (x : Nat × ChanEntry) : Nat :=
  match x.2.crew.bind fun k => i.crews.find? (·.id == k) with
  | some k => 4 * coreCluster (newCore cores k.core) + x.1 % 4
  | none => x.1

/-- Enter a saved entry again, ahead of every new one (R370): behind those that have started (log 94, DEDUCED). -/
def reenter (s : State) (i : Image) (cores : List (Nat × Nat)) (x : Nat × ChanEntry) : State :=
  let e := { x.2 with core := if x.2.crew.isSome then newCore cores x.2.core else x.2.core }
  s.setChannel (newChan i cores x) fun ch =>
    let old := ch.entries.takeWhile fun y => y.started || i.entries.any (·.2.id == y.id)
    { ch with entries := old ++ [e] ++ ch.entries.drop old.length }

/-- A wait on a line at restoration (R188, R363): armed again, and compared with a read at its home; one whose page is not there ends with
CHANGED (log 93, DEDUCED). -/
def rearm (s : State) (f : Fibre) (w : WakeWait) (old : Nat) : State :=
  let core := s.fibreCore f
  match translateWalk s (s.fibreVf f) (s.fibreAsid f) w.va.toNat .read with
  | .ok spa none =>
    let line := homeByte s spa / 64
    (match readAt s spa 8, wakeArm (s.core core) line (s.fibreAsid f) f.id with
     | .error c, _ => park s f.id ⟨c, f.pc, f.pc, w.va, 1, false⟩
     | .ok bs, some k =>
       let s1 := (s.setCore core fun _ => k).setFibre f.id fun g =>
         { g with status := .waitWake { w with arm := s.nextId, line := line },
                  frontier := stampMerge g.frontier (stampOf s ((List.range 8).map (homeByte s spa + ·))) }
       let s2 := waitBegin (fresh s1).2 f 4 line
       let s3 := if line == w.line && old != core then
           if s2.moves.contains (line, old, core) then s2 else { s2 with moves := s2.moves ++ [(line, old, core)] }
         else wakeRegister s2 line core
       if BitVec.ofNat 64 (bytesNat bs) != w.expected then newCohort (wakeOne s3 core f.id 1) [f.id] else s3
     | .ok _, none => newCohort (wakeOne s core f.id 1) [f.id])
  | _ => newCohort (wakeOne s core f.id 1) [f.id]

/-- A wait on a signal at restoration: it evaluates again at once (R184). -/
def rewatch (s : State) (f : Fibre) (w : SigWait) : State :=
  let place : Nat × Option Nat := match translateWalk s (s.fibreVf f) (s.fibreAsid f) w.va.toNat .read with
    | .ok spa dev => (spa, dev)
    | _ => (w.spa, w.dev)
  let x := { w with spa := place.1, dev := place.2, deadline := w.deadline.map fun u => s.time.dtc + usTicks u }
  let s1 := setWait s f (.waitSig x) 3 (x.spa % 2 ^ 49 + 2 ^ 52 * x.dev.getD 0)
  if x.dev.isNone then { s1 with notifs := s1.notifs ++ [.fibre f.id 0] } else rereadSignal s1 f.id

/-- A wait on a handle at restoration (R194, R370). -/
def reask (s : State) (f : Fibre) (w : HandleWait) : State :=
  let x := { w with ref := s.nextId, deadline := w.deadline.map fun u => s.time.dtc + usTicks u }
  let s1 := setWait { s with nextId := s.nextId + 1 } f (.waitHandle x) 5 w.handle.toNat
  if w.handle.toNat % 256 == 0 && handleDev w.handle != s.dev.dev then gwAsk s1 f w.handle true x.ref
  else
    let a := gwAnswer s w.handle (s.fibreVf f)
    if gwState a == 0 then s1
    else
      goOnAlone (if w.reg == 63 then s1 else s1.setFibre f.id fun g => g.setReg w.reg a) f.id w.next (if gwState a == 1 then 6 else 0)

/-- A restored fibre goes on in its state; its waits evaluate again (R370). `old`: the core it was saved from. -/
def restoreWait (s : State) (f : Fibre) (old : Nat) : State :=
  match f.status with
  | .waitWake w => rearm s f w old
  | .waitSig w => rewatch s f w
  | .waitHandle w => reask s f w
  | .waitBar n => waitBegin s f 1 n
  | .waitGbar g => waitBegin s f 2 g
  | .parked p => s.setFibre f.id fun g => { g with status := .parked { p with since := s.time.dtc } }
  | _ => s

/-- Forwarding entries learn where their crews are now (R362) (log 96, DEDUCED). -/
def redirect (s : State) (c : Ctx) (i : Image) (cores : List (Nat × Nat)) : State :=
  let put (e : FwdEntry) : FwdEntry :=
    match i.crews.find? (·.id == e.crew) with
    | some k => { e with dst := some (newCore cores k.core), since := some (e.since.getD s.time.dtc), op := c.preOp }
    | none => e
  let step (k : Core) : Core := { k with fwd := k.fwd.map put }
  { s with cores := s.cores.map step }

/-- A saved core record on its new core (R370): stores, counters and matrix queue are back, L1 is empty, both stores were zeroed before (R231). -/
def loadCore (s : State) (asid : Nat) (k : Core) (t : Nat) : State :=
  s.setCore t fun c =>
    { k with num := t, ctx := some asid, l1 := [], wake := [], fwd := c.fwd, outOfService := c.outOfService }

/-- A fibre as it is restored (R224, R374): no duplicates; layouts below 3 hold no parity, which is formed afresh. -/
def restored (i : Image) (f : Fibre) : Fibre := { f with dup := [], badParity := if i.layout < 3 then [] else f.badParity }

/-- An image is loaded (R374, R375); held accesses are presented again (R274), joins whose entries have completed leave (R302). -/
def restoreCtx (s : State) (c : Ctx) (i : Image) (cores : List (Nat × Nat)) : State :=
  let moved (k : Crew) : Crew := { k with core := newCore cores k.core }
  let s1 := i.cores.foldl (fun s k => loadCore s c.asid k (newCore cores k.num)) s
  let s2 := { s1 with crews := s1.crews ++ i.crews.map moved, fibres := s1.fibres ++ i.fibres.map (restored i), accesses := s1.accesses ++ i.accesses }
  let s3 := (List.range 16).foldl (fun s k => joinEntries k 260 s) (i.entries.foldl (fun s x => reenter s i cores x) s2)
  let s4 := redirect (s3.setCtx c.asid fun c => { c with state := .running, image := none }) c i cores
  let s5 := i.fibres.foldl
    (fun s f => restoreWait s (restored i f) (((i.crews.find? (·.id == f.crew)).map (·.core)).getD 0)) s4
  let s6 := emit s5 fwSrc 0x0904 c.preOp c.preOp i.layout c.vf
  ((s6.grids.filter fun g => g.asid == c.asid && g.killed.isSome).map fun g => (g.id, g.killed.getD 2)).foldl
    (fun s g => killGrid s g.1 g.2) s6

/-- CTX_RESTORED (R371, R374, R375): the firmware has chosen a core for each core record; an image that fails R374 kills the context. -/
def execCtxRestored (ctx : Nat) (cores : List (Nat × Nat)) (s : State) : Host.Outcome State Fault Refusal :=
  .next (match s.ctx? ctx with
    | none => s
    | some c =>
      match c.image with
      | none => s
      | some i =>
        if !imageOk s c i then killCtx s ctx 6
        else if coresFit s c i cores then restoreCtx s c i cores
        else s)

/-! ### Forwarding -/

/-- The first item a core holds for a crew whose new core is another. -/
def heldItem (c : Core) : Option (FwdEntry × Nat × Nat × DWord) :=
  c.fwd.findSome? fun e =>
    match e.dst, e.held with
    | some t, (line, op) :: _ => some (e, t, line, op)
    | _, _ => none

/-- MIGRATE_FWD (R362): the old core sends on an item that it holds for a crew that has moved; one for a crew that is back is delivered here. -/
def execMigrateFwd (core : Nat) (s : State) : Host.Outcome State Fault Refusal :=
  .next (match heldItem (s.core core) with
    | none => s
    | some (e, t, line, op) =>
      let take (x : FwdEntry) : FwdEntry := if x.crew == e.crew then { x with held := x.held.drop 1 } else x
      let s1 := s.setCore core fun c => { c with fwd := c.fwd.map take }
      let s2 := { (fresh s1).2 with wakes := s1.wakes ++ [⟨(fresh s1).1, t, line, op, none⟩] }
      if t == core then s2 else emit s2 (coreSrc core) 0x0905 op e.op t e.vf)

/-- FORWARD_ENTRY_REMOVAL (R362): 1 ms after CTX_RESTORED; what it still holds is discarded. -/
def execForwardEntryRemoval (core crew : Nat) (s : State) : Host.Outcome State Fault Refusal :=
  .next (match (s.core core).fwd.find? (·.crew == crew) with
    | none => s
    | some e =>
      match e.since with
      | none => s
      | some t =>
        if s.time.dtc < t + usTicks 1000 then s
        else
          let s1 := s.setCore core fun c => { c with fwd := c.fwd.filter (·.crew != crew) }
          let k := s1.core core
          { s1 with registrations := s1.registrations.filter fun r =>
              !(r.2 == core && e.lines.contains r.1 && !(k.wake.any (·.line == r.1)) && !(k.fwd.any (·.lines.contains r.1)) &&
                !(s1.moves.any fun m => m.1 == r.1 && m.2.1 == core)) })

/-- MOVE (R363): the home registers the new core for a line in place of the old; an old core with an armed entry of its own stays. -/
def execMoveReg (line fromCore toCore : Nat) (s : State) : Host.Outcome State Fault Refusal :=
  .next (if !s.moves.contains (line, fromCore, toCore) then s
    else
      let armed := (s.core fromCore).wake.any (·.line == line)
      let s1 := { s with moves := s.moves.erase (line, fromCore, toCore),
                         registrations := s.registrations.filter fun r => armed || r != (line, fromCore) }
      if (s1.core toCore).wake.any (·.line == line) || (s1.core toCore).fwd.any (·.lines.contains line) then wakeRegister s1 line toCore
      else s1)

/-! ### Slices -/

/-- What stands at a slice boundary of a function (R376, R380): its slice begins anew, and a plug-in's call answers a quantum within the limits of R38, a
free value. The order that it answers decides only which context the firmware chooses next (log 4, DESIGN CHOICE). -/
def sliceBoundary (s : State) (f : Fn) : State :=
  let c := choose s 9991
  if f.pluginPin == 0 then s.setFn f.vf fun x => { x with sliceAt := s.time.dtc }
  else c.2.setFn f.vf fun x => { x with sliceAt := s.time.dtc, quantum := 10 + c.1 }

/-- Whether a function's slice has run out. -/
def sliceOver (s : State) (f : Fn) : Bool := f.sliceAt + usTicks f.slice ≤ s.time.dtc

/-- SLICE_END (R376): a slice ends; a world switch may follow as PREEMPT_HALT and CTX_RESTORED. -/
def execSliceEnd (vf : Nat) (s : State) : Host.Outcome State Fault Refusal :=
  .next (match s.fn? vf with
    | none => s
    | some f => if sliceOver s f then sliceBoundary s f else s)

/-- PLUGIN_CALL_TIMEOUT (R380): at a slice boundary the call of the function's plug-in runs longer than 20 microseconds: the default order is used,
and the failure counted. -/
def execPluginCallTimeout (vf : Nat) (s : State) : Host.Outcome State Fault Refusal :=
  .next (match s.fn? vf with
    | none => s
    | some f =>
      if f.pluginPin == 0 || !sliceOver s f then s
      else s.setFn vf fun x => { x with sliceAt := s.time.dtc, pluginFails := x.pluginFails + 1 })

end Sys2Proof.Machine
end

