-- ==== Sys2Proof/Machine/Green.lean ====
section
/-! DEFINITION. Meanings of the greenware tables: messages, fires and cracks, retries, retention, lost origins (spec/21 R346 to R348; spec/22 R353
to R359). -/

namespace Sys2Proof.Machine

/-! ### Messages at an entry -/

/-- The function of this device that runs an invocation: the one with its partition key (R353). -/
def msgVf (s : State) (i : Invocation) : Nat := (keyFn s i.pkey).getD i.vf

/-- The sender's record of a message that has not been taken. -/
def pendingOf (s : State) (dst : DWord) (i : Invocation) (dep : Bool) : Option GwRetry :=
  s.gwRetry.find? fun r => r.dst == dst && r.inv.handle == i.handle && r.dep == dep

/-- The device of the sending table: the message's own origin, or its argument's once that has fired. -/
def senderDev (i : Invocation) (dep : Bool) : Nat := if dep || i.argh == 0 then handleDev i.handle else handleDev i.argh

/-- The die of the sending table. -/
def senderDie (i : Invocation) (dep : Bool) : Nat := if dep || i.argh == 0 then handleDie i.handle else handleDie i.argh

/-- The sender learns that its message has been taken (R355). -/
def tellTaken (s : State) (dst : DWord) (i : Invocation) (dep : Bool) : State :=
  match pendingOf s dst i dep with
  | some r => gwTaken s r
  | none => if senderDev i dep == s.dev.dev then s else gwSend s i.vf (senderDev i dep) (senderDie i dep) dst (.accepted dst i.handle)

/-- The sender learns that there is no room (R355). -/
def tellBusy (s : State) (dst : DWord) (i : Invocation) (dep : Bool) : State :=
  match pendingOf s dst i dep with
  | some r =>
    let refuse (x : GwRetry) : GwRetry := { x with refused := true }
    { s with gwRetry := mapIf (·.ref == r.ref) refuse s.gwRetry }
  | none => if senderDev i dep == s.dev.dev then s else gwSend s i.vf (senderDev i dep) (senderDie i dep) dst (.busy dst i dep)

/-- The entry that takes a message, or none where the message names a stale or foreign handle (R354): the sender is the function SVF names (log 152,
DEDUCED). -/
def takingEntry (s : State) (dst : DWord) (i : Invocation) : Option GwEntry :=
  match gwCurrent s dst with
  | some e => if handleVfb dst == i.vf % 256 && e.vf == i.vf && handleDev dst == s.dev.dev then some e else none
  | none => none

/-- A message or a dependant reaches an entry (R354). -/
def atEntry (s : State) (dst : DWord) (i : Invocation) (dep : Bool) : State :=
  match takingEntry s dst i with
  | none => tellTaken (gwCrackOwn s i.vf i.handle 7 0) dst i dep
  | some e =>
    if e.state == 1 then
      (if 16 ≤ (if dep then e.deps else e.queue).length then tellBusy s dst i dep
       else tellTaken (s.setGw e.die e.idx fun e => if dep then { e with deps := e.deps ++ [i] } else { e with queue := e.queue ++ [i] }) dst i dep)
    else if e.state == 2 then
      (if dep then tellTaken (gwGoOn s e.die i) dst i dep
       else tellTaken (gwForward s e e.ldev e.ldie i) dst i dep)
    else tellTaken (gwCrackOwn s e.vf i.handle 4 e.op) dst i dep

/-! ### Runs at the target -/

/-- An invocation starts at its target (R353): its image runs as a grid of the function with its key, or its handle cracks (log 90, DEDUCED). -/
def startRun (s : State) (die : Nat) (i : Invocation) : State :=
  match s.fn? (msgVf s i) with
  | none => gwCrackOwn s i.vf i.handle 2 0
  | some f =>
    if !((keyFn s i.pkey).isSome || handleDev i.handle == s.dev.dev) then gwCrackOwn s i.vf i.handle 2 0
    else
      match devNat s f.vf f.asid i.image 64 with
      | .error _ => gwCrackOwn s i.vf i.handle 2 0
      | .ok img =>
        if i.image.toNat % 64 != 0 || kernelImgBad img then gwCrackOwn s i.vf i.handle 7 0
        else
          let m := mint s die
          match makeGrid m.2 (.invoked i.handle die) m.1 f.vf f.asid img 255 false false false with
          | .error c => gwCrackOwn s i.vf i.handle (if c == 2 then 2 else 7) 0
          | .ok g =>
            if !couldHold s g then gwCrackOwn s i.vf i.handle 7 0
            else { m.2 with grids := m.2.grids ++ [g], nextId := m.2.nextId + 1,
                            gwRuns := m.2.gwRuns ++ [(i.handle, if i.tk then i.target else 0)] }

/-- Whether an invocation must wait at its target for one forwarded to the same handle before it (R346). -/
def runBehind (s : State) (die : Nat) (i : Invocation) : Bool :=
  let before := s.gwNet.takeWhile fun x => decide (x ≠ (die, .run i))
  i.tk && (s.gwRuns.any (·.2 == i.target) ||
    before.any fun x => match x with
      | (_, .run j) => j.tk && j.target == i.target
      | _ => false)

/-! ### Answers to queries -/

/-- An answer reaches a query of this device (R194). -/
def takeAnswer (s : State) (ref : Nat) (w : Word) : State :=
  match s.gwQueries.find? fun q => q.ref == ref && q.dev.isNone with
  | none => s
  | some q =>
    if q.wait && gwState w == 0 then
      { s with gwQueries := mapIf (·.ref == ref) (fun q => { q with since := none }) s.gwQueries }
    else
      let s1 := { s with gwQueries := s.gwQueries.filter (·.ref != ref) }
      if q.wait then
        match s1.fibre? q.fibre with
        | some f => (match f.status with
          | .waitHandle x =>
            goOnAlone (if x.reg == 63 then s1 else s1.setFibre f.id fun g => g.setReg x.reg w) f.id x.next (if gwState w == 1 then 6 else 0)
          | _ => s1)
        | none => s1
      else
        let fill (o : Owed) : Owed := { o with val := some (w.setWidth 64) }
        { s1 with owed := mapIf (·.ref == ref) fill s1.owed }

/-- A query of another device reaches a table (R194): answered; one of `hwait` on an UNFIRED handle hears again when it is final. -/
def takeQuery (s : State) (h : DWord) (ref vf : Nat) (wait : Bool) (src : Nat) : State :=
  let w := gwAnswer s h vf
  let s1 := gwSend s vf src 0 h (.answer ref w)
  if wait && gwState w == 0 then { s1 with gwQueries := s1.gwQueries ++ [⟨ref, none, 0, h, true, some src⟩] } else s1

/-- A fire at its handle (R354); a stale one does nothing. -/
def fireAt (s : State) (h : DWord) (dev ldie : Nat) (op : DWord) : State :=
  match gwCurrent s h with
  | some e => gwFire s e.die e.idx dev ldie op
  | none => s

/-- A crack at its handle (R354). -/
def crackAt (s : State) (h : DWord) (code : Nat) (op : DWord) : State :=
  match gwCurrent s h with
  | some e => gwCrack s e.die e.idx code op
  | none => s

/-- What a message does where it arrives. -/
def takeGw (s : State) (die : Nat) (m : GwMsg) : State :=
  match m with
  | .queued dst i => atEntry s dst i false
  | .dependant h i => atEntry s h i true
  | .run i => startRun s die i
  | .fire h dev ldie op => fireAt s h dev ldie op
  | .crack h code op => crackAt s h code op
  | .query h ref vf wait src => takeQuery s h ref vf wait src
  | .answer ref w => takeAnswer s ref w
  | .busy dst i dep => tellBusy s dst i dep
  | .accepted dst h => match s.gwRetry.find? fun r => r.dst == dst && r.inv.handle == h with
    | some r => gwTaken s r
    | none => s
  | .located h dev ldie => gwLocate s h dev ldie
  | .packet _ => s

/-- Whether a die's table serves: not on a lost die, nor in Bisque, where entries and messages stay as they are (R391; log 138, DEDUCED). -/
def gwServes (s : State) (die : Nat) : Bool := die < 8 && !s.dev.lostDies.contains die && s.dev.dstate != 2

/-- A message arrives at a die; an invocation behind another for its handle stays on the way (R346). -/
def gwArrive (die : Nat) (m : GwMsg) (s : State) : State :=
  if !gwServes s die then s
  else
    let held := match m with | .run i => runBehind s die i | _ => false
    if held then (if s.gwNet.contains (die, m) then s else { s with gwNet := s.gwNet ++ [(die, m)] })
    else takeGw { s with gwNet := s.gwNet.erase (die, m) } die m

/-- A GW_MSG packet is delivered (R332). -/
def takeGwPkt (s : State) (p : FabPkt) : State :=
  match gwOf p.payload with
  | some x => gwArrive x.1 x.2 s
  | none => s

/-! ### Fires and cracks -/

/-- HANDLE_FIRE (R354): one on its way inside the device, or from another device. -/
def execHandleFire (die index : Nat) (dev ldie : Nat) (op : DWord) (s : State) : Host.Outcome State Fault Refusal :=
  let mine (x : Nat × GwMsg) : Option DWord := match x with
    | (d, .fire h dv ld o) => if d == die && handleIdx h == index && dv == dev && ld == ldie && o == op then some h else none
    | _ => none
  .next (if !gwServes s die then s
    else match s.gwNet.findSome? mine with
      | some h => fireAt { s with gwNet := s.gwNet.eraseP fun x => (mine x).isSome } h dev ldie op
      | none => if dev == s.dev.dev then s else gwFire s die index dev ldie op)

/-- HANDLE_CRACK (R354, R357): codes 1 and 5 are never written. -/
def execHandleCrack (die index : Nat) (code : Nat) (op : DWord) (s : State) : Host.Outcome State Fault Refusal :=
  let mine (x : Nat × GwMsg) : Option DWord := match x with
    | (d, .crack h c o) => if d == die && handleIdx h == index && c == code && o == op then some h else none
    | _ => none
  .next (if !gwServes s die then s
    else match s.gwNet.findSome? mine with
      | some h => crackAt { s with gwNet := s.gwNet.eraseP fun x => (mine x).isSome } h code op
      | none => gwCrack s die index (crackCode code) op)

/-! ### Time -/

/-- GREEN_RETRY (R355): the oldest refused message of a table for a handle is sent again, every 2 µs. -/
def execGreenRetry (die : Nat) (handle : DWord) (s : State) : Host.Outcome State Fault Refusal :=
  .next (match s.gwRetry.find? fun r => r.die == die && r.dst == handle with
    | some r => if r.refused && gwServes s die && r.since + usTicks 2 ≤ s.time.dtc then gwResend s die handle else s
    | none => s)

/-- An entry becomes FREE at a time and its generation goes up (R350, R354). -/
def gwEntryFree (now : Nat) (e : GwEntry) : GwEntry :=
  { e with state := 0, code := 0, whenDtc := now, gen := if e.gen == 65535 then 1 else e.gen + 1, queue := [], deps := [] }

/-- RETENTION_END (R354, R356). -/
def execRetentionEnd (die index : Nat) (s : State) : Host.Outcome State Fault Refusal :=
  let e := s.gwEntry die index
  let keep := ((s.fn? e.vf).map (·.retention)).getD 1000000
  .next (if 2 ≤ e.state && e.queue.isEmpty && e.deps.isEmpty && e.whenDtc + usTicks keep ≤ s.time.dtc then s.setGw die index (gwEntryFree s.time.dtc)
    else s)

/-- GREEN_ORIGIN_TIMEOUT (R358): no answer for 200 µs: a query gets CRACKED with DIE_LOST, a message cracks its own handle. -/
def execGreenOriginTimeout (ref : Nat) (s : State) : Host.Outcome State Fault Refusal :=
  .next (match s.gwQueries.find? fun q => q.ref == ref && q.dev.isNone with
    | some q => (match q.since with
      | some t => if s.time.dtc < t + usTicks 200 then s else takeAnswer s ref 0x302
      | none => s)
    | none =>
      match s.gwRetry.find? (·.ref == ref) with
      | some r => if r.refused || s.time.dtc < r.since + usTicks 200 then s else gwTaken (gwCrackOwn s r.inv.vf r.inv.handle 3 0) r
      | none => s)

end Sys2Proof.Machine
end

