-- ==== Sys2Proof/Machine/FabricIn.lean ====
section
/-! DEFINITION. Meanings: fabric packets that arrive, their timeouts, flits and links, lost devices (spec/20 R328 to R338; spec/25 R394). -/

namespace Sys2Proof.Machine

/-! ### Packets -/

/-- RESP_DATA (R332): the value of a read or an atomic goes to its request. -/
def takeRespData (s : State) (p : FabPkt) : State :=
  match requestOf s p with
  | some r => takeData1 s r p
  | none => s

/-- A notice to a waiter in `sigw` (R184, R338): a value it has already been sent is seen first, then the signal is read again. -/
def takeNotice (s : State) (r : RemoteReq) : State :=
  match r.use with
  | .watch f =>
    let s1 := closeRequest s r
    rereadSignal (match s1.accesses.find? fun a => decide (isWaitRead s1 a = some f) with
      | some a => landResponse s1 a
      | none => s1) f
  | _ => s

/-- RESP_ACK (R338), or a notice, which carries the operation of the wait's read (log 25, DESIGN CHOICE). -/
def takeRespAck (s : State) (p : FabPkt) : State :=
  match requestOf s p with
  | some r => if p.homeOp = .sigRead true then takeNotice s r else takeAck s r
  | none => s

/-- RESP_ERR (R337): the fault code stands in the first two bytes. -/
def takeRespErr (s : State) (p : FabPkt) : State :=
  match requestOf s p with
  | some r => takeErr s r (bytesNat (p.payload.take 2))
  | none => s

/-- What a packet does that its port delivers in sequence (R332). Management packets have been served on arrival. -/
def deliver (s : State) (p : FabPkt) : State :=
  let o := p.op.toNat
  if o == 1 || o == 2 || o == 3 || o == 4 then serveRequest s p
  else if o == 5 then takeRespData s p
  else if o == 6 then takeRespAck s p
  else if o == 7 then takeRespErr s p
  else if o == 0x10 then serveInc s p
  else if o == 0x11 || o == 0x13 then takeCollPkt s p
  else if o == 0x12 then takeCollRed s p
  else if o == 0x20 then takeGwPkt s p
  else s

/-- A packet of one operation arrives (R330, R332); one that the port drops counts for any. In Bisque the fabric is out of service (R391). -/
def arrive (op : Nat) (s : State) (p : FabPkt) : Host.Outcome State Fault Refusal :=
  .next (if (p.op.toNat == op || pktBad p) && s.dev.dstate != 2 then recvPkt deliver s p else s)

/-- READ (R337). -/
def execFabRead (p : FabPkt) (s : State) : Host.Outcome State Fault Refusal := arrive 1 s p

/-- WRITE (R337). -/
def execFabWrite (p : FabPkt) (s : State) : Host.Outcome State Fault Refusal := arrive 2 s p

/-- WRITE_WAKE (R338): its data, then the wake. -/
def execFabWriteWake (p : FabPkt) (s : State) : Host.Outcome State Fault Refusal := arrive 3 s p

/-- ATOMIC (R337). -/
def execFabAtomic (p : FabPkt) (s : State) : Host.Outcome State Fault Refusal := arrive 4 s p

/-- RESP_DATA (R332). -/
def execRespData (p : FabPkt) (s : State) : Host.Outcome State Fault Refusal := arrive 5 s p

/-- RESP_ACK (R338). -/
def execRespAck (p : FabPkt) (s : State) : Host.Outcome State Fault Refusal := arrive 6 s p

/-- RESP_ERR (R337). -/
def execRespErr (p : FabPkt) (s : State) : Host.Outcome State Fault Refusal := arrive 7 s p

/-- CTR_INC (R192). -/
def execCtrInc (p : FabPkt) (s : State) : Host.Outcome State Fault Refusal := arrive 0x10 s p

/-- COLL_DATA (R342). -/
def execCollData (p : FabPkt) (s : State) : Host.Outcome State Fault Refusal := arrive 0x11 s p

/-- COLL_RED (R343). -/
def execCollRed (p : FabPkt) (s : State) : Host.Outcome State Fault Refusal := arrive 0x12 s p

/-- COLL_MCAST (R343). -/
def execCollMcast (p : FabPkt) (s : State) : Host.Outcome State Fault Refusal := arrive 0x13 s p

/-- GW_MSG (R332, R353, R354): a message arrives at a table of this device, or a packet of another device at its port. -/
def execGwMsg (die : Nat) (m : GwMsg) (s : State) : Host.Outcome State Fault Refusal :=
  match m with
  | .packet p => arrive 0x20 s p
  | _ => .next (gwArrive die m s)

/-! ### Timeouts -/

/-- FAB_TIMEOUT (R337, R344): a request has had no response for 200 µs; a collective's message shows its device lost. -/
def execFabTimeout (tag : Nat) (s : State) : Host.Outcome State Fault Refusal :=
  .next (match s.remote.find? (·.tag == tag) with
    | none => s
    | some r =>
      if !r.open || s.time.dtc < r.since + usTicks 200 then s
      else if r.use = .coll then collLost (closeRequest s r) r.dev none
      else takeErr s r 0xA0)

/-- SEQ_GAP_TIMEOUT (R330): a gap has stood for 100 µs: the buffered packets are refused, and the stream goes on from the next SEQ. A response cannot be
answered; its request runs into its own timeout. -/
def execSeqGapTimeout (src plane : Nat) (s : State) : Host.Outcome State Fault Refusal :=
  let r := s.reorderOf src plane
  .next (if r.held.isEmpty || s.time.dtc < r.since + usTicks 100 then s
    else (r.held.filter fun p => p.vc != 1).foldl (fun s p => sendRefusal s p 0xA1)
      (s.setReorder src plane fun r => { r with next := none, held := [] }))

/-- A device or a die is lost (R394): handles crack, ranks are lost, later accesses to the device time out at once. A die of this device is lost with
its work (R213). -/
def loseDevice (s : State) (dev : Nat) (die : Option Nat) : State :=
  let s1 := collLost (gwLost s dev die) dev die
  match die with
  | none => { s1 with dev := { s1.dev with lostDevs := if s1.dev.lostDevs.contains dev then s1.dev.lostDevs else s1.dev.lostDevs ++ [dev] } }
  | some d => if dev == s.dev.dev then isolateDie s1 d else s1

/-- LOST (R394). -/
def execLost (dev : Nat) (die : Option Nat) (s : State) : Host.Outcome State Fault Refusal := .next (loseDevice s dev die)

/-! ### Links -/

/-- Every unacknowledged flit is sent again as it was, and the retry timer starts anew (R333). -/
def resend (s : State) (n : Nat) : State :=
  { (s.setPort n fun p => { p with timer := s.time.dtc }) with outbox := s.outbox ++ (s.port n).retry.map fun f => Out.flit n f.2 }

/-- The link's retry timer at a width (R336): 2 µs x 8 / W. -/
def retryTimer (lanes : Nat) : Nat := usTicks (16 / lanes)

/-- LINK_RETRY_TIMEOUT (R333, R336): the retry timer has run out without progress. -/
def execLinkRetryTimeout (port : Nat) (s : State) : Host.Outcome State Fault Refusal :=
  .next (if (s.port port).lanes == 0 || s.time.dtc < (s.port port).timer + retryTimer (s.port port).lanes then s
    else resend s port)

/-- The width comes up anew (R335): LINK_WIDTH, or LINK_DOWN where no two lanes hold; unacknowledged flits go again. -/
def retrain (s : State) (port lanes : Nat) : State :=
  let s1 := s.setPort port fun p => { p with lanes := lanes }
  if lanes == 0 then emit s1 (portSrc port) 0x0A02 0 0 0 0xFFFF
  else pump (resend (emit s1 (portSrc port) 0x0A01 0 0 lanes 0xFFFF) port) port

/-- LINK_WIDTH (R335): a lane is lost or the error rate is too high: from eight lanes to four, from four to two, from two to none. -/
def execLinkWidth (port lanes : Nat) (s : State) : Host.Outcome State Fault Refusal :=
  let w := (s.port port).lanes
  .next (if port < 24 && ((w == 8 && lanes == 4) || (w == 4 && lanes == 2) || (w == 2 && lanes == 0)) then retrain s port lanes else s)

/-- LINK_STEP_UP (R335): every 10 s a narrowed port tries one step back up, which succeeds only if every lane of the wider width passes training. -/
def execLinkStepUp (port : Nat) (passed : Bool) (s : State) : Host.Outcome State Fault Refusal :=
  let w := (s.port port).lanes
  .next (if port < 24 && w < 8 && s.dev.dstate != 2 && (s.port port).tried + usTicks 10000000 ≤ s.time.dtc then
      let t := s.setPort port fun p => { p with tried := s.time.dtc }
      if passed then retrain t port (if w == 0 then 2 else 2 * w) else t
    else s)

/-- FLIT (R333, R334) (log 20, DESIGN CHOICE). -/
def execFlit (port : Nat) (f : FlitW) (intact : Bool) (s : State) : Host.Outcome State Fault Refusal :=
  .next (if port < 24 && (s.port port).lanes != 0 then recvFlit s port f intact else s)

end Sys2Proof.Machine
end

