-- ==== Sys2Proof/Machine/MemEvents.lean ====
section
/-! DEFINITION. Meanings of the memory's own steps and of the firmware's over frames: the boundary, scrubbing, failed channels, generations, residency,
migration, frames that change hands, repair (spec/13 R230, R244 to R247; spec/14 R262; spec/15 R268 to R276; spec/08 R164). -/

namespace Sys2Proof.Machine

/-! ### Core SRAM and HBM -/

/-- BOUNDARY_MOVE (R230): within R228, by at most 64 KiB; toward which size is left open. The lines above a boundary that moves up are discarded; which lines
those are is not stated, so all of them may be: discarding changes no value at a home (R229). -/
def execBoundaryMove (core boundary : Nat) (s : State) : Host.Outcome State Fault Refusal :=
  let c := s.core core
  let top := (scrTaken s core).foldl (fun m r => max m (r.1 + r.2)) 0
  .next (if 192 ≤ core || boundary % 16384 != 0 || 524288 < boundary || boundary < top || topBoundary s core 0 < boundary ||
      c.boundary + 65536 < boundary || boundary + 65536 < c.boundary then s
    else s.setCore core fun c => { c with boundary := boundary, l1 := if c.boundary < boundary then [] else c.l1 })

/-- PATROL_SCRUB (R244): the lines of a granule are read, and what parity can rebuild is corrected; the rest is counted (R323). -/
def execPatrolScrub (stack granule : Nat) (s : State) : Host.Outcome State Fault Refusal :=
  .next (if stack < 16 && granule * 1024 < s.backed then
    (List.range 16).foldl (fun s i => eccNote s [stack * 2 ^ 36 + granule * 1024 + 64 * i]) s else s)

/-- SCRUB_PENDING_ZERO (R275): the scrub engine zeroes a marked granule. -/
def execScrubPendingZero (granule : Nat) (s : State) : Host.Outcome State Fault Refusal := .next (scrubGranule s granule)

/-- A stack as training leaves it. -/
def StackSt.fresh (n : Nat) : StackSt := { num := n, failed := none, cursor := 0, lost := [], lossy := false, parityOff := false }

def State.setStack (s : State) (n : Nat) (f : StackSt → StackSt) : State :=
  { s with stackSts := setOr (·.num == n) f (StackSt.fresh n) s.stackSts }

/-- CHANNEL_FAILURE (R245): the firmware retires a channel; the re-layout begins, which unpins the stack's leased lines (R242); without parity frames are lost
(log 62, DESIGN CHOICE). A second failure on a stack, of which the rule says nothing, changes nothing (log 133, DESIGN CHOICE). -/
def execChannelFailure (stack ch : Nat) (s : State) : Host.Outcome State Fault Refusal :=
  .next (if 16 ≤ stack || 32 ≤ ch || ((s.stackSt? stack).bind (·.failed)).isSome then s
    else
      let free (l : Lease) : Lease := { l with unpinned := l.unpinned ++ [stack] }
      { s with leases := s.leases.map free }.setStack stack fun x =>
        { x with failed := some ch, cursor := 0, lossy := !s.hasParity (stack * 2 ^ 36) })

/-- GRANULE_MOVE (R245): the scrub engine moves the granule at the cursor; behind the last one the stack runs without parity. Where a granule's bytes lie is
not part of its offset, so no byte changes. -/
def execGranuleMove (stack : Nat) (s : State) : Host.Outcome State Fault Refusal :=
  .next (match s.stackSt? stack with
    | some x =>
      if x.failed.isSome && x.cursor < s.backed / 1024 then
        s.setStack stack fun x => { x with cursor := x.cursor + 1, parityOff := x.parityOff || x.cursor + 1 == s.backed / 1024 }
      else s
    | none => s)

/-- REFRESH_MANAGEMENT (R247): a row has been refreshed: its count begins anew, and it is throttled no longer. -/
def execRefreshManagement (stack ch row : Nat) (s : State) : Host.Outcome State Fault Refusal :=
  .next { s with throttled := s.throttled.filter (fun r => decide (r ≠ ⟨stack, ch, row⟩))
                 rowActs := s.rowActs.filter fun x => decide (x.1 ≠ ⟨stack, ch, row⟩) }

/-- LEASE_EXPIRE (R164): a lease's time has run out. -/
def execLeaseExpire (lease : Nat) (s : State) : Host.Outcome State Fault Refusal :=
  .next { s with leases := s.leases.filter fun l => l.id != lease || s.time.dtc < l.expiry }

/-! ### Generations -/

/-- The firmware starts no bump while an access carries the previous generation (R262); a home ends what it has begun before it takes the new one. -/
def bumpReady (s : State) (asid : Nat) : Bool :=
  s.accesses.all fun a => a.asid != asid || a.gen == s.gen asid && (decide (a.resp ≠ .none) || a.done == 0 && a.half.isNone)

/-- The same for every address space of a function. -/
def bumpReadyFn (s : State) (vf : Nat) : Bool := (s.ctxs.filter (·.vf == vf)).all fun c => bumpReady s c.asid

/-- GENERATION_BUMP (R262). -/
def execGenerationBump (asid : Nat) (s : State) : Host.Outcome State Fault Refusal := .next (if bumpReady s asid then bumpGen s asid else s)

/-! ### Stage-2 leaves -/

/-- The table of the first entry on the walk of a GPA that is no link to a next table: its address, the entry, its level. -/
def leafPlaceGo (s : State) (gpa : Nat) : Nat → List Nat → Option (Nat × Nat × Nat)
  | _, [] => none
  | tbl, lv :: ls =>
    let at_ := tbl + 8 * tableIndex true lv gpa
    match readAt s at_ 8 with
    | .error _ => none
    | .ok bs =>
      let e := bytesNat bs
      if !e.testBit 0 || e.testBit 1 || badEntry true lv e then some (at_, e, lv) else leafPlaceGo s gpa (pfnOf e) ls

/-- Where a function's stage 2 ends for a GPA: the entry's address, the entry, its level. -/
def leafPlace (s : State) (vf gpa : Nat) : Option (Nat × Nat × Nat) :=
  ((s.fn? vf).bind (·.root2)).bind fun r => leafPlaceGo s gpa r [5, 4, 3, 2, 1]

/-- The firmware writes a table entry at its home. -/
def putEntry (s : State) (at_ e : Nat) : State :=
  (applyWrite s 0 ((List.range 8).map (at_ % 2 ^ 49 + ·)) ((List.range 8).zip (natBytes 8 e)) [] 0).2

/-- A valid leaf of a function's stage 2: its place, the entry, the level. -/
def validLeaf (s : State) (vf gpa : Nat) : Option (Nat × Nat × Nat) :=
  match leafPlace s vf gpa with
  | some (a, e, lv) => if e.testBit 0 && e.testBit 1 && !badEntry true lv e then some (a, e, lv) else none
  | none => none

/-- The entry with another frame number and RES. -/
def entryWith (e pfn : Nat) (res : Bool) : Nat :=
  natBits e 4 0 + (if res then 32 else 0) + natBits e 11 6 * 64 + pfn / 4096 % 2 ^ 40 * 4096 + natBits e 63 52 * 2 ^ 52

/-- A frame of `n` bytes, a multiple of its size, from a function's pool; what is left of the pool (R273). -/
def takeFrame (pool : List (Nat × Nat)) (n : Nat) : Option (Nat × List (Nat × Nat)) :=
  match pool.find? fun f => (f.1 + n - 1) / n * n + n ≤ f.1 + f.2 with
  | none => none
  | some f =>
    let a := (f.1 + n - 1) / n * n
    let left := [(f.1, a - f.1), (a + n, f.1 + f.2 - a - n)].filter (·.2 != 0)
    some (a, pool.filter (· != f) ++ left)

/-- Fill a frame: with a backing's bytes, or with zeros (R273); its lines are written whole (R244). -/
def fillFrame (s : State) (spa n : Nat) (bs : List Byte) : State :=
  let o := spa % 2 ^ 49
  ({ s with mem := memZero s.mem o n, eccBad := s.eccBad.filter fun l => 64 * l < o || o + n ≤ 64 * l,
            scrubMarks := s.scrubMarks.filter fun g => 1024 * g < o || o + n < 1024 * (g + 1) }).putBytes o bs

/-- Whether the frame of a leaf is exported (R337, R403): the firmware leaves it in place. -/
def isExported (s : State) (vf gpa n : Nat) : Bool :=
  ((s.fn? vf).map fun f => f.exports.any fun e => e.1 < gpa + n && gpa < e.1 + e.2).getD false

/-- The firmware's record of what it has assigned to a function, with a range of guest memory taken out. -/
def cutGpa (l : List (Nat × Nat × Nat)) (g n : Nat) : List (Nat × Nat × Nat) :=
  l.flatMap fun a =>
    if a.1 < g + n && g < a.1 + a.2.1 then
      [(a.1, g - a.1, a.2.2), (g + n, a.1 + a.2.1 - (g + n), a.2.2 + (g + n - a.1))].filter (·.2.1 != 0)
    else [a]

/-- The same with the range at a frame. -/
def moveGpa (l : List (Nat × Nat × Nat)) (g n spa : Nat) : List (Nat × Nat × Nat) := cutGpa l g n ++ [(g, n, spa)]

/-! ### Residency -/

/-- The outcome of a residency request: a token, a request that the driver is to answer, or one more leaf to fill. -/
inductive ResStep where
  | token (t : Nat)
  | ask
  | fill (gpa : Nat)
deriving DecidableEq, Repr

/-- The first GPA on the walk of a VA whose stage-2 leaf is not resident, if that is what stops the walk. -/
def stage1Stop (s : State) (vf va : Nat) : Nat → List Nat → ResStep
  | _, [] => .token 1
  | tbl, lv :: ls =>
    let g := tbl + 8 * tableIndex false lv va
    match stage2 s vf g with
    | .error _ => .token 1
    | .ok (e2, _) =>
      if !e2.testBit 5 then .fill g
      else match readEntry1 s vf g with
        | .error _ => .token 1
        | .ok e =>
          if !e.testBit 0 || badEntry false lv e then .token 1
          else if e.testBit 1 then
            (if !e.testBit 5 then .ask
             else match stage2 s vf (leafAddr e lv va) with
              | .error _ => .token 1
              | .ok (l2, _) => if l2.testBit 5 then .token 0 else .fill (leafAddr e lv va))
          else stage1Stop s vf va (pfnOf e) ls

/-- What a request needs next (R273): tokens 0 RESIDENT, 1 XLATE (log 87, DEDUCED). -/
def resNext (s : State) (r : ResReq) : ResStep :=
  match s.ctx? r.asid with
  | none => .token 1
  | some c => stage1Stop s r.vf r.va c.root [5, 4, 3, 2, 1]

/-- The bytes of the page that holds a VA: the smaller of its two leaves, the stage-1 leaf where the second is not reached (R269, R273). -/
def pageBytes (s : State) (vf asid va : Nat) : Nat :=
  match walkBoth s vf asid va with
  | .ok l => min (leafBytes l.lv1) (leafBytes l.lv2)
  | .error _ =>
    match (s.ctx? asid).map fun c => walk1 s vf va c.root [5, 4, 3, 2, 1] with
    | some (.ok (_, lv)) => leafBytes lv
    | _ => 4096

/-- Whether a request is for the page that holds a VA (R273). -/
def ResReq.covers (s : State) (x : ResReq) (vf asid va : Nat) : Bool :=
  x.vf == vf && x.asid == asid && x.va / pageBytes s vf asid va == va / pageBytes s vf asid va

/-- Write the token of every request for a page (R199, R273). -/
def resToken (s : State) (r : ResReq) (t : Nat) : State :=
  let same (x : ResReq) : Bool := x.covers s r.vf r.asid r.va
  let refs := (s.resReqs.filter same).map (·.ref)
  let fill (o : Owed) : Owed := if refs.contains o.ref then { o with val := some (BitVec.ofNat 64 t) } else o
  { s with resReqs := s.resReqs.filter (!same ·), owed := s.owed.map fill }

/-- The firmware makes a stage-2 leaf resident (R273): a frame of the pool, filled from the backing; none without a frame. -/
def fillLeaf (s : State) (vf gpa : Nat) : Option State :=
  match validLeaf s vf gpa, s.fn? vf with
  | some (a, e, lv), some f =>
    (match takeFrame f.pool (leafBytes lv) with
     | none => none
     | some (spa, pool) =>
       let idx := pfnOf e / 4096
       let bs := ((f.backing.find? (·.1 == idx)).map (·.2.2)).getD []
       let s1 := (fillFrame s spa (leafBytes lv) bs).setFn vf fun f =>
         { f with pool := pool, backing := f.backing.filter (·.1 != idx),
                  assigned := moveGpa f.assigned (gpa / leafBytes lv * leafBytes lv) (leafBytes lv) spa }
       some (putEntry s1 a (entryWith e spa true)))
  | _, _ => none

/-- Post a request to the function's residency ring (R384): none where it is full or not set (log 88, DESIGN CHOICE). -/
def postRing (s : State) (r : ResReq) : Option State :=
  match (s.fn? r.vf).bind (·.resRing), s.fn? r.vf with
  | some g, some f =>
    (match devNat s r.vf f.asid g.prod 8, devNat s r.vf f.asid g.cons 8 with
     | .ok p, .ok c =>
       if 4096 ≤ (p + 2 ^ 64 - c) % 2 ^ 64 then none
       else
         (match devWrite s r.vf f.asid 0 0 (g.ring + BitVec.ofNat 64 (16 * (p % 4096))) (natBytes 8 (r.va - r.va % pageBytes s r.vf r.asid r.va) ++ natBytes 8 r.asid) with
          | .ok s1 => (match devWrite (hostSettle s1) r.vf f.asid 0 0 g.prod (natBytes 8 (p + 1)) with
            | .ok s2 => some s2
            | .error _ => none)
          | .error _ => none)
     | _, _ => none)
  | _, _ => none

/-- Serve a request (R273, R384); `fuel` leaves may have to be filled on one walk. -/
def serveRes : Nat → State → ResReq → State
  | 0, s, _ => s
  | fuel + 1, s, r =>
    match resNext s r with
    | .token t => resToken s r t
    | .fill g => (match fillLeaf s r.vf g with
      | some s1 => serveRes fuel s1 r
      | none => resToken s r 2)
    | .ask =>
      if s.resReqs.any fun x => x.covers s r.vf r.asid r.va && x.asked then
        { s with resReqs := mapIf (·.ref == r.ref) (fun x => { x with asked := true, deadline := s.time.dtc + usTicks 1000000 }) s.resReqs }
      else
        match postRing s r with
        | some s1 =>
          { s1 with resReqs := mapIf (·.ref == r.ref) (fun x => { x with asked := true, deadline := s.time.dtc + usTicks 1000000 }) s1.resReqs }
        | none => resToken s r 2

/-- RESIDENCY_REQUEST (R273): the firmware serves a request; one that the driver is to answer waits. -/
def execResidencyRequest (ref : Nat) (s : State) : Host.Outcome State Fault Refusal :=
  .next (match s.resReqs.find? (·.ref == ref) with
    | some r => if r.asked then s else serveRes 12 s r
    | none => s)

/-- RESIDENCY_WAIT_TIMEOUT (R273): the driver has not answered in time. -/
def execResidencyWaitTimeout (ref : Nat) (s : State) : Host.Outcome State Fault Refusal :=
  .next (match s.resReqs.find? (·.ref == ref) with
    | some r => if r.asked && r.deadline ≤ s.time.dtc then resToken s r 2 else s
    | none => s)

/-- An index no backing of a function has; 0 is a page that never held data (R273). -/
def freeBacking (f : Fn) : Nat := (f.backing.map (·.1)).foldl max 0 + 1

/-- PAGE_EVICTION (R270, R273): contents to a backing, RES cleared with the backing's index as PFN, a bump (log 79, DESIGN CHOICE). -/
def execPageEviction (vf gpa : Nat) (s : State) : Host.Outcome State Fault Refusal :=
  .next (match validLeaf s vf gpa, s.fn? vf with
    | some (a, e, lv), some f =>
      let n := leafBytes lv
      if !e.testBit 5 || e.testBit 9 || e.testBit 11 || isExported s vf (gpa / n * n) n || !bumpReadyFn s vf then s
      else
        let idx := freeBacking f
        let s1 := s.setFn vf fun f =>
          { f with backing := f.backing ++ [(idx, gpa / n * n, s.getBytes (pfnOf e % 2 ^ 49) n)], pool := f.pool ++ [(pfnOf e, n)],
                   assigned := cutGpa f.assigned (gpa / n * n) n }
        bumpFn (putEntry s1 a (entryWith e (4096 * idx) false)) vf
    | _, _ => s)

/-! ### Frames -/

/-- Set the scrub-pending marks of a frame, whose old bytes are hidden from then on (R275). -/
def markFrame (s : State) (spa n : Nat) : State :=
  let gs := (List.range (n / 1024)).map fun i => spa % 2 ^ 49 / 1024 + i
  { s with scrubMarks := s.scrubMarks ++ gs.filter fun g => !s.scrubMarks.contains g }

/-- Take a given frame out of a pool, where it lies in it. -/
def takeGiven (pool : List (Nat × Nat)) (a n : Nat) : Option (List (Nat × Nat)) :=
  match pool.find? fun f => f.1 ≤ a && a + n ≤ f.1 + f.2 with
  | none => none
  | some f => some (pool.filter (· != f) ++ [(f.1, a - f.1), (a + n, f.1 + f.2 - a - n)].filter (·.2 != 0))

/-- What waits on bytes of a page, and what has been learnt of them, follows the page to its new frame (R184, R187, R274, R363) (log 135, DEDUCED). -/
def followPage (s : State) (old new n : Nat) : State :=
  let at_ (a : Nat) : Nat := if old ≤ a && a < old + n then new + (a - old) else a
  let off (a : Nat) : Nat := if old % 2 ^ 49 ≤ a && a < old % 2 ^ 49 + n then new % 2 ^ 49 + (a - old % 2 ^ 49) else a
  let line (l : Nat) : Nat := off (64 * l) / 64
  let status (x : FStatus) : FStatus := match x with
    | .waitSig w => .waitSig (if w.dev.isNone then { w with spa := at_ w.spa } else w)
    | .waitWake w => .waitWake { w with line := line w.line }
    | y => y
  let core (c : Core) : Core :=
    { c with wake := c.wake.map fun e => { e with line := line e.line }
             fwd := c.fwd.map fun e => { e with lines := e.lines.map line, held := e.held.map fun h => (line h.1, h.2) } }
  { s with fibres := s.fibres.map (fun f => { f with status := status f.status })
           packets := s.packets.map (fun p => { p with watch := p.watch.map at_ })
           remoteWaiters := s.remoteWaiters.map (fun r => { r with off := at_ r.off })
           registrations := s.registrations.map (fun r => (line r.1, r.2))
           moves := s.moves.map (fun m => (line m.1, m.2))
           wakes := s.wakes.map (fun w => { w with line := line w.line })
           leases := s.leases.map (fun l => { l with pages := l.pages.map at_ })
           cores := s.cores.map core
           stamps := s.stamps.map (fun w => (off w.1, w.2)) }

/-- The first step of a migration (R274): MIG is set and the generations are bumped, so that from now on stores and atomics to the page are held. -/
def startMigration (s : State) (vf gpa frame a e n : Nat) : State :=
  let m : Migration := ⟨vf, gpa / n * n, frame⟩
  let s1 := ({ s with migrations := s.migrations ++ [m] } : State).setFn vf fun f => { f with pool := (takeGiven f.pool frame n).getD f.pool }
  bumpFn (putEntry s1 a (e + 2 ^ 9)) vf

/-- The last steps of a migration (R274): the copy, the new PFN with MIG clear, the second bump; the old frame is cleared and goes to the pool. A page that
cannot be read stays where it is, reported lost (R245). -/
def endMigration (s0 : State) (m : Migration) (a e n : Nat) : State :=
  let s := { s0 with migrations := s0.migrations.erase m }
  let old := pfnOf e
  match readAt s old n with
  | .error _ =>
    let s1 := (bumpFn (putEntry s a (e - 2 ^ 9)) m.vf).setFn m.vf fun f => { f with pool := f.pool ++ [(m.frame, n)] }
    (match s.place (old % 2 ^ 49) with
     | .hbm st t => s1.setStack st fun x => { x with lost := x.lost ++ (List.range (n / 4096)).map (t / 4096 + ·) }
     | _ => s1)
  | .ok bs =>
    let s1 := (fillFrame s m.frame n bs).setFn m.vf fun f => { f with pool := f.pool ++ [(old, n)], assigned := moveGpa f.assigned m.gpa n m.frame }
    let s2 := bumpFn (putEntry (followPage s1 old m.frame n) a (entryWith e m.frame true)) m.vf
    markFrame s2 old n

/-- PAGE_MIGRATION (R274): a page moves in two of these steps; between them its leaf has MIG set. -/
def execPageMigration (vf gpa frame : Nat) (s : State) : Host.Outcome State Fault Refusal :=
  .next (match validLeaf s vf gpa, s.fn? vf with
    | some (a, e, lv), some f =>
      let n := leafBytes lv
      if !e.testBit 5 || e.testBit 11 || isExported s vf (gpa / n * n) n || frame % n != 0 || !bumpReadyFn s vf then s
      else
        match s.migrations.find? fun m => m.vf == vf && m.gpa == gpa / n * n with
        | some m => endMigration s m a e n
        | none => if e.testBit 9 || (takeGiven f.pool frame n).isNone then s else startMigration s vf gpa frame a e n
    | _, _ => s)

/-- Write a function's stage-2 leaf at a level, making the tables that are missing from its pool; none without a frame for one. -/
def mapLeafGo (vf gpa lv e : Nat) : Nat → List Nat → State → Option State
  | _, [], _ => none
  | tbl, l :: ls, s =>
    let at_ := tbl + 8 * tableIndex true l gpa
    if l == lv then some (putEntry s at_ e)
    else
      match readAt s at_ 8 with
      | .error _ => none
      | .ok bs =>
        let x := bytesNat bs
        if x.testBit 0 && !x.testBit 1 && !badEntry true l x then mapLeafGo vf gpa lv e (pfnOf x) ls s
        else if x.testBit 0 && x.testBit 1 then none
        else
          match (s.fn? vf).bind fun f => takeFrame f.pool 4096 with
          | none => none
          | some (t, pool) =>
            mapLeafGo vf gpa lv e t ls (putEntry ((fillFrame s t 4096 []).setFn vf fun f => { f with pool := pool }) at_ (t + 1))

/-- Map a frame for a function. -/
def mapLeaf (s : State) (vf gpa lv e : Nat) : Option State :=
  match (s.fn? vf).bind (·.root2) with
  | none => none
  | some r => mapLeafGo vf gpa lv e r [5, 4, 3, 2, 1] s

/-- The level of a leaf of that many bytes. -/
def levelOf (n : Nat) : Nat := if n == 2 ^ 30 then 3 else if n == 2 ^ 21 then 2 else 1

/-- A resident leaf of a frame with every permission. -/
def ownLeaf (spa : Nat) : Nat := spa / 4096 * 4096 + 0x3B

/-- Clear the old owner's leaves for a range of guest memory (R275): of a larger leaf, what lies outside the range is mapped again in smaller leaves. -/
def clearLeaves (s : State) (vf gpa n : Nat) : State :=
  (List.range (n / 4096)).foldl (fun s i => match validLeaf s vf (gpa + 4096 * i) with
    | some (a, e, lv) =>
      let big := leafBytes lv
      let base := (gpa + 4096 * i) / big * big
      if gpa ≤ base && base + big ≤ gpa + n then putEntry s a 0
      else
        let keep := (List.range (big / 4096)).filter fun j => base + 4096 * j < gpa || gpa + n ≤ base + 4096 * j
        keep.foldl (fun s j =>
          let g := base + 4096 * j
          (mapLeaf s vf g 1 (entryWith e (pfnOf e + 4096 * j) (e.testBit 5))).getD s) (putEntry s a 0)
    | none => s) s

/-- The guest ranges that a function holds of a frame of `n` bytes, with the rest of its record (R275). -/
def cutFrame (l : List (Nat × Nat × Nat)) (frame n : Nat) : List (Nat × Nat) × List (Nat × Nat × Nat) :=
  let lo (a : Nat × Nat × Nat) : Nat := max a.2.2 frame
  let hi (a : Nat × Nat × Nat) : Nat := min (a.2.2 + a.2.1) (frame + n)
  ((l.filter fun a => lo a < hi a).map fun a => (a.1 + (lo a - a.2.2), hi a - lo a),
   l.flatMap fun a =>
     if lo a < hi a then
       [(a.1, lo a - a.2.2, a.2.2), (a.1 + (hi a - a.2.2), a.2.2 + a.2.1 - hi a, hi a)].filter (·.2.1 != 0)
     else [a])

/-- FRAME_REASSIGN (R275, R276): the old leaves are cleared and their function bumped, the marks are set, then the new owner's leaf is written. -/
def execFrameReassign (frame bytes fromVf toVf toGpa : Nat) (s : State) : Host.Outcome State Fault Refusal :=
  let n := if bytes == 2 ^ 30 || bytes == 2 ^ 21 then bytes else 4096
  let c := cutFrame (((s.fn? fromVf).map (·.assigned)).getD []) frame n
  .next (if frame % n != 0 || toGpa % n != 0 || 2 ^ 49 ≤ frame || (s.fn? toVf).isNone || !bumpReadyFn s fromVf ||
      (c.1.any fun g => isExported s fromVf g.1 g.2) || (s.migrations.any fun m => m.frame < frame + n && frame < m.frame + 2 ^ 30) then s
    else
      let s1 := if c.1.isEmpty then s else bumpFn (c.1.foldl (fun s g => clearLeaves s fromVf g.1 g.2) s) fromVf
      let s2 := s1.setFn fromVf fun f => { f with assigned := c.2, pool := (takeGiven f.pool frame n).getD f.pool }
      let s3 := (markFrame s2 frame n).setFn toVf fun f => { f with assigned := f.assigned ++ [(toGpa, n, frame)] }
      (mapLeaf s3 toVf toGpa (levelOf n) (ownLeaf frame)).getD s)

/-! ### Repair -/

/-- The frame the firmware's own record gives a GPA, with the largest page up to `most` bytes that lies in the assigned range (R268) (log 78, DESIGN CHOICE). -/
def assignedFrame (f : Fn) (most gpa : Nat) : Option (Nat × Nat × Nat) :=
  match f.assigned.find? fun a => a.1 ≤ gpa && gpa < a.1 + a.2.1 with
  | none => none
  | some a =>
    let fits (n : Nat) : Bool :=
      let g := gpa / n * n
      n ≤ most && a.1 ≤ g && g + n ≤ a.1 + a.2.1 && (a.2.2 + (g - a.1)) % n == 0
    let n := if fits (2 ^ 30) then 2 ^ 30 else if fits (2 ^ 21) then 2 ^ 21 else 4096
    some (gpa / n * n, n, a.2.2 + (gpa / n * n - a.1))

/-- The leaf that the record gives a page of guest memory (R268, R273): its frame, or the backing it was evicted to; with the GPA, the page's bytes, and its
frame where it has one. -/
def recordLeaf (f : Fn) (most gpa : Nat) : Option (Nat × Nat × Nat × Option Nat) :=
  match assignedFrame f most gpa with
  | some (g, n, spa) => some (g, n, ownLeaf spa, some spa)
  | none => (f.backing.find? fun b => b.2.1 ≤ gpa && gpa < b.2.1 + b.2.2.length).map fun b =>
    (b.2.1, b.2.2.length, entryWith (ownLeaf 0) (4096 * b.1) false, none)

/-- Map again what the record holds between two guest addresses; `fuel` pages (R268). -/
def rebuildRange (vf most hi : Nat) : Nat → Nat → State → State
  | 0, _, s => s
  | fuel + 1, g, s =>
    match (if g < hi then s.fn? vf else none) with
    | none => s
    | some f =>
      match recordLeaf f most g with
      | some (b, n, e, _) => rebuildRange vf most hi fuel (b + n) ((mapLeaf s vf b (levelOf n) e).getD s)
      | none =>
        let next := (f.assigned.map (·.1) ++ f.backing.map (·.2.1)).filter (g < ·)
        (match next with
         | [] => s
         | x :: xs => rebuildRange vf most hi fuel (xs.foldl min x) s)

/-- The first table line on the walk of a GPA that cannot be read: the entry that names its table, its address, its level, whether its frame is lost. -/
def badLineGo (s : State) (gpa : Nat) : Option Nat → Nat → List Nat → Option (Option Nat × Nat × Nat × Bool)
  | _, _, [] => none
  | up, tbl, lv :: ls =>
    let at_ := tbl + 8 * tableIndex true lv gpa
    match readAt s at_ 8 with
    | .error c => some (up, at_, lv, c == 0x47)
    | .ok bs => let e := bytesNat bs; if e.testBit 0 && !e.testBit 1 then badLineGo s gpa (some at_) (pfnOf e) ls else none

/-- The firmware rebuilds the tables on the way to a GPA from its record (R268): a line lost to ECC is written anew, a table in a lost frame gets another
frame; then what they mapped is mapped again. -/
def rebuildTables : Nat → State → Nat → Nat → State
  | 0, s, _, _ => s
  | fuel + 1, s, vf, gpa =>
    match ((s.fn? vf).bind (·.root2)).bind fun r => badLineGo s gpa none r [5, 4, 3, 2, 1] with
    | none => s
    | some (up, at_, lv, gone) =>
      let big := if gone then 512 * leafBytes lv else 8 * leafBytes lv
      let lo := gpa / big * big
      let s1 : State := if !gone then fillFrame s (at_ - at_ % 64) 64 []
        else match up with
          | some u => putEntry s u 0
          | none => (match (s.fn? vf).bind fun f => takeFrame f.pool 4096 with
            | some (t, pool) => (fillFrame s t 4096 []).setFn vf fun f => { f with pool := pool, root2 := some t }
            | none => s)
      rebuildTables fuel (rebuildRange vf (leafBytes lv) (lo + big) (2 ^ 20) lo s1) vf gpa

/-- The GPA at which the walk of a VA fails in stage 2. -/
def faultGpaGo (s : State) (vf va : Nat) : Nat → List Nat → Option Nat
  | _, [] => none
  | tbl, lv :: ls =>
    let g := tbl + 8 * tableIndex false lv va
    match stage2 s vf g with
    | .error _ => some g
    | .ok _ => match readEntry1 s vf g with
      | .error _ => some g
      | .ok e =>
        if !e.testBit 0 || badEntry false lv e then none
        else if e.testBit 1 then some (leafAddr e lv va)
        else faultGpaGo s vf va (pfnOf e) ls

def faultGpa (s : State) (vf asid va : Nat) : Option Nat := (s.ctx? asid).bind fun c => faultGpaGo s vf va c.root [5, 4, 3, 2, 1]

/-- The firmware rebuilds the leaf of a GPA from its record: the mapped page, small pages where a table stands in the way. -/
def rebuildLeaf (s : State) (vf gpa : Nat) : Option State :=
  match (s.fn? vf).bind fun f => recordLeaf f (2 ^ 30) gpa with
  | none => none
  | some (g, n, e, spa) =>
    if (List.range (n / 4096)).any fun i => (spa.map fun a => s.isLost (a % 2 ^ 49 + 4096 * i)).getD false then none
    else
      let t := rebuildTables 5 s vf gpa
      match mapLeaf t vf g (levelOf n) e with
      | some u => some u
      | none => spa.bind fun a => mapLeaf t vf (gpa / 4096 * 4096) 1 (ownLeaf (a + (gpa / 4096 * 4096 - g)))

/-- STAGE2_REPAIR (R268, R365): the firmware repairs the mapping and resumes the lane, or the grid is to be killed with FAULT. -/
def execStage2Repair (fibre : Nat) (s : State) : Host.Outcome State Fault Refusal :=
  .next (match s.fibre? fibre with
    | none => s
    | some f =>
      match f.status with
      | .parked p =>
        if !firmwareFirst p.frec then s
        else
          let vf := s.fibreVf f
          let now := match translateWalk s vf (s.fibreAsid f) p.frec.arg.toNat .read with
            | .fail c st => c == 0x92 || c == 0x94 || (c == 0x93 && st == 2)
            | _ => false
          if !now then resumeFibre (remake s fibre) fibre p.resume
          else
          (match (faultGpa s vf (s.fibreAsid f) p.frec.arg.toNat).bind fun g => rebuildLeaf s vf g with
           | some t => resumeFibre (remake t fibre) fibre p.resume
           | none =>
             match s.fibreGrid f with
             | some g => killGrid (s.setGrid g.id fun x => { x with doom := some (x.doom.getD (2, p.lp)) }) g.id 2
             | none => s)
      | _ => s)

end Sys2Proof.Machine
end

