-- ==== Sys2Proof/Machine/HostLink.lean ====
section
/-! DEFINITION. Meanings: the host link: BAR0 registers, the memory BAR, flushes, the coherent window, feature bits (spec/14 R263, R264; spec/25 R381 to
R385, R390). -/

namespace Sys2Proof.Machine

/-- Whether the host reaches the device (R389, R390): it is READY or in the Bisque service. -/
def hostUp (s : State) : Bool := s.dev.dstate == 1 || s.dev.dstate == 2

/-! ### Registers -/

/-- The feature bits that are offered (R385): in Bisque only CORE, FFT, LEASE and WAKE. -/
def offered (s : State) : List Nat := if s.dev.dstate == 2 then [0, 12, 13, 14] else [0, 3, 4, 5, 12, 13, 14, 15, 16]

/-- Word `k` of a set of bits. -/
def bitsWord (l : List Nat) (k : Nat) : Nat := (List.range 64).foldl (fun n i => if l.contains (64 * k + i) then n + 2 ^ i else n) 0

/-- TSTAT (R307). -/
def tstat (s : State) : Nat :=
  s.time.state % 4 + (if s.time.back != 0 then 4 else 0) + s.time.domain % 256 * 2 ^ 8 + s.time.offs % 65536 * 2 ^ 16

/-- DEVSTAT (R390). -/
def devstat (s : State) : Nat :=
  s.dev.dstate % 16 + s.dev.reason % 256 * 2 ^ 8 + (if s.dev.cap then 2 ^ 16 else 0) + s.dev.badstk % 65536 * 2 ^ 48

/-- What a read of a BAR0 register returns (R383): other offsets, and registers that are only written, read zero. -/
def regRead (s : State) (vf off : Nat) : Nat :=
  match s.fn? vf with
  | none => 0
  | some f =>
    if f.resetting then 0
    else if off == 0x1010 then (if f.flushes.isEmpty then 0 else 2 ^ 32) + f.flushSeq % 2 ^ 32
    else if off == 0x1020 then tstat s
    else if off == 0x1040 then devstat s
    else if off % 8 == 0 && 0x1100 ≤ off && off < 0x1120 then bitsWord (offered s) ((off - 0x1100) / 8)
    else if off % 8 == 0 && 0x1120 ≤ off && off < 0x1140 then bitsWord f.feat ((off - 0x1120) / 8)
    else if off == 0x1140 then (if f.featctl == 1 then 2 else if f.featctl == 2 then 4 else 0)
    else 0

/-- Replace word `k` of a set of bits. -/
def setBitsWord (l : List Nat) (k v : Nat) : List Nat :=
  (l.filter fun b => b / 64 != k) ++ ((List.range 64).filter v.testBit).map (64 * k + ·)

/-- REGISTER_WRITE (R381 to R383, R385): CMDBELL issues a command, unless 64 are outstanding; FEATACC takes bits until a set is committed; other
offsets ignore writes. -/
def execRegisterWrite (vf : Nat) (offset : Nat) (value : DWord) (s : State) : Host.Outcome State Fault Refusal :=
  .next (match s.fn? vf with
    | none => s
    | some f =>
      if !hostUp s || f.resetting then s
      else if offset == 0x1030 then
        if 64 ≤ f.cmds.length then s else s.setFn vf fun f => { f with cmds := f.cmds ++ [⟨value, 0, 0⟩] }
      else if offset % 8 == 0 && 0x1120 ≤ offset && offset < 0x1140 && f.featctl != 1 then
        s.setFn vf fun f => { f with feat := setBitsWord f.feat ((offset - 0x1120) / 8) value.toNat }
      else s)

/-- The lowest free range of receive counters of a size, aligned to it (R189). -/
def freeCounters (s : State) (vf n : Nat) : Option Nat :=
  if n == 0 then some 0
  else
    let used := (s.fns.filter (·.vf != vf)).filterMap fun f => f.counterBase.map fun b => (b, f.quotaCounters)
    ((List.range (4096 / n)).map (n * ·)).find? fun b => used.all fun u => u.1 + u.2 ≤ b || b + n ≤ u.1

/-- FEATURE_COMMIT (R385, R189): FEATACC becomes the accepted set, or is refused. -/
def execFeatureCommit (vf : Nat) (s : State) : Host.Outcome State Fault Refusal :=
  .next (match s.fn? vf with
    | none => s
    | some f =>
      if !hostUp s || f.resetting || f.featctl == 1 then s
      else
        let range := if f.feat.contains 15 then freeCounters s vf f.quotaCounters else none
        let ok := f.feat.contains 0 && f.feat.all (offered s).contains && (!f.feat.contains 15 || range.isSome)
        s.setFn vf fun f => if ok then { f with featctl := 1, counterBase := range } else { f with featctl := 2 })

/-! ### Flushes -/

/-- A FLUSH write (R264): one with a nonzero zero field is ignored. -/
def flushWrite (s : State) (vf op : Nat) (value : DWord) : State :=
  match s.fn? vf with
  | none => s
  | some f =>
    if !hostUp s || f.resetting || value.toNat / 2 ^ 34 != 0 || natBits value.toNat 33 32 != op then s
    else
      let before := (s.accesses.filter fun a => decide (a.agent = .host vf)).map (·.ref)
      s.setFn vf fun f => { f with flushes := f.flushes ++ [⟨op, value.toNat % 2 ^ 32, if op == 2 then [] else before⟩] }

/-- FLUSH_INBOUND (R264). -/
def execFlushInbound (vf : Nat) (value : DWord) (s : State) : Host.Outcome State Fault Refusal := .next (flushWrite s vf 1 value)

/-- FLUSH_OUTBOUND (R264). -/
def execFlushOutbound (vf : Nat) (value : DWord) (s : State) : Host.Outcome State Fault Refusal := .next (flushWrite s vf 2 value)

/-- FLUSH_BOTH (R264). -/
def execFlushBoth (vf : Nat) (value : DWord) (s : State) : Host.Outcome State Fault Refusal := .next (flushWrite s vf 3 value)

/-- FLUSH_DONE (R264): the oldest flush completes once the BAR writes before it have been applied at their homes, the read-ahead buffer is discarded where it
asks so, FLSTAT takes its SEQ. -/
def execFlushDone (vf : Nat) (s : State) : Host.Outcome State Fault Refusal :=
  .next (match s.fn? vf with
    | none => s
    | some f =>
      match f.flushes with
      | [] => s
      | x :: xs =>
        if x.waits.any fun r => s.accesses.any (·.ref == r) then s
        else s.setFn vf fun f =>
          { f with flushes := xs, flushSeq := x.seq, readAhead := if x.op == 2 || x.op == 3 then [] else f.readAhead })

/-! ### The memory BAR -/

/-- Where the host finds a GPA (R383): the leaf's physical address and device; the firmware makes a page resident first where it can (log 37, DESIGN CHOICE). -/
def barPlace (s : State) (vf gpa : Nat) (write : Bool) : Option (Nat × Option Nat) × State :=
  let look (s : State) : Option (Nat × Nat) := match stage2 s vf gpa with
    | .ok x => some x
    | .error _ => none
  let s1 := match look s with
    | some (e, _) => if e.testBit 5 then s else (fillLeaf s vf gpa).getD s
    | none => s
  match look s1 with
  | none => (none, barFail s1 vf)
  | some (e, lv) =>
    if !e.testBit 5 || (write && !e.testBit 3) then (none, barFail s1 vf)
    else (some (leafAddr e lv gpa, if e.testBit 11 then some (natBits e 63 52) else none), s1)

/-- A posted write of the host to bytes of one page, on its way to its home (R264); writes of one function to one home stay in order (R235). -/
def hostAccess (s : State) (vf gpa spa : Nat) (dev : Option Nat) (bs : List Byte) : Access :=
  let asid := ((s.fn? vf).map (·.asid)).getD 0
  { engineAccess s 0 vf asid (BitVec.ofNat 64 gpa) spa dev (.write ((List.range bs.length).zip bs) false) 0 with agent := .host vf }

/-- The pieces of a host write are sent (R264): by 1 KiB in this package, by lines to another device (R257). -/
def barPages (vf : Nat) : List (Nat × Nat) → List Byte → State → State
  | [], _, s => s
  | (g, k) :: ps, bs, s =>
    let r := barPlace s vf g true
    let s1 := match r.1 with
      | none => r.2
      | some (spa, none) => sendAccess r.2 (hostAccess r.2 vf g spa none (bs.take k))
      | some (spa, some d) =>
        (linePieces g (k / 64 + 2) k).foldl
          (fun s p => sendAccess s (hostAccess s vf p.1 (spa + (p.1 - g)) (some d) (((bs.take k).drop (p.1 - g)).take p.2))) r.2
    barPages vf ps (bs.drop k) s1

/-- Whether a function's memory BAR takes accesses at all: 64 GiB, 1 TiB for the PF (R383). -/
def barOpen (s : State) (vf gpa n : Nat) : Bool :=
  hostUp s && gpa + n ≤ (if vf == 0 then 2 ^ 40 else 2 ^ 36) && (match s.fn? vf with | some f => !f.resetting | none => false)

/-- BAR_WRITE (R264, R383): a posted write is sent to its homes. -/
def execBarWrite (vf : Nat) (gpa : Nat) (data : List Byte) (s : State) : Host.Outcome State Fault Refusal :=
  .next (if barOpen s vf gpa data.length then barPages vf (pagesOf gpa data.length) data s else s)

/-- Bytes of one page at their homes: zero where nothing is mapped. -/
def barFetch (s : State) (vf gpa n : Nat) : List Byte × State :=
  let r := barPlace s vf gpa false
  match r.1 with
  | none => (List.replicate n 0, r.2)
  | some (spa, none) =>
    (match readAt r.2 spa n with
     | .ok bs => (bs, r.2)
     | .error _ => (List.replicate n 0, barFail r.2 vf))
  | some (spa, some _) => (remoteBytes r.2 spa n, { r.2 with free := r.2.free + 1 })

/-- A line of 64 bytes enters the read-ahead buffer of 64 KiB (R264), from which the oldest lines go when it is full: which go is not stated (log 149, DESIGN
CHOICE). -/
def readAheadLine (s : State) (vf line : Nat) : State :=
  let r := barFetch s vf (64 * line) 64
  let cells := ((List.range 64).map (64 * line + ·)).zip r.1
  r.2.setFn vf fun f =>
    let l := f.readAhead.filter (fun c => c.1 / 64 != line) ++ cells
    { f with readAhead := l.drop (l.length - 65536) }

/-- Whether the read-ahead buffer holds a line. -/
def hasLine (s : State) (vf line : Nat) : Bool := ((s.fn? vf).map (·.readAhead)).getD [] |>.any fun c => c.1 == 64 * line

/-- The bytes of a line as a host read finds them: from the buffer, into which it is put first where it is missing. -/
def barLine (s : State) (vf line : Nat) : List Byte × State :=
  let s1 := if hasLine s vf line then s else readAheadLine s vf line
  let buf := ((s1.fn? vf).map (·.readAhead)).getD []
  ((List.range 64).map fun i => ((buf.find? (·.1 == 64 * line + i)).map (·.2)).getD 0, s1)

/-- A read of the memory BAR (R264, R383) takes each line from the read-ahead buffer, into which the device may put further lines too: how many is free. -/
def barMemRead (vf gpa n : Nat) (s : State) : State :=
  if !barOpen s vf gpa n then s
  else
    let first := gpa / 64
    let count := (gpa + n + 63) / 64 - first
    let take (r : List Byte × State) (i : Nat) : List Byte × State :=
      let x := barLine r.2 vf (first + i)
      (r.1 ++ x.1, x.2)
    let r := (List.range count).foldl take ([], s)
    let c := choose r.2 1024
    let more := ((List.range c.1).map (first + count + ·)).filter fun l => !hasLine c.2 vf l
    let s1 := more.foldl (fun s l => readAheadLine s vf l) c.2
    { s1 with outbox := s1.outbox ++ [.host vf ((r.1.drop (gpa % 64)).take n)] }

/-- A line of the coherent window as a host read finds it (R263): out of the host's cache, which may have given the line up, or from its home, and then kept or
not: free choices (log 136, DESIGN CHOICE). -/
def hostLine (s : State) (line : Nat) : List Byte × State :=
  let c := choose s 2
  match (if c.1 == 0 then s.hostLines.find? (·.line == line) else none) with
  | some h => (h.data, c.2)
  | none =>
    let bs := s.getBytes (64 * line) 64
    let k := choose c.2 2
    let rest := s.hostLines.filter (·.line != line)
    (bs, { k.2 with hostLines := if k.1 == 0 then ⟨line, bs, false⟩ :: rest else rest })

/-- The host's own write reaches the line it caches; one that is being taken back goes. -/
def hostKeeps (s : State) (off : Nat) (d : List Byte) (was : List HostLine) : State :=
  let up (h : HostLine) : HostLine :=
    { h with data := (List.range 64).map fun i => if off ≤ 64 * h.line + i then (d[64 * h.line + i - off]?).getD (h.data.getD i 0) else h.data.getD i 0 }
  { s with hostLines := was.filterMap fun h =>
      if off / 64 ≤ h.line && h.line ≤ (off + d.length - 1) / 64 then (if h.inval then none else some (up h)) else some h }

/-- HOST_WINDOW_ACCESS (R263): the host's CXL access to the coherent window, in the order in which CXL delivers it. -/
def execHostWindowAccess (offset : Nat) (n : Nat) (write : Option (List Byte)) (s : State) : Host.Outcome State Fault Refusal :=
  .next (if !hostUp s || 2 ^ 23 < offset + n || n == 0 then s
    else
      let off := 2 ^ 40 + offset
      match write with
      | some d =>
        if d.length == n then hostKeeps (applyWrite s 0 ((List.range n).map (off + ·)) ((List.range n).zip d) [] 0).2 off d s.hostLines else s
      | none =>
        let take (r : List Byte × State) (i : Nat) : List Byte × State :=
          let x := hostLine r.2 (off / 64 + i)
          (r.1 ++ x.1, x.2)
        let r := (List.range ((off + n + 63) / 64 - off / 64)).foldl take ([], s)
        { r.2 with outbox := r.2.outbox ++ [.host 0 ((r.1.drop (off % 64)).take n)] })

end Sys2Proof.Machine
end

