-- ==== Sys2Proof/Machine/CmdBase.lean ====
section
/-! DEFINITION. How the firmware serves a command: its block, the common statuses, completion (spec/25 R381, R382, R385, R391; spec/18 R402). -/

namespace Sys2Proof.Machine

/-- A command block (R381). -/
structure CmdBlock where
  va : DWord
  code : Nat
  zero : Nat
  args : List Nat
  csig : DWord
deriving DecidableEq, Repr

/-- Argument `n`. -/
def CmdBlock.arg (b : CmdBlock) (n : Nat) : Nat := b.args.getD n 0

/-- What a command does: it completes with a status, or goes on. -/
inductive CmdOut where
  | over (status : Nat) (s : State)
  | wait (s : State)
deriving DecidableEq, Repr

/-- The common statuses of R382. -/
def stBadCmd : Nat := 0xFFFE
def stDenied : Nat := 0xFFFD
def stBadArg : Nat := 0xFFFC

/-- A status that the spec names without its number: a free number from 1 on, below the common ones (log 38, DESIGN CHOICE). -/
def stFree (k : Nat) : Nat := 1 + Config.freeNat (2 ^ 70 + k) % 0xFFFB

/-- Whether an address lies in the coherent window, as the function's address space maps it. -/
def inWindow (s : State) (f : Fn) (va : Nat) : Bool :=
  match translateWalk s f.vf f.asid va .write with
  | .ok spa none => (match s.place spa with | .window _ => true | _ => false)
  | _ => false

/-- Read the block of a command (R381): 64-byte aligned, in the coherent window. -/
def readBlock (s : State) (f : Fn) (c : Cmd) : Option CmdBlock :=
  if c.va.toNat % 64 != 0 || 2 ^ 57 ≤ c.va.toNat || !inWindow s f c.va.toNat then none
  else
    match devNat s f.vf f.asid c.va 64 with
    | .error _ => none
    | .ok n =>
      some { va := c.va, code := natBits n 15 0, zero := natBits n 63 32,
             args := (List.range 6).map (fun i => natBits n (64 * i + 127) (64 * i + 64)), csig := BitVec.ofNat 64 (natBits n 511 448) }

/-- The codes of R382's table. -/
def cmdKnown (c : Nat) : Bool :=
  (1 ≤ c && c ≤ 0x0D) || (0x10 ≤ c && c ≤ 0x1C) || (0x20 ≤ c && c ≤ 0x27) || (0x30 ≤ c && c ≤ 0x34) || (0x38 ≤ c && c ≤ 0x3A)

/-- Commands of the PF alone (R382). -/
def cmdPf (c : Nat) : Bool :=
  (0x10 ≤ c && c ≤ 0x13) || c == 0x18 || c == 0x1A || c == 0x1C || (0x30 ≤ c && c ≤ 0x34) || c == 0x38 || c == 0x39

/-- The feature a command belongs to (R385, R393). -/
def cmdFeature (c : Nat) : Option Nat :=
  if c == 5 || c == 6 then some 3 else if 0x22 ≤ c && c ≤ 0x25 then some 5 else if c == 0x1B || c == 0x1C then some 16 else none

/-- The commands that the Bisque service offers (R391). -/
def cmdBisque (c : Nat) : Bool :=
  (1 ≤ c && c ≤ 4) || c == 7 || c == 8 || c == 0x0D || c == 0x12 || c == 0x18 || c == 0x34 || (0x38 ≤ c && c ≤ 0x3A)

/-- DENIED before the command itself is looked at (R382, R385, R391). -/
def cmdDenied (s : State) (f : Fn) (c : Nat) : Bool :=
  (cmdPf c && f.vf != 0) || (s.dev.dstate == 2 && !cmdBisque c) || (c == 1 && f.featctl != 1) ||
  (match cmdFeature c with | some b => !s.hasFeature f.vf b | none => false)

/-- A command completes (R381, R382): STATUS with a release at `.host`, then the decrement of CSIG; the next is served from now on. -/
def cmdEnd (s : State) (f : Fn) (b : CmdBlock) (status : Nat) : State :=
  let s1 := s.setFn f.vf fun f => { f with cmds := f.cmds.drop 1 }
  let s2 := match devWrite (hostSettle s1) f.vf f.asid 0 0 (b.va + 2) (natBytes 2 status) with
    | .ok t => t
    | .error _ => s1
  if b.csig == 0 then s2
  else
    match sigUpdate s2 f.vf f.asid 0 b.csig .sigDec 0 with
    | .ok t => t
    | .error _ => s2

/-- The command at the head of a function's list: one whose block cannot be read leaves without a status; one that no rule knows completes with
BADCMD whichever command's step finds it (log 39, DESIGN CHOICE). -/
def headCmd (s : State) (vf : Nat) : Option (Fn × Cmd × Option CmdBlock) :=
  match s.fn? vf with
  | none => none
  | some f =>
    match f.cmds with
    | [] => none
    | c :: _ => if f.resetting then none else some (f, c, readBlock s f c)

/-- A step of the command with a code: the head of the function's list (R382) (log 72, DESIGN CHOICE). -/
def cmdStep (code vf : Nat) (s : State) (act : State → Fn → Cmd → CmdBlock → CmdOut) : Host.Outcome State Fault Refusal :=
  .next (match headCmd s vf with
    | none => s
    | some (f, _, none) => s.setFn f.vf fun f => { f with cmds := f.cmds.drop 1 }
    | some (f, c, some b) =>
      if !cmdKnown b.code || b.zero != 0 then cmdEnd s f b stBadCmd
      else if b.code != code then s
      else if cmdDenied s f code then cmdEnd s f b stDenied
      else
        match act s f c b with
        | .over st t => cmdEnd t f b st
        | .wait t => t)

/-- Change the command at the head of a function's list. -/
def setCmd (s : State) (vf : Nat) (g : Cmd → Cmd) : State :=
  s.setFn vf fun f => { f with cmds := match f.cmds with | c :: cs => g c :: cs | [] => [] }

/-- Whether an address space is the function's. -/
def ownAsid (s : State) (f : Fn) (asid : Nat) : Bool := s.ctxs.any fun c => c.asid == asid && c.vf == f.vf

/-- Write a command's answer at a destination, page by page; where one cannot be written the bytes before stand (R402). -/
def answerPages (f : Fn) : List (Nat × Nat) → List Byte → State → Bool × State
  | [], _, s => (true, s)
  | (va, k) :: ps, bs, s =>
    match devWrite s f.vf f.asid 0 0 (BitVec.ofNat 64 va) (bs.take k) with
    | .ok t => answerPages f ps (bs.drop k) t
    | .error _ => (false, s)

/-- The same as a command's outcome: OK or BADARG. -/
def answerBytes (s : State) (f : Fn) (va : Nat) (bs : List Byte) : CmdOut :=
  let r := answerPages f (pagesOf va bs.length) bs s
  .over (if r.1 then 0 else stBadArg) r.2

/-- A condition that gives BADARG. -/
def badArg (bad : Bool) (s : State) (k : CmdOut) : CmdOut := if bad then .over stBadArg s else k

/-- A condition that gives DENIED. -/
def denied (bad : Bool) (s : State) (k : CmdOut) : CmdOut := if bad then .over stDenied s else k

/-- The first of a list of conditions with their statuses. -/
def firstStatus (l : List (Bool × Nat)) : Option Nat := (l.find? (·.1)).map (·.2)

/-- Whether a context is live (R306, R376, R391): work of its address space is placed, launched or saved. -/
def ctxLive (s : State) (c : Ctx) : Bool :=
  decide (c.state ≠ .running) || c.image.isSome || s.grids.any (·.asid == c.asid) || s.graphs.any (·.asid == c.asid) ||
  s.channels.any (fun ch => ch.entries.any (·.asid == c.asid)) || s.cores.any fun k => k.mxq.any (·.asid == c.asid)

end Sys2Proof.Machine
end

