-- ==== Sys2Proof/Machine/System.lean ====
section
/-! DEFINITION. Meanings: device time, user events, core counters, system values, residency requests (spec/09 R195 to R199). -/

namespace Sys2Proof.Machine

/-- The largest number a 64-bit register holds. -/
def max64 (n : Nat) : DWord := BitVec.ofNat 64 (min n (2 ^ 64 - 1))

/-- `time` (R195): the value is the DTC at some moment from issue on: device time goes on by a free amount before it is read (R50; log 57, DESIGN CHOICE). -/
def execTimeI (f : WF) (s : State) : Host.Outcome State Fault Refusal :=
  issue (.timeI f) s fun w s =>
    let c := draw s
    let now := { c.2 with time := { c.2.time with dtc := c.2.time.dtc + c.1 } }
    let t := complete w now fun _ => ⟨[], .w64, max64 now.time.dtc⟩
    (byLane w.exec).foldl (fun s l => oweReg s l w.enc 2 true (some (max64 now.time.dtc))) t

/-- `evt` (R196): one record for each lane of `exec`, in ascending order. -/
def execEvt (f : LF) (s : State) : Host.Outcome State Fault Refusal :=
  issue (.evt f) s fun w s =>
    let one (s : State) (l : Fibre) : State :=
      emit s (coreSrc (s.fibreCore l)) (0x1000 + imm16Of w.enc % 256) (s.fibreOp l) (l.src64 (bField w.enc))
        (l.src (aField w.enc)).toNat (s.fibreVf l)
    complete w ((byLane w.exec).foldl one s) fun _ => LaneOut.nothing

/-- The counter events whose counts are times or circuit effects this model leaves out (R322): their value is free when it is read (log 51, DESIGN CHOICE). -/
def freeEvent (ev : Nat) : Bool := ev == 1 || ev == 7 || ev == 8 || ev == 9

/-- The value of counter `n` of a core (R197, R322). -/
def perfValue (s : State) (core n : Nat) : Nat × State :=
  let c := s.core core
  if freeEvent (c.perfEvents.getD n 0) then ((draw s).1 % 2 ^ 48, (draw s).2) else (c.perfCounts.getD n 0 % 2 ^ 48, s)

/-- `perf` (R197): lanes read in ascending order, so that under `.clr` only the first sees the count. -/
def execPerf (f : LF) (s : State) : Host.Outcome State Fault Refusal :=
  issue (.perf f) s fun w s =>
    let n := imm16Of w.enc % 16
    let clr := (modOf w.enc).testBit 0
    match byLane w.exec with
    | [] => complete w s fun _ => LaneOut.nothing
    | l :: _ =>
      let v := perfValue s (s.fibreCore l) n
      let t := if clr then v.2.setCore (s.fibreCore l) fun c => { c with perfCounts := c.perfCounts.set n 0 } else v.2
      complete w t fun g => out64 w.enc (BitVec.ofNat 64 (if clr && g.id != l.id then 0 else v.1))

/-- The graph node whose work a grid is, or 0xFFFFFFFF (R198). -/
def nodeIndex (g : Grid) : Nat :=
  match g.src with
  | .node _ n => n
  | _ => 0xFFFFFFFF

/-- The system values of R198. A function without a counter range has no first index: a free value (log 50, DESIGN CHOICE). -/
def sysValue (s : State) (f : Fibre) (c : Crew) (g : Grid) (n : Nat) : Nat :=
  if n == 0 then f.lane else if n == 1 then f.part else if n == 2 then c.core else if n == 3 then coreCluster c.core
  else if n == 4 then coreDie c.core else if n == 5 then s.dev.dev else if n == 6 then g.vf
  else if n == 7 then c.linear % g.gx else if n == 8 then c.linear / g.gx % g.gy else if n == 9 then c.linear / (g.gx * g.gy)
  else if n == 10 then g.gx else if n == 11 then g.gy else if n == 12 then g.gz else if n == 13 then f.idx
  else if n == 14 then c.nStart else if n == 15 then g.cx else if n == 16 then g.cy else if n == 17 then g.cz
  else if n == 18 then c.scrSize else if n == 19 then f.ws else if n == 20 then g.args.toNat % 2 ^ 32
  else if n == 21 then g.args.toNat / 2 ^ 32 else if n == 22 then s.dev.profile else if n == 23 then nodeIndex g
  else if n == 24 then g.asid
  else
    match (s.fn? g.vf).bind (·.counterBase) with
    | some b => b
    | none => Config.freeNat s.free

/-- `sysr` (R198). -/
def execSysr (f : WIF) (s : State) : Host.Outcome State Fault Refusal :=
  issue (.sysr f) s fun w s =>
    complete w { s with free := s.free + 1 } fun l =>
      match s.fibreCrew l, s.fibreGrid l with
      | some c, some g => out32 w.enc (BitVec.ofNat 32 (sysValue s l c g f.imm8.toNat))
      | _, _ => LaneOut.nothing

/-- One lane of `resreq` (R199): a resident page answers 0 at once; otherwise the firmware holds the request. -/
def resreqLane (w : Issue) (s : State) (f : Fibre) : State :=
  let va := f.src64 (aField w.enc)
  if 2 ^ 57 ≤ va.toNat then parkAddr s f 0x41 va
  else
    match translateWalk s (s.fibreVf f) (s.fibreAsid f) va.toNat .read with
    | .ok _ _ => oweReg s f w.enc 1 false (some 0)
    | _ =>
      let r : ResReq := ⟨s.nextId, s.fibreVf f, s.fibreAsid f, va.toNat / 4096 * 4096, false, 0⟩
      oweReg { s with resReqs := s.resReqs ++ [r] } f w.enc 1 false none

/-- `resreq` (R199). -/
def execResreq (f : LF) (s : State) : Host.Outcome State Fault Refusal :=
  issue (.resreq f) s fun w s => memLanes w s (resreqLane w)

end Sys2Proof.Machine
end

