-- ==== Sys2Proof/Machine/Observe.lean ====
section
/-! DEFINITION. Meanings: the Flue and the Saggar, wait records, sampling, counters, health, the check log, the debugger, reading greenware (spec/18 R309 to
R325, R402; spec/22 R350, R352, R356). -/

namespace Sys2Proof.Machine

/-! ### The Flue and the Saggar -/

/-- Write a record into a ring (R314, R315): the oldest leaves when it is full. -/
def ringPut (r : Ring) (x : Rec) : Ring :=
  let l := r.recs ++ [x]
  { r with recs := l.drop (l.length - r.size), widx := r.widx + 1, dtcw := x.dtc }

/-- The DROP record that comes before the next record of a ring that has dropped some (R313). -/
def ringSettle (now : Nat) (r : Ring) : Ring :=
  if r.newDrops == 0 then r
  else
    ringPut { r with newDrops := 0 }
      ⟨0x0F01, min r.newDrops 0xFFFF, r.id, 0x1000 + 0x2000 * r.dropDie, BitVec.ofNat 64 r.newDrops, BitVec.ofNat 64 r.dropDtc, now⟩

/-- A ring's writer writes a record, behind the DROP record where one is due. -/
def ringWrite (s : State) (id : Nat) (x : Rec) : State := s.setRing id fun r => ringPut (ringSettle s.time.dtc r) x

/-- A record reaches a ring (R313): where the ring's writer is more than 4,096 records behind it is dropped, otherwise it waits there. -/
def ringTake (x : Rec) (r : Ring) : Ring := if 4096 < r.backlog.length then ringDrop x r else { r with backlog := r.backlog ++ [x] }

/-- A ring's writer writes the oldest record that waits there (R315). -/
def ringNext (s : State) (id : Nat) : State :=
  match (s.ring id).backlog with
  | [] => s
  | x :: xs => ringWrite (s.setRing id fun r => { r with backlog := xs }) id x

/-- The Flue takes the oldest record of a source to its ring, or one of the whole device to the device ring and every function ring (R312). -/
def flueTake (s : State) (src : Nat) : State :=
  match s.flue.find? (·.src == src) with
  | none => s
  | some q =>
    match q.recs with
    | [] => s
    | x :: xs =>
      let rest := if xs.isEmpty then s.flue.filter (·.src != src) else mapIf (·.src == src) (fun q => { q with recs := xs }) s.flue
      (ringsOf x.vf).foldl (fun s id => s.setRing id (ringTake x)) { s with flue := rest }

/-- FLUE_WRITE (R312, R313): the Flue brings a record to its ring, whose writer writes it in its turn. -/
def execFlueWrite (what : FlueStep) (s : State) : Host.Outcome State Fault Refusal :=
  .next (match what with
    | .source src => flueTake s src
    | .writer id => ringNext s id)

/-- A record as 32 bytes (R309). -/
def recBytes (x : Rec) : List Byte :=
  natBytes 8 x.dtc ++ natBytes 8 x.op.toNat ++ natBytes 8 x.cause.toNat ++ natBytes 2 x.code ++ natBytes 2 x.src ++ natBytes 2 x.vf ++
    natBytes 2 x.arg

/-- The 64-byte header of R402's answers. -/
def readHeader (next first extra count aux : Nat) : List Byte :=
  natBytes 4 aux ++ natBytes 4 count ++ natBytes 8 extra ++ natBytes 8 first ++ natBytes 8 next ++ natBytes 32 0

/-- The 64-byte header of a ring (R314). -/
def ringHeader (r : Ring) : List Byte :=
  natBytes 8 r.dtcw ++ natBytes 4 r.gen ++ natBytes 4 r.size ++ natBytes 8 r.drops ++ natBytes 8 r.widx ++ natBytes 32 0

/-- Slot `k` of a ring as 32 bytes (R314): record i lies in slot i mod SIZE; a slot that holds none reads zero (log 148, DESIGN CHOICE). -/
def ringSlot (r : Ring) (k : Nat) : List Byte :=
  let oldest := r.widx - r.recs.length
  match (if k < r.size then r.recs[(k + r.size - oldest % r.size) % r.size]? else none) with
  | some x => recBytes x
  | none => natBytes 32 0

/-- Bytes of a ring from an offset on (R314): its header, then its slots. -/
def ringRead (r : Ring) (off n : Nat) : List Byte :=
  (List.range n).map fun i =>
    let o := off + i
    if o < 64 then (ringHeader r).getD o 0 else (ringSlot r ((o - 64) / 32)).getD (o % 32) 0

/-- TRACE_LEVEL (R311). -/
def execTraceLevel (vf : Nat) (s : State) : Host.Outcome State Fault Refusal :=
  cmdStep 0x10 vf s fun s _ _ b =>
    badArg (256 < b.arg 0 || 1 < b.arg 1) s (.over 0 (s.setFn (b.arg 0) fun f => { f with trace := b.arg 1 }))

/-- Bytes of a function ring. -/
def ringBytes (s : State) (id : Nat) : Nat := 64 + 32 * (s.ring id).size

/-- RING_SIZE (R314): bytes, a multiple of 16 MiB, while the ring is empty; the function rings hold at most 30 GiB together. -/
def execRingSize (vf : Nat) (s : State) : Host.Outcome State Fault Refusal :=
  cmdStep 0x11 vf s fun s _ _ b =>
    let others := (((List.range 257).filter (· != b.arg 0)).map (ringBytes s)).foldl (· + ·) 0
    badArg (256 < b.arg 0 || b.arg 1 == 0 || b.arg 1 % 2 ^ 24 != 0 || 30 * 2 ^ 30 < others + b.arg 1 || !(s.ring (b.arg 0)).recs.isEmpty) s
      (.over 0 (s.setRing (b.arg 0) fun r => { r with size := ringSlots (b.arg 1) }))

/-- SAGGAR_READ (R402): at most ARG3 of the kept records from index ARG2 on. -/
def execSaggarRead (vf : Nat) (s : State) : Host.Outcome State Fault Refusal :=
  cmdStep 0x12 vf s fun s f _ b =>
    badArg ((256 < b.arg 0 && b.arg 0 != 0xFFFF) || b.arg 1 % 64 != 0) s
      (let r := s.ring (b.arg 0)
       let oldest := r.widx - r.recs.length
       let first := max (b.arg 2) oldest
       let sel := (r.recs.drop (first - oldest)).take (b.arg 3)
       answerBytes s f (b.arg 1) (readHeader (first + sel.length) first r.drops sel.length r.gen ++ sel.flatMap recBytes))

/-- SAGGAR_CLEAR (R316): the slots, WIDX, DROPS and GEN. -/
def execSaggarClear (vf : Nat) (s : State) : Host.Outcome State Fault Refusal :=
  cmdStep 0x13 vf s fun s _ _ b =>
    badArg (256 < b.arg 0) s (.over 0 (s.setRing (b.arg 0) fun r => { Ring.empty r.id with size := r.size, dtcw := r.dtcw }))

/-! ### Wait records -/

/-- What a reader sees of a waiter: detail (two words), deadline, what it awaits, its operation, function, source, WHO, COND. -/
structure WaitView where
  hi : Nat
  lo : Nat
  deadline : Nat
  await : Nat
  wop : DWord
  vf : Nat
  wsrc : Nat
  who : Nat
  cond : Nat
  nwait : Nat
deriving DecidableEq, Repr

/-- The least of a list, 0 for none. -/
def leastOf (l : List Nat) : Nat := match l with | [] => 0 | x :: xs => xs.foldl min x

/-- The record of a crew's fibres that wait on one object (R317): it names the one that has waited longest. -/
def fibreView (s : State) (w : WaitRec) (f : Fibre) (c : Crew) : WaitView :=
  let base : WaitView :=
    { hi := 0, lo := 0, deadline := 0, await := w.obj, wop := s.fibreOp f, vf := s.fibreVf f, wsrc := coreSrc c.core,
      who := c.slot * 2 ^ 16 + f.idx, cond := 0, nwait := w.members.length }
  match f.status with
  | .waitBar n =>
    let late := ((s.expected c.id).filter fun g => (c.bar n).arrival g.id != some (c.bar n).phase).map (·.idx)
    { base with hi := leastOf late, lo := late.length }
  | .waitGbar n =>
    (match (s.grid? c.grid).bind fun gr => (gr.groups.find? (·.num == n)).map fun g => (gr, g) with
     | none => base
     | some (gr, g) =>
       let here (l : Nat) : Bool := s.crews.any fun x => x.grid == gr.id && x.linear == l && crewArrived s x.id n
       let late := (groupLeft s gr g).filter fun l => !here l
       { base with hi := leastOf late, lo := late.length })
  | .waitSig x =>
    { base with hi := x.last.toNat, lo := x.cmp.toNat, deadline := x.deadline.getD 0, await := x.va.toNat, cond := x.cond }
  | .waitWake x => { base with lo := x.expected.toNat, await := x.va.toNat / 64 * 64 }
  | .waitHandle x => { base with deadline := x.deadline.getD 0, await := x.handle.toNat }
  | _ => base

/-- What a wait record shows (R317) (log 97, DEDUCED). -/
def waitView (s : State) (w : WaitRec) : Option WaitView :=
  if w.kind ≤ 5 then
    (((w.members.head?).bind fun m => s.fibre? m.1).bind fun f => (s.fibreCrew f).map fun c => (f, c)).map fun x => fibreView s w x.1 x.2
  else if w.kind == 6 then
    (s.packet? w.owner).map fun p =>
      let m := unsatisfied s p
      let first := (p.waits.find? fun x => m.testBit x.1).map (·.2.toNat)
      { hi := 0, lo := m, deadline := p.deadline.getD 0, await := first.getD 0, wop := p.op, vf := p.vf, wsrc := queueSrc s p.queue,
        who := p.queue, cond := 0, nwait := 0 }
  else
    (s.coll? w.owner).bind fun c => (((w.members.head?).bind fun m => c.part? m.1)).map fun p =>
      let late := missing s c p
      { hi := leastOf late, lo := late.length, deadline := p.deadline, await := p.op.toNat, wop := c.op, vf := c.vf, wsrc := collSrc p.die,
        who := p.rank, cond := 0, nwait := 0 }

/-- A wait record as 64 bytes (R317). -/
def waitBytes (w : WaitRec) (v : WaitView) : List Byte :=
  natBytes 8 (v.nwait % 2 ^ 24 * 2 ^ 32 + v.cond % 4 * 2 ^ 56 + w.kind % 16 * 2 ^ 60) ++
  natBytes 4 v.who ++ natBytes 2 v.wsrc ++ natBytes 2 v.vf ++ natBytes 8 ((w.members.head?.map (·.2)).getD 0) ++
  natBytes 8 v.wop.toNat ++ natBytes 8 v.await ++ natBytes 8 v.deadline ++ natBytes 8 v.lo ++ natBytes 8 v.hi

/-- Put a record into a list that is sorted by slot. -/
def insertSlot (x : Nat × List Byte) : List (Nat × List Byte) → List (Nat × List Byte)
  | [] => [x]
  | y :: ys => if x.1 < y.1 then x :: y :: ys else y :: insertSlot x ys

/-- The records of a die's table from a slot on that a function may read, in slot order (R318, R402). -/
def waitTable (s : State) (die vf first : Nat) : List (Nat × List Byte) :=
  ((s.waits.filter fun w => w.die == die && first ≤ w.slot).filterMap fun w =>
    (waitView s w).bind fun v => if vf == 0 || v.vf == vf then some (w.slot, waitBytes w v) else none).foldl (fun l x => insertSlot x l) []

/-- Waits that found a die's table full (R318). -/
def waitLost (s : State) (die : Nat) : Nat := ((s.lostWaits.find? (·.1 == die)).map (·.2)).getD 0

/-- A die's whole table with its LOST count (R318), in the form of R402's answers (log 35, DESIGN CHOICE). -/
def waitTableBytes (s : State) (die : Nat) : List Byte :=
  let all := waitTable s die 0 0
  readHeader 65536 0 (waitLost s die) all.length 0 ++ all.flatMap (·.2)

/-- WAIT_READ (R318, R402). -/
def execWaitRead (vf : Nat) (s : State) : Host.Outcome State Fault Refusal :=
  cmdStep 0x14 vf s fun s f _ b =>
    badArg (7 < b.arg 0 || b.arg 1 % 64 != 0 || 65535 < b.arg 2) s
      (let all := waitTable s (b.arg 0) vf (b.arg 2)
       let sel := all.take (b.arg 3)
       let next := if sel.length == all.length then 65536 else match sel.getLast? with | some x => x.1 + 1 | none => b.arg 2
       answerBytes s f (b.arg 1) (readHeader next 0 (waitLost s (b.arg 0)) sel.length 0 ++ sel.flatMap (·.2)))

/-! ### Sampling, counters, health -/

/-- SAMPLE_SET (R320): ARG1 is k, ARG2 the buffer, ARG3 its bytes (log 42, DESIGN CHOICE). -/
def execSampleSet (vf : Nat) (s : State) : Host.Outcome State Fault Refusal :=
  cmdStep 0x15 vf s fun s _ _ b =>
    let n := b.arg 3
    badArg (b.arg 1 < 6 || 20 < b.arg 1 || n < 4096 || 2 ^ 30 < n || 2 ^ n.log2 != n || b.arg 2 % 64 != 0) s
      (.over 0 (s.setFn vf fun f => { f with sampleK := b.arg 1, sampleBuf := some (BitVec.ofNat 64 (b.arg 2), n) }))

/-- The counters of a shared unit. -/
def sharedOf (s : State) (unit : Nat) : SharedCtr := (s.shared.find? (·.unit == unit)).getD ⟨unit, List.replicate 4 ⟨0, 0, 0⟩⟩

/-- A unit with shared counters (R310, R322): copy channels, fabric ports, memory controllers, and stack-cache slices, whose units have bit 16 set. -/
def sharedUnit (u : Nat) : Bool :=
  let cls := u / 2 ^ 9 % 16
  let idx := u % 2 ^ 9
  (u < 2 ^ 16 && ((cls == 4 && idx / 8 == u / 2 ^ 13 && idx < 64) || (cls == 6 && idx / 3 == u / 2 ^ 13 && idx < 24) || (cls == 7 && idx < 64))) ||
    (2 ^ 16 ≤ u && u < 2 ^ 17 && cls == 7 && idx ≤ 64)

/-- A core as a unit. -/
def coreUnit (u : Nat) : Option Nat := if u < 2 ^ 16 && u % 2 ^ 9 < 192 && u == coreSrc (u % 2 ^ 9) then some (u % 2 ^ 9) else none

/-- PERF_SELECT (R322): ARG0 is the unit as SRC of R309, ARG1 the event, ARG3 the counter, ARG4 the function counted (log 42, DESIGN CHOICE). -/
def execPerfSelect (vf : Nat) (s : State) : Host.Outcome State Fault Refusal :=
  cmdStep 0x16 vf s fun s _ _ b =>
    let ev := b.arg 1
    match coreUnit (b.arg 0) with
    | some c =>
      badArg (15 < b.arg 3) s
        (if 15 < ev then .over (stFree 0) s else .over 0 (s.setCore c fun k => { k with perfEvents := k.perfEvents.set (b.arg 3) ev }))
    | none =>
      denied (vf != 0 && b.arg 4 != vf) s
        (badArg (!sharedUnit (b.arg 0) || 3 < b.arg 3 || 256 < b.arg 4) s
          (if ev < 0x40 || 0x46 < ev then .over (stFree 0) s
           else
             let y : SharedCtr := ⟨b.arg 0, (sharedOf s (b.arg 0)).picks.set (b.arg 3) ⟨b.arg 4, ev, 0⟩⟩
             .over 0 { s with shared := s.shared.filter (·.unit != y.unit) ++ [y] }))

/-- PERF_READ (R322): the four counts of a shared unit, 8 bytes each, at ARG2; those that count another function than ARG3 read zero (log 42, DESIGN CHOICE). -/
def execPerfRead (vf : Nat) (s : State) : Host.Outcome State Fault Refusal :=
  cmdStep 0x17 vf s fun s f _ b =>
    denied (vf != 0 && b.arg 3 != vf) s
      (badArg (!sharedUnit (b.arg 0) || 256 < b.arg 3) s
        (answerBytes s f (b.arg 2) ((sharedOf s (b.arg 0)).picks.flatMap fun p => natBytes 8 (if p.vf == b.arg 3 then p.count else 0))))

/-- The health counts in the order of R323, 8 bytes each, then the plug-in calls that failed (R380) and the dropped packets (R332). -/
def healthBytes (s : State) : List Byte :=
  ((List.range 12).map fun i => s.dev.health.getD i 0).flatMap (natBytes 8) ++
  natBytes 8 ((s.fns.map (·.pluginFails)).foldl (· + ·) 0) ++ natBytes 8 s.dev.drops

/-- HEALTH_READ (R323): at ARG2 (log 42, DESIGN CHOICE). -/
def execHealthRead (vf : Nat) (s : State) : Host.Outcome State Fault Refusal :=
  cmdStep 0x18 vf s fun s f _ b => answerBytes s f (b.arg 2) (healthBytes s)

/-! ### The check log -/

/-- An entry of the check log as 32 bytes (R324). -/
def checkBytes (e : CheckEntry) : List Byte :=
  natBytes 8 e.dtc ++ natBytes 8 e.op.toNat ++ natBytes 8 (e.pc.toNat % 2 ^ 57) ++ natBytes 4 e.crew ++ natBytes 2 e.idx ++ natBytes 1 e.num ++
    natBytes 1 e.kind

/-- CHECK_READ (R324, R402). -/
def execCheckRead (vf : Nat) (s : State) : Host.Outcome State Fault Refusal :=
  cmdStep 0x19 vf s fun s f _ b =>
    denied (vf != 0 && b.arg 0 != vf) s
      (badArg (256 < b.arg 0 || b.arg 1 % 64 != 0) s
        (match s.fn? (b.arg 0) with
         | none => .over stBadArg s
         | some g =>
           answerBytes s f (b.arg 1) (readHeader g.checkCount 0 0 g.checkLog.length 0 ++ g.checkLog.flatMap checkBytes)))

/-! ### The debugger -/

/-- DBG_ATTACH (R325): ARG0 the function, ARG1 its address space. -/
def execDbgAttach (vf : Nat) (s : State) : Host.Outcome State Fault Refusal :=
  cmdStep 0x1A vf s fun s _ _ b =>
    badArg (!(s.ctxs.any fun c => c.asid == b.arg 1 && c.vf == b.arg 0)) s (.over 0 (s.setCtx (b.arg 1) fun c => { c with attached := true }))

/-- The debugger is answered: status and value (R325). -/
def dbgAnswer (s : State) (status : Nat) (value : DWord) : State := { s with outbox := s.outbox ++ [.dbg status value] }

/-- A fibre of an attached context, where it is: running or saved. -/
def dbgFibre (s : State) (asid fibre : Nat) : Option Fibre :=
  match s.ctx? asid with
  | none => none
  | some c =>
    if !c.attached then none
    else match s.fibre? fibre with
      | some f => if s.fibreAsid f == asid then some f else none
      | none => ((c.image.map (·.fibres)).getD []).find? (·.id == fibre)

/-- Whether a context is attached. -/
def isAttached (s : State) (asid : Nat) : Bool := ((s.ctx? asid).map (·.attached)).getD false

/-- The live window that holds an entry of a lane's register file on a core (R223). -/
def windowAt (s : State) (asid core part lane n : Nat) : Option (Fibre × Nat) :=
  (s.fibres.find? fun f => f.part == part && f.lane == lane && s.fibreCore f == core && s.fibreAsid f == asid && f.hasWindow &&
    f.wb ≤ n && n < f.wb + f.ws).map fun f => (f, n - f.wb)

/-- A latch as the debugger reads it (R325): a void one returns zero with VOID. -/
def dbgLatch (l : Latch) : Nat × DWord := if l.mark = .void then (3, 0) else (0, l.val)

/-- What a debugger reads of a fibre. -/
def dbgValue (s : State) (asid : Nat) (f : Fibre) (core : Nat) : DbgItem → Nat × DWord
  | .reg n => if n < f.ws && f.hasWindow then (0, (f.reg n).setWidth 64) else (1, 0)
  | .entry c p l n => (match windowAt s asid c p l n with
    | some (g, r) => (0, (g.reg r).setWidth 64)
    | none => (1, 0))
  | .latch n => if n == 60 then dbgLatch f.b0 else if n == 61 then dbgLatch f.b1 else if n == 62 then dbgLatch f.b2 else (1, 0)
  | .tag n => (0, BitVec.ofNat 64 (f.tag n))
  | .pc => (0, f.pc)
  | .attach => (0, 1)
  | .breakpoint i => (0, (((s.ctx? asid).bind fun c => c.breakpoints.find? (·.1 == i)).map (·.2)).getD (BitVec.ofNat 64 core * 0))

/-- A debugger's access to the register file wakes the bank it reaches (R223). -/
def dbgWake (s : State) (f : Fibre) : DbgItem → State
  | .reg n => if n < f.ws && f.hasWindow && (s.fibre? f.id).isSome then wakeBanks s (s.fibreCore f) f.part (banksOf f [n]) else s
  | .entry c p l n => if (windowAt s (s.fibreAsid f) c p l n).isSome then wakeBanks s c p [n / 64] else s
  | _ => s

/-- DEBUG_READ (R223, R325): a read of a drowsy bank wakes it. -/
def execDebugRead (asid fibre : Nat) (what : DbgItem) (s : State) : Host.Outcome State Fault Refusal :=
  .next (match dbgFibre s asid fibre with
    | none => dbgAnswer s (if isAttached s asid then 1 else 4) 0
    | some f => let r := dbgValue s asid f (s.fibreCore f) what; dbgAnswer (dbgWake s f what) r.1 r.2)

/-- Whether the debugger holds a fibre. -/
def Fibre.isHeld (f : Fibre) : Bool := decide (f.status = .debugHeld)

/-- Change a fibre that runs or is saved. -/
def dbgSet (s : State) (asid fibre : Nat) (g : Fibre → Fibre) : State :=
  let inImage (i : Image) : Image := { i with fibres := mapIf (·.id == fibre) g i.fibres }
  (s.setFibre fibre g).setCtx asid fun c => { c with image := c.image.map inImage }

/-- DEBUG_WRITE (R325): registers of held fibres alone; breakpoints belong to the context, up to eight, and a value with bit 0 set clears one; the
management path attaches the debugger here too (log 43, DESIGN CHOICE). -/
def execDebugWrite (asid fibre : Nat) (what : DbgItem) (value : DWord) (s : State) : Host.Outcome State Fault Refusal :=
  .next (match what with
    | .breakpoint i =>
      if !isAttached s asid then dbgAnswer s 4 0
      else if 8 ≤ i then dbgAnswer s 1 0
      else
        let put (c : Ctx) : Ctx :=
          { c with breakpoints := c.breakpoints.filter (·.1 != i) ++ (if value.getLsbD 0 then [] else [(i, value)]) }
        dbgAnswer (s.setCtx asid put) 0 0
    | .attach => if (s.ctx? asid).isSome then dbgAnswer (s.setCtx asid fun c => { c with attached := true }) 0 0 else dbgAnswer s 4 0
    | .reg n =>
      (match dbgFibre s asid fibre with
       | none => dbgAnswer s (if isAttached s asid then 1 else 4) 0
       | some f =>
         if !f.isHeld then dbgAnswer s 2 0
         else if n < f.ws then dbgAnswer (dbgWake (dbgSet s asid fibre fun g => g.setReg n (lo32 value)) f what) 0 0
         else dbgAnswer s 1 0)
    | .entry c p l n =>
      (match windowAt s asid c p l n with
       | none => dbgAnswer s (if isAttached s asid then 1 else 4) 0
       | some (f, r) =>
         if !isAttached s asid then dbgAnswer s 4 0
         else if !f.isHeld then dbgAnswer s 2 0
         else dbgAnswer (dbgWake (dbgSet s asid f.id fun g => g.setReg r (lo32 value)) f what) 0 0)
    | _ => dbgAnswer s 4 0)

/-- The held lanes of a cohort in an attached context. -/
def heldLanes (s : State) (asid cohort : Nat) : List Nat :=
  (s.fibres.filter fun f => f.cohort == cohort && f.isHeld && s.fibreAsid f == asid).map (·.id)

/-- DEBUG_STEP (R325): the cohort is released for one issue. -/
def execDebugStep (asid cohort : Nat) (s : State) : Host.Outcome State Fault Refusal :=
  let ids := heldLanes s asid cohort
  .next (if !isAttached s asid then dbgAnswer s 4 0
    else if ids.isEmpty then dbgAnswer s 2 0
    else
      let t := s.setFibres ids fun f => { f with status := .ready }
      dbgAnswer (t.setCtx asid fun c => { c with stepping := c.stepping.filter (fun p => !ids.contains p.1) ++ ids.map fun i => (i, 1) }) 0 0)

/-- DEBUG_RELEASE (R86): the debugger lets a held cohort go, past the breakpoint at which it stands. -/
def execDebugRelease (asid cohort : Nat) (s : State) : Host.Outcome State Fault Refusal :=
  let ids := heldLanes s asid cohort
  .next (if !isAttached s asid then dbgAnswer s 4 0
    else if ids.isEmpty then dbgAnswer s 2 0
    else
      let t := s.setFibres ids fun f => { f with status := .ready }
      dbgAnswer (t.setCtx asid fun c => { c with stepping := c.stepping.filter (fun p => !ids.contains p.1) ++ ids.map fun i => (i, 0) }) 0 0)

/-! ### Greenware tables -/

/-- A table entry as 32 bytes (R350). -/
def gwBytes (e : GwEntry) : List Byte :=
  natBytes 8 (e.state % 4 + e.deps.length % 32 * 2 ^ 62) ++
  natBytes 8 (e.deps.length % 32 / 4 + e.queue.length % 32 * 2 ^ 3 + e.code % 256 * 2 ^ 8 + e.vf % 512 * 2 ^ 16 + e.gen % 65536 * 2 ^ 32 +
    e.ldie % 16 * 2 ^ 48 + e.ldev % 4096 * 2 ^ 52) ++
  natBytes 8 e.whenDtc ++ natBytes 8 e.op.toNat

/-- GREEN_READ (R350): at ARG2 (log 42, DESIGN CHOICE). -/
def execGreenRead (vf : Nat) (s : State) : Host.Outcome State Fault Refusal :=
  cmdStep 0x1B vf s fun s f _ b =>
    let e := s.gwEntry (b.arg 0) (b.arg 1)
    denied (vf != 0 && e.vf != vf) s
      (badArg (7 < b.arg 0 || 65535 < b.arg 1) s (answerBytes s f (b.arg 2) (gwBytes e)))

/-- GREEN_QUOTA (R352, R356). -/
def execGreenQuota (vf : Nat) (s : State) : Host.Outcome State Fault Refusal :=
  cmdStep 0x1C vf s fun s _ _ b =>
    badArg (256 < b.arg 0 || 65536 < b.arg 1 || b.arg 2 < 1000 || 3600000000 < b.arg 2) s
      (.over 0 (s.setFn (b.arg 0) fun f => { f with quotaGreen := b.arg 1, retention := b.arg 2 }))

/-! ### Reads from outside -/

/-- A read through the management path (R314, R318, R323, R350), which passes through no engine. -/
def pathBytes (s : State) (n : Nat) : PathRead → List Byte
  | .ring id off => ringRead (s.ring id) off n
  | .waits die => waitTableBytes s die
  | .health => healthBytes s
  | .green die idx => gwBytes (s.gwEntry die idx)

/-- BAR_READ (R264, R383): the host reads `n` bytes of a register of BAR0, of its function's own ring through BAR2 (R314), or of memory through BAR4; the
management path is served here too. -/
def execBarRead (vf : Nat) (what : OutRead) (n : Nat) (s : State) : Host.Outcome State Fault Refusal :=
  .next (match what with
    | .mem gpa => barMemRead vf gpa n s
    | .reg off => if hostUp s then { s with outbox := s.outbox ++ [.host vf ((natBytes 8 (regRead s vf off)).take n)] } else s
    | .ring off => if hostUp s && (s.fn? vf).isSome then { s with outbox := s.outbox ++ [.host vf (ringRead (s.ring vf) off n)] } else s
    | .path p => { s with outbox := s.outbox ++ [Out.mgmt (pathBytes s n p)] })

end Sys2Proof.Machine
end

