-- ==== Sys2Proof/Machine/CmdMore.lean ====
section
/-! DEFINITION. Meanings: communicators, checkpoints and spares, exports, management messages (spec/20 R339, R344, R403; spec/25 R393 to R396). What firmwares
tell each other about checkpoints has no format in the spec: it is the model's own (log 35, DESIGN CHOICE). -/

namespace Sys2Proof.Machine

/-! ### Communicators -/

/-- COMM_CREATE (R339): ARG2 the number of entries, ARG3 whether the fabric manager has prepared a switch group (log 42, DESIGN CHOICE); an entry is device, die, PKEY in
eight bytes. -/
def execCommCreate (vf : Nat) (s : State) : Host.Outcome State Fault Refusal :=
  cmdStep 0x20 vf s fun s f _ b =>
    let n := b.arg 2
    badArg (b.arg 0 == 0 || 4095 < b.arg 0 || n < 2 || 32768 < n || 1 < b.arg 3 || s.comms.any (fun c => c.vf == vf && c.id == b.arg 0) ||
        f.quotaComms ≤ (s.comms.filter (·.vf == vf)).length) s
      (match devRead s vf f.asid (BitVec.ofNat 64 (b.arg 1)) (8 * n) with
       | .error _ => .over stBadArg s
       | .ok bs =>
         let es := (List.range n).map fun i => bytesNat ((bs.drop (8 * i)).take 8)
         badArg (es.any fun e => 4095 < natBits e 15 0 || 7 < natBits e 31 16 || natBits e 63 48 != 0) s
           (.over 0 { s with comms := s.comms ++
             [⟨vf, b.arg 0, es.map fun e => (natBits e 15 0, natBits e 31 16, natBits e 47 32), b.arg 3 == 1, [], [], []⟩] }))

/-- COMM_ADMIT (R344): ARG0 the communicator, then rank, device, die. A rank that comes to this device joins at an instance that the spec does not name: a
free value (log 107, DESIGN CHOICE). -/
def execCommAdmit (vf : Nat) (s : State) : Host.Outcome State Fault Refusal :=
  cmdStep 0x21 vf s fun s _ _ b =>
    match s.comms.find? fun c => c.vf == vf && c.id == b.arg 0 with
    | none => .over stBadArg s
    | some c =>
      match c.ranks[b.arg 1]? with
      | none => .over stBadArg s
      | some old =>
        badArg (4095 < b.arg 2 || 7 < b.arg 3) s
          (let new := b.arg 2 == s.dev.dev && old.1 != s.dev.dev
           let d := draw s
           let put (m : Comm) : Comm :=
             { m with ranks := m.ranks.set (b.arg 1) (b.arg 2, b.arg 3, old.2.2), excluded := m.excluded.filter (· != b.arg 1),
                      started := if new then m.started.filter (·.1 != b.arg 1) ++ [(b.arg 1, d.1)] else m.started }
           .over 0 (collGo ((if new then d.2 else s).setComm vf (b.arg 0) put)))

/-! ### Checkpoints -/

/-- A message to the firmware of another device, under the function's partition key. -/
def tellPeer (s : State) (f : Fn) (dev : Nat) (m : MgmtMsg) : State :=
  { s with outbox := s.outbox ++ [Out.peer dev (f.pkey.getD 0) m] }

/-- The entries of a state-set list (R393). -/
def stateSet (bs : List Byte) : List (Nat × Nat) :=
  (List.range (bs.length / 16)).map fun i => (bytesNat ((bs.drop (16 * i)).take 8), bytesNat ((bs.drop (16 * i + 8)).take 8))

/-- Bytes of a state set. -/
def setBytes (l : List (Nat × Nat)) : Nat := (l.map (·.2)).foldl (· + ·) 0

/-- An entry that breaks a limit of R393. -/
def setEntryBad (e : Nat × Nat) : Bool := e.1 % 4096 != 0 || e.2 % 4096 != 0 || e.2 == 0 || 2 ^ 57 < e.1 + e.2

/-- Whether the answer of another device will not come: it is lost, or 200 microseconds have gone by (R337, R394) (log 109, DESIGN CHOICE). -/
def noAnswer (s : State) (dev due : Nat) : Bool := s.dev.lostDevs.contains dev || due ≤ s.time.dtc

/-- CKPT_SET (R393): the partner's firmware is asked to reserve two slots; NOPARTNER is 1. Phase 1 awaits it, phases 2 and 3 are its answer. -/
def execCkptSet (vf : Nat) (s : State) : Host.Outcome State Fault Refusal :=
  cmdStep 0x22 vf s fun s f c b =>
    denied (!ownAsid s f (b.arg 0)) s
      (badArg (4095 < b.arg 1 || b.arg 1 == s.dev.dev || b.arg 3 == 0 || 64 < b.arg 3) s
        (match devRead s vf f.asid (BitVec.ofNat 64 (b.arg 2)) (16 * b.arg 3) with
         | .error _ => .over stBadArg s
         | .ok bs =>
           let l := stateSet bs
           badArg (l.any setEntryBad || 160 * 2 ^ 30 < setBytes l) s
             (if c.phase == 2 then .over 0 (s.setFn vf fun f => { f with ckpt := some ⟨b.arg 0, b.arg 1, l, 0, 0⟩ })
              else if c.phase == 3 then .over 1 s
              else if c.phase == 0 && !s.dev.lostDevs.contains (b.arg 1) then
                .wait (setCmd (tellPeer s f (b.arg 1) (.reserve vf (setBytes l))) vf fun c =>
                  { c with phase := 1, due := s.time.dtc + usTicks 200 })
              else if noAnswer s (b.arg 1) c.due then .over 1 s
              else .wait s)))

/-- Copy entries of the state set into the partner's slot; none where a page cannot be read. -/
def sendSet (f : Fn) (k : Ckpt) : List (Nat × Nat) → State → Option State
  | [], s => some s
  | e :: es, s =>
    match devRead s f.vf k.asid (BitVec.ofNat 64 e.1) e.2 with
    | .error _ => none
    | .ok bs => sendSet f k es (tellPeer s f k.partner (.slotData k.slot e.1 bs))

/-- CKPT_TAKE (R393): the copy begins; how many entries are copied at once is left open. A checkpoint that cannot be taken has no status of its own in
the spec: a free one (log 110, DESIGN CHOICE). -/
def execCkptTake (vf : Nat) (s : State) : Host.Outcome State Fault Refusal :=
  cmdStep 0x23 vf s fun s f c b =>
    denied (!ownAsid s f (b.arg 0)) s
      (match f.ckpt with
       | none => .over stBadArg s
       | some k =>
         if c.phase != 0 then .wait s
         else badArg (k.asid != b.arg 0 || b.arg 1 ≤ k.epoch) s
           (let n := choose s (k.set.length + 1)
            match sendSet f k (k.set.take n.1) n.2 with
            | none => .over (stFree 2) s
            | some t => .wait (setCmd t vf fun c => { c with phase := 5, due := n.1 })))

/-- CKPT_TAKE_DONE (R393): the rest is copied and the slot marked complete with the epoch once its bytes are applied; the partner's answer ends the command.
From then on the other slot takes the next one. -/
def execCkptTakeDone (vf : Nat) (s : State) : Host.Outcome State Fault Refusal :=
  cmdStep 0x23 vf s fun s f c b =>
    denied (!ownAsid s f (b.arg 0)) s
      (match f.ckpt with
       | none => if c.phase == 0 then .wait s else .over (stFree 2) s
       | some k =>
         if c.phase == 0 then .wait s
         else if c.phase == 2 then .over 0 (s.setFn vf fun f => { f with ckpt := some { k with epoch := b.arg 1, slot := 1 - k.slot } })
         else if c.phase == 3 || s.dev.lostDevs.contains k.partner then .over (stFree 2) s
         else if c.phase == 5 then
           (match sendSet f k (k.set.drop c.due) s with
            | none => .over (stFree 2) s
            | some t => .wait (setCmd (tellPeer t f k.partner (.slotComplete vf k.slot (b.arg 1))) vf fun c => { c with phase := 1 }))
         else .wait s)

/-- The newest drained copy that a function holds for a device, by epoch (R393). -/
def newestFlash (s : State) (vf dev : Nat) : Option (Nat × List (Nat × List Byte)) :=
  let l := (s.dev.partner.filter fun x => x.vf == vf && x.dev == dev).filterMap (·.flash)
  let top := (l.map (·.1)).foldl max 0
  l.find? (·.1 == top)

/-- CKPT_READ (R393): the pieces of the copy one behind the other (log 111, DESIGN CHOICE). -/
def execCkptRead (vf : Nat) (s : State) : Host.Outcome State Fault Refusal :=
  cmdStep 0x24 vf s fun s f _ b =>
    match newestFlash s vf (b.arg 0) with
    | none => .over stBadArg s
    | some x => answerBytes s f (b.arg 1) (x.2.flatMap (·.2))

/-! ### Spares -/

/-- Write pieces into an address space; none where a page cannot be written. -/
def fillPieces (f : Fn) (asid : Nat) : List (Nat × List Byte) → State → Option State
  | [], s => some s
  | (va, bs) :: l, s =>
    match devWrite s f.vf asid 0 0 (BitVec.ofNat 64 va) bs with
    | .ok t => fillPieces f asid l t
    | .error _ => none

/-- A given copy in the caller's memory, cut along the state-set list of the function (R393). -/
def givenCopy (s : State) (f : Fn) (va : Nat) : List (Nat × Nat) → Option (List (Nat × List Byte))
  | [] => some []
  | e :: es =>
    match devRead s f.vf f.asid (BitVec.ofNat 64 va) e.2, givenCopy s f (va + e.2) es with
    | .ok bs, some l => some ((e.1, bs) :: l)
    | _, _ => none

/-- SPARE_FILL (R393): from the partner's memory, whose answer phases 2 and 3 hold; or from the caller's, whose epoch is not stated: a free value. -/
def execSpareFill (vf : Nat) (s : State) : Host.Outcome State Fault Refusal :=
  cmdStep 0x25 vf s fun s f c b =>
    denied (!ownAsid s f (b.arg 2)) s
      (badArg (4095 < b.arg 0 || 4095 < b.arg 1 || 1 < b.arg 3 || (b.arg 3 == 1 && f.ckpt.isNone)) s
        (if c.phase != 0 then .wait s
         else if b.arg 3 == 0 then
           (if s.dev.lostDevs.contains (b.arg 1) then .over 0x8001 s
            else .wait (setCmd ((tellPeer s f (b.arg 1) (.fillAsk vf (b.arg 0))).setFn vf fun f =>
              { f with spareFrom := some (b.arg 1, b.arg 2) }) vf fun c => { c with phase := 1, due := 0 }))
         else
           match (givenCopy s f (b.arg 4) ((f.ckpt.map (·.set)).getD [])).bind fun l => fillPieces f (b.arg 2) l s with
           | none => .over 0x8001 s
           | some t =>
             let d := draw t
             .wait (setCmd d.2 vf fun c => { c with phase := 2, due := d.1 })))

/-- SPARE_FILL_DONE (R393, R395): the epoch, or 0x8001 where the source has failed. -/
def execSpareFillDone (vf : Nat) (sourceOk : Bool) (s : State) : Host.Outcome State Fault Refusal :=
  cmdStep 0x25 vf s fun s f c b =>
    denied (!ownAsid s f (b.arg 2)) s
      (let t := s.setFn vf fun f => { f with spareFrom := none }
       if c.phase == 0 then .wait s
       else if c.phase == 2 && sourceOk then .over (c.due % 2 ^ 16) t
       else if c.phase == 3 || !sourceOk || s.dev.lostDevs.contains (b.arg 1) then .over 0x8001 t
       else .wait s)

/-! ### The partner's side -/

/-- Take `n` bytes out of a pool; none where it lacks them. -/
def takePool (n : Nat) : List (Nat × Nat) → Option (List (Nat × Nat) × List (Nat × Nat))
  | [] => if n == 0 then some ([], []) else none
  | (a, k) :: l =>
    if n ≤ k then some (if n == 0 then [] else [(a, n)], ((a + n, k - n) :: l).filter (·.2 != 0))
    else (takePool (n - k) l).map fun r => ((a, k) :: r.1, r.2)

/-- The firmware reserves two slots for another device's checkpoints in the memory of the function with its key (R393, R396). -/
def reserveSlots (s : State) (vf dev bytes : Nat) : Option State :=
  match s.fn? vf with
  | none => none
  | some f =>
    let old := s.dev.partner.filter fun x => x.vf == vf && x.dev == dev
    let rest := s.dev.partner.filter fun x => !(x.vf == vf && x.dev == dev)
    let inFlash := (rest.map (·.bytes)).foldl (· + ·) 0
    let pool := f.pool ++ old.flatMap (·.frames)
    if 2 ^ 41 < inFlash + 2 * bytes then none
    else
      match takePool bytes pool with
      | none => none
      | some p1 =>
        match takePool bytes p1.2 with
        | none => none
        | some p2 =>
          let keep (n : Nat) : Option (Nat × List (Nat × List Byte)) := (old.find? (·.slot == n)).bind (·.flash)
          let mk (n : Nat) (fr : List (Nat × Nat)) : PartnerSlot :=
            { dev := dev, vf := vf, slot := n, bytes := bytes, epoch := 0, complete := false, data := [], flash := keep n, frames := fr }
          some ({ s with dev := { s.dev with partner := rest ++ [mk 0 p1.1, mk 1 p2.1] } }.setFn vf fun f => { f with pool := p2.2 })

/-- Change a slot held for a device. -/
def setSlot (s : State) (vf dev slot : Nat) (g : PartnerSlot → PartnerSlot) : State :=
  { s with dev := { s.dev with partner := mapIf (fun x => x.vf == vf && x.dev == dev && x.slot == slot && x.bytes != 0) g s.dev.partner } }

/-- The newest complete slot held for a device (R393). -/
def newestSlot (s : State) (vf dev : Nat) : Option PartnerSlot :=
  let l := s.dev.partner.filter fun x => x.vf == vf && x.dev == dev && x.complete
  let top := (l.map (·.epoch)).foldl max 0
  l.find? (·.epoch == top)

/-- Serve what another device's firmware asks of the function with its key. -/
def servePeer (s : State) (f : Fn) (src : Nat) (m : MgmtMsg) : State :=
  match m with
  | .reserve ref bytes =>
    (match reserveSlots s f.vf src bytes with
     | some t => tellPeer t f src (.partnerAnswer ref true)
     | none => tellPeer s f src (.partnerAnswer ref false))
  | .slotData slot va data =>
    setSlot s f.vf src slot fun x => { x with complete := false, epoch := 0, data := x.data.filter (·.1 != va) ++ [(va, data)] }
  | .slotComplete ref slot epoch =>
    let ok := s.dev.partner.any fun x => x.vf == f.vf && x.dev == src && x.slot == slot && x.bytes != 0
    tellPeer (setSlot s f.vf src slot fun x => { x with complete := true, epoch := epoch }) f src (.partnerAnswer ref ok)
  | .fillAsk ref dev =>
    (match newestSlot s f.vf dev with
     | none => tellPeer s f src (.fillEnd ref 0 false)
     | some x => tellPeer (x.data.foldl (fun s d => tellPeer s f src (.fillData ref d.1 d.2)) s) f src (.fillEnd ref x.epoch true))
  | _ => s

/-- A command in a phase that awaits an answer takes it. -/
def takeAnswerOf (s : State) (vf : Nat) (ok : Bool) (due : Nat → Nat) : State :=
  setCmd s vf fun c => if c.phase == 1 then { c with phase := if ok then 2 else 3, due := due c.due } else c

/-- What a management message does at once (R318, R332, R393, R403): the management controller serves it. -/
def serveMgmt (s : State) (p : FabPkt) (m : MgmtMsg) : State :=
  match m with
  | .waitRead die => { s with outbox := s.outbox ++ [Out.mgmt (waitTableBytes s die)] }
  | .unexportAck vf => takeAnswerOf s vf true id
  | .partnerAnswer vf ok => takeAnswerOf s vf ok id
  | .fillEnd vf epoch ok => takeAnswerOf s vf ok fun _ => epoch
  | .fillData vf va data =>
    (match s.fn? vf with
     | some f =>
       (match f.spareFrom with
        | some (d, asid) =>
          if d != p.srcdev.toNat then s
          else match fillPieces f asid [(va, data)] s with
            | some t => t
            | none => takeAnswerOf s vf false id
        | none => s)
     | none => s)
  | _ =>
    match (keyFn s p.pkey).bind s.fn? with
    | some f => if s.dev.dstate == 2 then s else servePeer s f p.srcdev.toNat m
    | none => s

/-- MGMT (R332): a management packet is served at once, whatever waits on its virtual channel before it; its SEQ counts like any other. -/
def execMgmt (p : FabPkt) (m : MgmtMsg) (s : State) : Host.Outcome State Fault Refusal :=
  if p.op == 0x30 && !pktBad p && p.dstdev.toNat == s.dev.dev then arrive 0x30 (serveMgmt s p m) p else arrive 0x30 s p

/-- SLOT_DRAIN_DONE (R393): a complete slot is in module flash. -/
def execSlotDrainDone (dev slot : Nat) (s : State) : Host.Outcome State Fault Refusal :=
  let put (x : PartnerSlot) : PartnerSlot := { x with flash := some (x.epoch, x.data) }
  .next { s with dev := { s.dev with partner := mapIf (fun x => x.dev == dev && x.slot == slot && x.complete) put s.dev.partner } }

/-! ### Exports -/

/-- Make the pages of an exported range resident (R403): none where stage 2 does not map one for the function. -/
def exportPages (vf : Nat) : List Nat → State → Option State
  | [], s => some s
  | g :: gs, s =>
    match validLeaf s vf g with
    | none => none
    | some (_, e, _) =>
      if e.testBit 11 then none
      else if e.testBit 5 then exportPages vf gs s
      else match fillLeaf s vf g with
        | some t => exportPages vf gs t
        | none => none

/-- EXPORT (R403) (log 112, DEDUCED). -/
def execExportMem (vf : Nat) (s : State) : Host.Outcome State Fault Refusal :=
  cmdStep 0x26 vf s fun s _ _ b =>
    badArg (b.arg 0 % 65536 != 0 || b.arg 1 % 65536 != 0 || b.arg 1 == 0) s
      (match exportPages vf ((List.range (b.arg 1 / 4096)).map fun i => b.arg 0 + 4096 * i) s with
       | none => .over stBadArg s
       | some t => .over 0 (t.setFn vf fun f => { f with exports := f.exports.filter (· != (b.arg 0, b.arg 1)) ++ [(b.arg 0, b.arg 1)] }))

/-- The export ends: accesses that arrive from now on are denied. -/
def endExport (s : State) (vf : Nat) (e : Nat × Nat) : State := s.setFn vf fun f => { f with exports := f.exports.filter (· != e) }

/-- UNEXPORT (R403): the fabric manager is asked to withdraw the import from every importer; phase 2 is its answer for all of them (log 108, DESIGN CHOICE). -/
def execUnexportMem (vf : Nat) (s : State) : Host.Outcome State Fault Refusal :=
  cmdStep 0x27 vf s fun s f c b =>
    badArg (!f.exports.contains (b.arg 0, b.arg 1)) s
      (if c.phase == 0 then
         .wait (setCmd { s with outbox := s.outbox ++ [Out.withdraw vf (b.arg 0) (b.arg 1)] } vf fun c =>
           { c with phase := 1, due := s.time.dtc + usTicks 200000 })
       else if c.phase == 2 then .over 0 (endExport s vf (b.arg 0, b.arg 1))
       else .wait s)

/-- UNEXPORT_TIMEOUT (R403): after 200 ms the command completes without the missing answers. -/
def execUnexportTimeout (vf : Nat) (s : State) : Host.Outcome State Fault Refusal :=
  cmdStep 0x27 vf s fun s f c b =>
    badArg (!f.exports.contains (b.arg 0, b.arg 1)) s
      (if c.phase == 1 && c.due ≤ s.time.dtc then .over 0 (endExport s vf (b.arg 0, b.arg 1)) else .wait s)

/-- PKEY_INSTALL (R403): the fabric manager installs a key, an importer's stage-2 leaf with REM = 1, or takes one away. -/
def execPkeyInstall (vf : Nat) (what : FmInstall) (s : State) : Host.Outcome State Fault Refusal :=
  .next (if 256 < vf then s
    else
      match what with
      | .key k => s.setFn vf fun f => { f with pkey := some k.toNat }
      | .leaf gpa dev addr w x =>
        let e := 0x23 + (if w then 8 else 0) + (if x then 16 else 0) + 2 ^ 11 + addr / 4096 % 2 ^ 40 * 4096 + dev % 4096 * 2 ^ 52
        (mapLeaf s vf (gpa / 4096 * 4096) 1 e).getD s
      | .withdraw gpa =>
        match validLeaf s vf gpa with
        | some (a, e, _) => if e.testBit 11 && bumpReadyFn s vf then bumpFn (putEntry s a 0) vf else s
        | none => s)

end Sys2Proof.Machine
end

