-- ==== Sys2Proof/Machine/Commands.lean ====
section
/-! DEFINITION. Meanings: the commands over queues, decode maps, view regions, templates, generations, residency and KILL (spec/02 R15, R35, R36; spec/03
R53; spec/13 R241; spec/15 R270; spec/17 R301; spec/24 R368; spec/25 R384). -/

namespace Sys2Proof.Machine

/-! ### Queues -/

/-- A queue number that is free: the first from a free start on. -/
def freeQueue (s : State) : Option Nat × State :=
  let used := s.queues.map (·.qnum)
  let d := choose s 65536
  if 65536 ≤ used.length then (none, s)
  else (((List.range (used.length + 1)).map fun i => (d.1 + i) % 65536).find? fun n => !used.contains n, d.2)

/-- QUEUE_CREATE (R15, R36). -/
def execQueueCreate (vf : Nat) (s : State) : Host.Outcome State Fault Refusal :=
  cmdStep 1 vf s fun s f _ b =>
    let q := freeQueue s
    let full := q.1.isNone || f.quotaQueues ≤ (s.queues.filter (·.vf == vf)).length
    let desc := translateWalk s vf f.asid (b.arg 0) .write
    let ring := match translateWalk s vf f.asid (b.arg 1) .read with | .ok _ _ => true | _ => false
    badArg (b.arg 2 < 3 || 16 < b.arg 2 || 7 < b.arg 3 || 1 < b.arg 4) s
      (if full then .over 1 s
       else if b.arg 0 % 64 != 0 || 2 ^ 57 ≤ b.arg 0 || !inWindow s f (b.arg 0) || b.arg 1 % 4096 != 0 || 2 ^ 57 ≤ b.arg 1 || !ring then
         .over 2 s
       else
         match desc with
         | .ok spa _ =>
           let x : Queue :=
             { qnum := q.1.getD 0, vf := vf, asid := f.asid, descVa := BitVec.ofNat 64 (b.arg 0), desc := spa % 2 ^ 49,
               ring := BitVec.ofNat 64 (b.arg 1), logsz := b.arg 2, prio := b.arg 3, effPrio := b.arg 3, enqOk := b.arg 4 == 1, state := .idle,
               rdidx := 0, abort := 0, abcid := 0, slot := none, waitSince := 0, mappedAt := 0, look := false, pubs := [] }
           .over 0 (writeDesc ((q.2.putBytes x.desc (List.replicate 64 0))) x |> fun t => { t with queues := t.queues ++ [x] })
         | _ => .over 2 s)

/-- A command on a queue of the function: another's, or a number that names none, is DENIED (R36). -/
def onQueue (s : State) (f : Fn) (n : Nat) (k : Queue → CmdOut) : CmdOut :=
  match s.queue? n with
  | some q => if q.vf == f.vf then k q else .over stDenied s
  | none => .over stDenied s

/-- Whether an ABORTED queue is drained (R35): every packet up to a write index has been fetched and completed under R12. -/
def isDrained (s : State) (q : Queue) (upto : Nat) : Bool :=
  upto ≤ q.rdidx && !(s.packets.any fun p => p.queue == q.qnum && decide (p.state = .fetched))

/-- QUEUE_RESET (R35, R36): every packet up to the WRIDX that it read on arrival is drained first; on an ABORTED queue it waits for the drain. -/
def execQueueReset (vf : Nat) (s : State) : Host.Outcome State Fault Refusal :=
  cmdStep 2 vf s fun s f c b =>
    onQueue s f (b.arg 0) fun q =>
      let upto := if c.phase == 0 then s.wridx q else c.due
      let clear (s : State) : CmdOut :=
        if ((s.queue? q.qnum).map fun x => isDrained s x upto).getD true then
          .over 0 (updQueue s q.qnum fun q => { q with abort := 0, abcid := 0, state := .idle })
        else .wait (setCmd s vf fun c => { c with phase := 1, due := upto })
      if q.state = .idle then clear (drainUpto q.qnum upto (upto - q.rdidx) s)
      else if decide (q.state ≠ .aborted) then .over 3 s
      else clear s

/-- QUEUE_SET (R36, R37). -/
def execQueueSet (vf : Nat) (s : State) : Host.Outcome State Fault Refusal :=
  cmdStep 3 vf s fun s f _ b =>
    onQueue s f (b.arg 0) fun q =>
      badArg (7 < b.arg 1 || 1 < b.arg 2) s
        (.over 0 (updQueue s q.qnum fun q =>
           { q with prio := b.arg 1, effPrio := effOf s { q with prio := b.arg 1 }, enqOk := b.arg 2 == 1 }))

/-- A queue is gone: its number is free again; its started packets run to their end (log 40, DEDUCED). -/
def dropQueue (s : State) (qn : Nat) : State :=
  let off (p : Packet) : Packet := { p with queue := 65536 }
  { s with queues := s.queues.filter (·.qnum != qn), packets := mapIf (·.queue == qn) off s.packets, clocks := (s.dropClock (.queue qn)).clocks }

/-- QUEUE_DESTROY (R36): an ABORTED queue is drained first. -/
def execQueueDestroy (vf : Nat) (s : State) : Host.Outcome State Fault Refusal :=
  cmdStep 0x0D vf s fun s f c b =>
    onQueue s f (b.arg 0) fun q =>
      if q.state = .idle then .over 0 (dropQueue s q.qnum)
      else if decide (q.state ≠ .aborted) then .over 3 s
      else
        let upto := if c.phase == 0 then s.wridx q else c.due
        if isDrained s q upto then .over 0 (dropQueue s q.qnum)
        else .wait (setCmd s vf fun c => { c with phase := 1, due := upto })

/-! ### Decode maps -/

/-- A valid entry for 0x000 to 0x37F (R53). -/
def entryValid (e : Nat) : Bool :=
  let o := e % 1024
  e == 0xFFFF || (!entryUndefined e && map0 o != 0xFFFF && (List.range 4).all fun i => !e.testBit (10 + i) || (map0 o).testBit (10 + i))

/-- Whether a crew of a context, or a kernel packet that has been fetched for it, selects a map (R53). -/
def mapBusy (s : State) (asid m : Nat) : Bool :=
  s.grids.any (fun g => g.asid == asid && g.map == m) ||
  s.packets.any fun p => p.typ == 1 && p.asid == asid && decide (p.state = .fetched) &&
    (match devNat s p.vf asid (BitVec.ofNat 64 (natBits p.num 255 192)) 64 with
     | .ok d => natBits d 194 192 == m
     | .error _ => false)

/-- DECODE_LOAD (R53). -/
def execDecodeLoad (vf : Nat) (s : State) : Host.Outcome State Fault Refusal :=
  cmdStep 4 vf s fun s f _ b =>
    denied (!ownAsid s f (b.arg 0)) s
      (match devRead s vf f.asid (BitVec.ofNat 64 (b.arg 2)) 2048 with
       | .error _ => .over stBadArg s
       | .ok bs =>
         badArg (b.arg 1 < 3 || 7 < b.arg 1) s
           (let es := (List.range 1024).map fun i => bytesNat ((bs.drop (2 * i)).take 2)
            match firstStatus [((es.take 0x380).any (fun e => !entryValid e), 1), ((es.drop 0x380).any (· != 0xFFFF), 2),
                (mapBusy s (b.arg 0) (b.arg 1), 3)] with
            | some st => .over st s
            | none =>
              let new := (((List.range 1024).zip es).filter (·.2 != 0xFFFF)).map fun p => MapEntry.mk (b.arg 1) p.1 p.2
              .over 0 (s.setCtx (b.arg 0) fun c => { c with maps := c.maps.filter (·.map != b.arg 1) ++ new })))

/-! ### View regions -/

/-- The field checks of REGION_SET (R237, R241). -/
def regionFieldBad (n : Nat) : Bool :=
  let r := regionOf 0 n
  let fmtOk := r.fmt == 0 || (6 ≤ r.fmt && r.fmt ≤ 10) || r.fmt == 13 || r.fmt == 14
  natBits n 126 122 != 0 || n.testBit 112 || natBits n 77 52 != 0 || r.esz == 3 || r.grp == 3 || !fmtOk || r.rows == 0 || r.rb == 0 ||
  (r.grp != 0 && !isIntCode r.fmt) || (r.fmt == 0 && r.sbase != 0) || r.rb % elemBytes r != 0 ||
  (r.fmt != 0 && (r.rb * 8 % elemWidth r.fmt != 0 || rowElems r % groupElems r != 0))

/-- The selectors under which a region has a range (R239). -/
def regionSels (r : Region) : List Nat := if r.fmt == 0 then [0, 1, 2] else [0, 1, 2, 3, 4]

/-- The scale area of a region: base and size, nothing without a format. -/
def scaleArea (r : Region) : Nat × Nat := if r.fmt == 0 then (0, 0) else (r.sbase, r.rows * scaleRow r)

/-- Two ranges of bytes meet. -/
def meets (a b : Nat × Nat) : Bool := a.1 < b.1 + b.2 && b.1 < a.1 + a.2 && a.2 != 0 && b.2 != 0

/-- RANGE (R241). -/
def regionRangeBad (s : State) (r : Region) : Bool :=
  s.backed < r.base + r.rows * r.rb || s.backed < (scaleArea r).1 + (scaleArea r).2 ||
  (regionSels r).any fun sel => 2 ^ 36 < r.base + viewSize r sel

/-- OVERLAP (R241). -/
def regionOverlap (s : State) (r : Region) : Bool :=
  let others := s.regionsOf r.stack
  (others.any fun o => (regionSels r).any fun sel =>
    (regionSels o).contains sel && meets (r.base, viewSize r sel) (o.base, viewSize o sel)) ||
  (r :: others).any fun o => meets (scaleArea r) (o.base, o.rows * o.rb)

/-- REGION_SET (R241): the image is written with V = 1 (log 41, DEDUCED). -/
def execRegionSet (vf : Nat) (s : State) : Host.Outcome State Fault Refusal :=
  cmdStep 5 vf s fun s f _ b =>
    match devNat s vf f.asid (BitVec.ofNat 64 (b.arg 2)) 16 with
    | .error _ => .over stBadArg s
    | .ok n =>
      badArg (15 < b.arg 0 || 63 < b.arg 1) s
        (let r := regionOf (b.arg 0) n
         let mine := s.regions.filter fun g => g.stack == b.arg 0 && g.vf == vf && g.image.getLsbD 127
         match firstStatus [(s.regions.any (fun g => g.stack == b.arg 0 && g.slot == b.arg 1 && g.image.getLsbD 127), 1), (regionFieldBad n, 2),
             (regionRangeBad s r, 3), (regionOverlap s r, 4), (decide (f.quotaRegions ≤ mine.length), 5)] with
         | some st => .over st s
         | none =>
           let g : RegionReg := ⟨b.arg 0, b.arg 1, vf, BitVec.ofNat 128 (n % 2 ^ 127 + 2 ^ 127)⟩
           .over 0 { s with regions := s.regions.filter (fun x => !(x.stack == g.stack && x.slot == g.slot)) ++ [g] })

/-- An access through a region is in flight at its stack (R241). -/
def regionInFlight (s : State) (r : Region) : Bool :=
  s.accesses.any fun a => a.dev.isNone &&
    (match viewPlace (a.spa % 2 ^ 49) with
     | some (st, t) => st == r.stack && r.base ≤ t && t < r.base + viewSize r a.sel
     | none => false)

/-- REGION_CLEAR (R241): V becomes 0, when no access through the region is in flight. -/
def execRegionClear (vf : Nat) (s : State) : Host.Outcome State Fault Refusal :=
  cmdStep 6 vf s fun s _ _ b =>
    match s.regions.find? fun g => g.stack == b.arg 0 && g.slot == b.arg 1 && g.image.getLsbD 127 with
    | none => badArg (15 < b.arg 0 || 63 < b.arg 1) s (.over 0 s)
    | some g =>
      if g.vf != vf then .over stDenied s
      else if regionInFlight s (regionOf g.stack g.image.toNat) then .wait s
      else
        let off (x : RegionReg) : RegionReg := { x with image := BitVec.ofNat 128 (x.image.toNat % 2 ^ 127) }
        .over 0 { s with regions := mapIf (· == g) off s.regions }

/-! ### Copy templates -/

/-- Whether a cluster belongs to another function under spatial partitioning (R301). -/
def foreignCluster (s : State) (vf cluster : Nat) : Bool := cluster < 16 && !(vfClusters s vf).contains cluster

/-- The arguments that name a template slot are outside their limits. -/
def slotBad (b : CmdBlock) : Bool := 15 < b.arg 0 || 3 < b.arg 1 || 63 < b.arg 2

/-- TEMPLATE_SET (R301) (log 83, DEDUCED). -/
def execTemplateSet (vf : Nat) (s : State) : Host.Outcome State Fault Refusal :=
  cmdStep 7 vf s fun s f _ b =>
    denied (foreignCluster s vf (b.arg 0)) s
      (match devNat s vf f.asid (BitVec.ofNat 64 (b.arg 4)) 64 with
       | .error _ => .over stBadArg s
       | .ok n =>
         badArg (slotBad b) s
           (let d := copyDescOf n
            let chan := 4 * b.arg 0 + b.arg 1
            match firstStatus [((s.channel chan).templates.any (fun t => t.idx == b.arg 2 && t.vf != vf), 1),
                (copyDescBad n 0 false || d.skind != 0 || (d.dkind != 0 && d.dkind != 3) || d.ck == 1 || d.ck == 3, 2),
                (!ownAsid s f (b.arg 3), 3)] with
            | some st => .over st s
            | none => .over 0 (s.setChannel chan fun c =>
                { c with templates := c.templates.filter (·.idx != b.arg 2) ++ [⟨b.arg 2, vf, b.arg 3, d⟩] })))

/-- TEMPLATE_CLEAR (R301): it waits for the copies that were started from the slot. -/
def execTemplateClear (vf : Nat) (s : State) : Host.Outcome State Fault Refusal :=
  cmdStep 8 vf s fun s _ _ b =>
    let chan := 4 * b.arg 0 + b.arg 1
    denied (foreignCluster s vf (b.arg 0)) s
      (match (s.channel chan).templates.find? (·.idx == b.arg 2) with
       | none => badArg (slotBad b) s (.over 0 s)
       | some t =>
         if t.vf != vf then .over stDenied s
         else if (s.channel chan).entries.any (fun e => e.tmpl == some (b.arg 2)) ||
             s.ctxs.any (fun c => ((c.image.map (·.entries)).getD []).any fun e => e.1 == chan && e.2.tmpl == some (b.arg 2)) then .wait s
         else .over 0 (s.setChannel chan fun c => { c with templates := c.templates.filter (·.idx != b.arg 2) }))

/-! ### Generations and residency -/

/-- GEN_BUMP (R262, R270). -/
def execGenBump (vf : Nat) (s : State) : Host.Outcome State Fault Refusal :=
  cmdStep 9 vf s fun s f _ b =>
    denied (!ownAsid s f (b.arg 0)) s (if bumpReady s (b.arg 0) then .over 0 (bumpGen s (b.arg 0)) else .wait s)

/-- RES_DONE (R273, R384): a request that the driver answers with RESIDENT goes on. -/
def execResDone (vf : Nat) (s : State) : Host.Outcome State Fault Refusal :=
  cmdStep 0x0A vf s fun s f _ b =>
    denied (!ownAsid s f (b.arg 0)) s
      (match s.resReqs.find? fun r => r.covers s vf (b.arg 0) (b.arg 1) && r.asked with
       | none => .over stBadArg s
       | some r =>
         badArg (1 < b.arg 2) s
           (if b.arg 2 == 1 then .over 0 (resToken s r 2)
            else
              let open_ (x : ResReq) : ResReq := if x.covers s vf (b.arg 0) (b.arg 1) then { x with asked := false } else x
              .over 0 (serveRes 12 { s with resReqs := s.resReqs.map open_ } { r with asked := false })))

/-- RESRING_SET (R384): ring, producer word, consumer word, in the coherent window. -/
def execResringSet (vf : Nat) (s : State) : Host.Outcome State Fault Refusal :=
  cmdStep 0x0B vf s fun s f _ b =>
    let bad (va n align : Nat) : Bool := va % align != 0 || 2 ^ 57 < va + n || (pagesOf va n).any fun p => !inWindow s f p.1
    badArg (bad (b.arg 0) 65536 16 || bad (b.arg 1) 8 8 || bad (b.arg 2) 8 8) s
      (.over 0 (s.setFn vf fun f =>
        { f with resRing := some ⟨BitVec.ofNat 64 (b.arg 0), BitVec.ofNat 64 (b.arg 1), BitVec.ofNat 64 (b.arg 2)⟩ }))

/-! ### KILL -/

/-- Whether a grid is one that a queue's packet has launched: of its KERNEL packets, and of the kernel nodes of its GRAPH packets (R368). -/
def ofQueue (s : State) (q : Nat) (g : Grid) : Bool :=
  match g.src with
  | .packet p => ((s.packet? p).map (·.queue)) == some q
  | .node gr _ => (((s.graph? gr).bind fun x => s.packet? x.packet).map (·.queue)) == some q
  | .invoked _ _ => false

/-- KILL (R368). -/
def execKill (vf : Nat) (s : State) : Host.Outcome State Fault Refusal :=
  cmdStep 0x0C vf s fun s f _ b =>
    if b.arg 0 == 0 then
      onQueue s f (b.arg 1) fun q =>
        .over 0 (((s.grids.filter (ofQueue s q.qnum)).map (·.id)).foldl (fun s g => killGrid s g 6) s)
    else if b.arg 0 == 1 then denied (!ownAsid s f (b.arg 2)) s (.over 0 (killCtx s (b.arg 2) 6))
    else .over stBadArg s

end Sys2Proof.Machine
end

