-- ==== Sys2Proof/Machine/Convert.lean ====
section
/-! DEFINITION. Meanings: conversions, packing, block quantisation (spec/06 R119 to R124). -/

namespace Sys2Proof.Machine

/-- One lane of `cvt` (R120): source code in MOD, destination code in IMM16[3:0], mode [6:4], SATF [7]; B is the seed. -/
def cvtLane (e : Enc) (l : Fibre) : LaneOut :=
  let s := modOf e
  let t := natBits (imm16Of e) 3 0
  let a := if s == 3 || (s == 0 && packedCode t) then (l.src64 (aField e)).toNat else (l.src (aField e)).toNat
  let r := fpCvt s t (modeOfField (natBits (imm16Of e) 6 4)) (natBits (imm16Of e) 7 7 == 1) (l.src (bField e)).toNat l.lane a
  if t == 3 || (packedCode s && t == 0) then out64 e (BitVec.ofNat 64 r) else out32 e (BitVec.ofNat 32 r)

/-- `cvt` (R119, R120). -/
def execCvt (f : LF) (s : State) : Host.Outcome State Fault Refusal := lanewise (.cvt f) s cvtLane

/-- `pk`: the low halves, or under MOD[44] the high halves (R121). -/
def pkLane (e : Enc) (l : Fibre) : LaneOut :=
  let a := l.src (aField e)
  let b := l.src (bField e)
  out32 e (if isN32 e then (b.extractLsb' 16 16) ++ (a.extractLsb' 16 16) else (b.extractLsb' 0 16) ++ (a.extractLsb' 0 16))

/-- `pk` (R121), format W. -/
def execPkW (f : WF) (s : State) : Host.Outcome State Fault Refusal := lanewise (.pkW f) s pkLane
/-- `pk`, `pk.hi` (R121), format L. -/
def execPkL (f : LF) (s : State) : Host.Outcome State Fault Refusal := lanewise (.pkL f) s pkLane

/-- `upk`: halves to the low, or under MOD[44] to the high half of a register each (R121). -/
def upkLane (e : Enc) (l : Fibre) : LaneOut :=
  let a := l.src (aField e)
  let lo : Word := (a.extractLsb' 0 16).setWidth 32
  let hi : Word := (a.extractLsb' 16 16).setWidth 32
  out64 e (if isN32 e then pairVal (lo <<< 16) (hi <<< 16) else pairVal lo hi)

/-- `upk` (R121), format W. -/
def execUpkW (f : WF) (s : State) : Host.Outcome State Fault Refusal := lanewise (.upkW f) s upkLane
/-- `upk`, `upk.hi` (R121), format L. -/
def execUpkL (f : LF) (s : State) : Host.Outcome State Fault Refusal := lanewise (.upkL f) s upkLane

/-- The results of `qblk` by lane: element or word, and side value (R122). -/
def qblkResults (w : Issue) : List (Nat × Nat × Nat) :=
  let i := imm16Of w.enc
  let ty := natBits i 5 4
  qblkLanes (natBits i 3 0) (modeOfField (natBits i 8 6)) (natBits i 9 9 == 1)
    (fun lane => ((w.exec.find? (·.lane == lane)).map fun l => (l.src (bField w.enc)).toNat).getD 0)
    (w.exec.map fun l => (l.lane, (codeFmt ty).dec ((l.src (aField w.enc)).toNat % 2 ^ (codeFmt ty).width)))

/-- `qblk` (R122, R124): the block is the lanes of `exec`. -/
def execQblk (f : LF) (s : State) : Host.Outcome State Fault Refusal :=
  crosswise (.qblk f) s fun w l =>
    match (qblkResults w).find? (·.1 == l.lane) with
    | some r => out64 w.enc (pairVal (BitVec.ofNat 32 r.2.1) (BitVec.ofNat 32 r.2.2))
    | none => out64 w.enc 0

/-- The element and scale a lane of `dqblk` decodes (R123): its own, or under PK those of the packed block. -/
def dqblkOperand (w : Issue) (l : Fibre) : Nat × Option Nat :=
  let i := imm16Of w.enc
  let width := elemWidth (natBits i 3 0)
  let lane (k : Nat) := w.exec.find? (·.lane == k)
  if natBits i 9 9 == 1 then
    let str := (List.range width).foldl
      (fun x k => x + (((lane k).map fun g => (g.src (aField w.enc)).toNat).getD 0) * 2 ^ (32 * k)) 0
    (packedElem width l.lane str, (lane 0).map fun g => (g.src (bField w.enc)).toNat)
  else ((l.src (aField w.enc)).toNat % 2 ^ width, some (l.src (bField w.enc)).toNat)

/-- `dqblk` (R123, R124). -/
def execDqblk (f : LF) (s : State) : Host.Outcome State Fault Refusal :=
  crosswise (.dqblk f) s fun w l =>
    let i := imm16Of w.enc
    let o := dqblkOperand w l
    out32 w.enc (BitVec.ofNat 32 (dqblkElem (natBits i 3 0) (natBits i 5 4 == 0) o.1 o.2))

end Sys2Proof.Machine
end

