-- ==== Sys2Proof/Machine/CrossLane.lean ====
section
/-! DEFINITION. Meanings: shuffles, votes and reductions over the lanes of the issuing cohort (spec/07 R146 to R149). -/

namespace Sys2Proof.Machine

/-- The source lane of a shuffle, or none for the lane's own value (R147). -/
inductive ShufKind where
  | idx | up | dn | xor
deriving DecidableEq, Repr

/-- Lane j of R147; none where `shuf.up` and `shuf.dn` keep the lane's own value. -/
def shufLane (k : ShufKind) (l b : Nat) : Option Nat :=
  match k with
  | .idx => some (b % 32)
  | .up => if b ≤ l then some (l - b) else none
  | .dn => if l + b < 32 then some (l + b) else none
  | .xor => some (l ^^^ (b % 32))

/-- One lane of a shuffle: the A value of lane j, zero where j is no source (R146, R147). -/
def shufOut (k : ShufKind) (w : Issue) (l : Fibre) : LaneOut :=
  let im := match w.enc with | .l _ f => f.mod.getLsbD 3 | _ => false
  let b := if im then imm16Of w.enc else (l.src (bField w.enc)).toNat
  let src : Option Fibre := match shufLane k l.lane b with
    | none => some l
    | some j => w.exec.find? (·.lane == j)
  if isN32 w.enc then out64 w.enc ((src.map fun g => g.src64 (aField w.enc)).getD 0)
  else out32 w.enc ((src.map fun g => g.src (aField w.enc)).getD 0)

/-- `shuf.idx` (R147), format W. -/
def execShufIdxW (f : WF) (s : State) : Host.Outcome State Fault Refusal := crosswise (.shufIdxW f) s (shufOut .idx)

/-- `shuf.idx` (R147), format L. -/
def execShufIdxL (f : LF) (s : State) : Host.Outcome State Fault Refusal := crosswise (.shufIdxL f) s (shufOut .idx)

/-- `shuf.up` (R147), format W. -/
def execShufUpW (f : WF) (s : State) : Host.Outcome State Fault Refusal := crosswise (.shufUpW f) s (shufOut .up)

/-- `shuf.up` (R147), format L. -/
def execShufUpL (f : LF) (s : State) : Host.Outcome State Fault Refusal := crosswise (.shufUpL f) s (shufOut .up)

/-- `shuf.dn` (R147), format W. -/
def execShufDnW (f : WF) (s : State) : Host.Outcome State Fault Refusal := crosswise (.shufDnW f) s (shufOut .dn)

/-- `shuf.dn` (R147), format L. -/
def execShufDnL (f : LF) (s : State) : Host.Outcome State Fault Refusal := crosswise (.shufDnL f) s (shufOut .dn)

/-- `shuf.xor` (R147), format W. -/
def execShufXorW (f : WF) (s : State) : Host.Outcome State Fault Refusal := crosswise (.shufXorW f) s (shufOut .xor)

/-- `shuf.xor` (R147), format L. -/
def execShufXorL (f : LF) (s : State) : Host.Outcome State Fault Refusal := crosswise (.shufXorL f) s (shufOut .xor)

/-- Bit s of a source's `pw`, or 1 for field 63 (R148). -/
def voteBit (e : Enc) (g : Fibre) : Bool := aField e == 63 || g.pw.getLsbD (aField e)

/-- A vote that writes bit D of `pw` (R148). -/
def votePw (v : List Bool → Bool) (w : Issue) (l : Fibre) : LaneOut :=
  outPw (setBit l.pw w.enc.fields.1 (v (w.exec.map (voteBit w.enc))))

/-- `vote.bal`: bit j for each source whose bit is 1 (R148). -/
def voteBal (w : Issue) (_ : Fibre) : LaneOut :=
  out32 w.enc ((w.exec.filter (voteBit w.enc)).foldl (fun m g => setBit m g.lane true) 0)

/-- `vote.any` (R148), format W. -/
def execVoteAnyW (f : WF) (s : State) : Host.Outcome State Fault Refusal := crosswise (.voteAnyW f) s (votePw fun bs => bs.any id)

/-- `vote.any` (R148), format L. -/
def execVoteAnyL (f : LF) (s : State) : Host.Outcome State Fault Refusal := crosswise (.voteAnyL f) s (votePw fun bs => bs.any id)

/-- `vote.all` (R148), format W. -/
def execVoteAllW (f : WF) (s : State) : Host.Outcome State Fault Refusal := crosswise (.voteAllW f) s (votePw fun bs => bs.all id)

/-- `vote.all` (R148), format L. -/
def execVoteAllL (f : LF) (s : State) : Host.Outcome State Fault Refusal := crosswise (.voteAllL f) s (votePw fun bs => bs.all id)

/-- `vote.bal` (R148), format W. -/
def execVoteBalW (f : WF) (s : State) : Host.Outcome State Fault Refusal := crosswise (.voteBalW f) s voteBal

/-- `vote.bal` (R148), format L. -/
def execVoteBalL (f : LF) (s : State) : Host.Outcome State Fault Refusal := crosswise (.voteBalL f) s voteBal

/-- The value that `redc` forms of the A values of the sources (R149). -/
inductive RedKind where
  | add | min | max
deriving DecidableEq, Repr

/-- A reduction by type: 0 `.s32`, 1 `.n32`, 2 `.f32` (R149); the `.f32` sum is exact with one rounding, -0 only when every source is. -/
def redValue (k : RedKind) (ty : Nat) : List Word → Word
  | [] => 0
  | v :: vs =>
    if ty == 2 then
      match k with
      | .add =>
        let xs := (v :: vs).map fun x => Fmt.f32.dec x.toNat
        BitVec.ofNat 32 (Fmt.f32.rne (FVal.sum false xs))
      | .min => vs.foldl (fun m x => BitVec.ofNat 32 (fpMinMax false .f32 m.toNat x.toNat)) (BitVec.ofNat 32 (fpMinMax false .f32 v.toNat v.toNat))
      | .max => vs.foldl (fun m x => BitVec.ofNat 32 (fpMinMax true .f32 m.toNat x.toNat)) (BitVec.ofNat 32 (fpMinMax true .f32 v.toNat v.toNat))
    else
      match k with
      | .add => vs.foldl (· + ·) v
      | .min => vs.foldl (aluMin (ty == 1)) v
      | .max => vs.foldl (aluMax (ty == 1)) v

/-- One lane of a reduction: every lane of `exec` receives the value (R149). -/
def redOut (k : RedKind) (w : Issue) (_ : Fibre) : LaneOut :=
  out32 w.enc (redValue k (modOf w.enc % 4) (w.exec.map fun g => g.src (aField w.enc)))

/-- `redc.add` (R149), format W. -/
def execRedcAddW (f : WF) (s : State) : Host.Outcome State Fault Refusal := crosswise (.redcAddW f) s (redOut .add)

/-- `redc.add` (R149), format L. -/
def execRedcAddL (f : LF) (s : State) : Host.Outcome State Fault Refusal := crosswise (.redcAddL f) s (redOut .add)

/-- `redc.min` (R149), format W. -/
def execRedcMinW (f : WF) (s : State) : Host.Outcome State Fault Refusal := crosswise (.redcMinW f) s (redOut .min)

/-- `redc.min` (R149), format L. -/
def execRedcMinL (f : LF) (s : State) : Host.Outcome State Fault Refusal := crosswise (.redcMinL f) s (redOut .min)

/-- `redc.max` (R149), format W. -/
def execRedcMaxW (f : WF) (s : State) : Host.Outcome State Fault Refusal := crosswise (.redcMaxW f) s (redOut .max)

/-- `redc.max` (R149), format L. -/
def execRedcMaxL (f : LF) (s : State) : Host.Outcome State Fault Refusal := crosswise (.redcMaxL f) s (redOut .max)

end Sys2Proof.Machine
end

