-- ==== Sys2Proof/Machine/Float.lean ====
section
/-! DEFINITION. Meanings: floating-point arithmetic, compares, special functions, complex arithmetic and the FFT pair (spec/06
R107 to R118, R125 to R128). -/

namespace Sys2Proof.Machine

/-- The float type: MOD of the L form, `.f32` in H and W (R56, R57, R108). -/
def fTy : Enc → FTy
  | .l _ f => fTyOf f.mod
  | _ => .f32

/-- The rounding mode of IMM16[2:0]; H and W round to nearest even (R109). -/
def fMode (e : Enc) : Mode := modeOfField (imm16Of e % 8)

/-- A source of `wide` (64 bits) or 32 bits as a number. -/
def srcNum (wide : Bool) (l : Fibre) (n : Nat) : Nat := if wide then (l.src64 n).toNat else (l.src n).toNat

/-- A result of 64 or 32 bits (R107). -/
def outNum (wide : Bool) (e : Enc) (v : Nat) : LaneOut :=
  if wide then out64 e (BitVec.ofNat 64 v) else out32 e (BitVec.ofNat 32 v)

/-- Operations of one, two and three float sources in one lane (R107, R111). -/
def fpUn (g : FTy → Mode → Nat → Nat) (e : Enc) (l : Fibre) : LaneOut :=
  let w := (fTy e).wide
  outNum w e (g (fTy e) (fMode e) (srcNum w l (aField e)))
def fpBin (g : FTy → Mode → Nat → Nat → Nat) (e : Enc) (l : Fibre) : LaneOut :=
  let w := (fTy e).wide
  outNum w e (g (fTy e) (fMode e) (srcNum w l (aField e)) (srcNum w l (bField e)))
def fpTern (g : FTy → Mode → Nat → Nat → Nat → Nat) (e : Enc) (l : Fibre) : LaneOut :=
  let w := (fTy e).wide
  outNum w e (g (fTy e) (fMode e) (srcNum w l (aField e)) (srcNum w l (bField e)) (srcNum w l (cField e)))

/-- A float compare (R118): the combination stands in IMM16[1:0] of the L form. -/
def fpCmpLane (c : Cond) (e : Enc) (l : Fibre) : LaneOut :=
  let w := (fTy e).wide
  outPw (fpCmpPw c (fTy e) l.pw e.fields.1 (imm16Of e % 4) (srcNum w l (aField e)) (srcNum w l (bField e)))

/-- `cls`: a pair read under `.f64`, one register written (R117). -/
def fpClsLane (e : Enc) (l : Fibre) : LaneOut :=
  out32 e (BitVec.ofNat 32 (fpCls (fTy e) (srcNum (fTy e).wide l (aField e))))

/-- `ldexp`: B is one register in every type (R116). -/
def fpLdexpLane (e : Enc) (l : Fibre) : LaneOut :=
  let w := (fTy e).wide
  outNum w e (fpLdexp (fTy e) (fMode e) (srcNum w l (aField e)) (l.src (bField e)).toNat)

/-- Float `add` (R111), format H. -/
def execAddF32H (f : HF) (s : State) : Host.Outcome State Fault Refusal :=
  lanewise (.addF32H f) s (fpBin fpAdd)

/-- Float `add` (R111), format W. -/
def execAddF32W (f : WF) (s : State) : Host.Outcome State Fault Refusal :=
  lanewise (.addF32W f) s (fpBin fpAdd)

/-- Float `add` (R111), format L. -/
def execAddFloatL (f : LF) (s : State) : Host.Outcome State Fault Refusal :=
  lanewise (.addFloatL f) s (fpBin fpAdd)

/-- Float `sub` (R111), format H. -/
def execSubF32H (f : HF) (s : State) : Host.Outcome State Fault Refusal :=
  lanewise (.subF32H f) s (fpBin fpSub)

/-- Float `sub` (R111), format W. -/
def execSubF32W (f : WF) (s : State) : Host.Outcome State Fault Refusal :=
  lanewise (.subF32W f) s (fpBin fpSub)

/-- Float `sub` (R111), format L. -/
def execSubFloatL (f : LF) (s : State) : Host.Outcome State Fault Refusal :=
  lanewise (.subFloatL f) s (fpBin fpSub)

/-- Float `mul` (R111), format H. -/
def execMulF32H (f : HF) (s : State) : Host.Outcome State Fault Refusal :=
  lanewise (.mulF32H f) s (fpBin fpMul)

/-- Float `mul` (R111), format W. -/
def execMulF32W (f : WF) (s : State) : Host.Outcome State Fault Refusal :=
  lanewise (.mulF32W f) s (fpBin fpMul)

/-- Float `mul` (R111), format L. -/
def execMulFloatL (f : LF) (s : State) : Host.Outcome State Fault Refusal :=
  lanewise (.mulFloatL f) s (fpBin fpMul)

/-- `fma` (R111). -/
def execFma (f : LF) (s : State) : Host.Outcome State Fault Refusal :=
  lanewise (.fma f) s (fpTern fpFma)

/-- Float `min` (R112), format H. -/
def execMinF32H (f : HF) (s : State) : Host.Outcome State Fault Refusal :=
  lanewise (.minF32H f) s (fpBin fun t _ a b => fpMinMax false t a b)

/-- Float `min` (R112), format W. -/
def execMinF32W (f : WF) (s : State) : Host.Outcome State Fault Refusal :=
  lanewise (.minF32W f) s (fpBin fun t _ a b => fpMinMax false t a b)

/-- Float `min` (R112), format L. -/
def execMinFloatL (f : LF) (s : State) : Host.Outcome State Fault Refusal :=
  lanewise (.minFloatL f) s (fpBin fun t _ a b => fpMinMax false t a b)

/-- `minp` (R112), format W. -/
def execMinpW (f : WF) (s : State) : Host.Outcome State Fault Refusal :=
  lanewise (.minpW f) s (fpBin fun t _ a b => fpMinMaxp false t a b)

/-- `minp` (R112), format L. -/
def execMinpL (f : LF) (s : State) : Host.Outcome State Fault Refusal :=
  lanewise (.minpL f) s (fpBin fun t _ a b => fpMinMaxp false t a b)

/-- Float `max` (R112), format H. -/
def execMaxF32H (f : HF) (s : State) : Host.Outcome State Fault Refusal :=
  lanewise (.maxF32H f) s (fpBin fun t _ a b => fpMinMax true t a b)

/-- Float `max` (R112), format W. -/
def execMaxF32W (f : WF) (s : State) : Host.Outcome State Fault Refusal :=
  lanewise (.maxF32W f) s (fpBin fun t _ a b => fpMinMax true t a b)

/-- Float `max` (R112), format L. -/
def execMaxFloatL (f : LF) (s : State) : Host.Outcome State Fault Refusal :=
  lanewise (.maxFloatL f) s (fpBin fun t _ a b => fpMinMax true t a b)

/-- `maxp` (R112), format W. -/
def execMaxpW (f : WF) (s : State) : Host.Outcome State Fault Refusal :=
  lanewise (.maxpW f) s (fpBin fun t _ a b => fpMinMaxp true t a b)

/-- `maxp` (R112), format L. -/
def execMaxpL (f : LF) (s : State) : Host.Outcome State Fault Refusal :=
  lanewise (.maxpL f) s (fpBin fun t _ a b => fpMinMaxp true t a b)

/-- `neg.f32` in format H takes S (R41, R113). -/
def execNegF32H (f : HF) (s : State) : Host.Outcome State Fault Refusal :=
  lanewise (.negF32H f) s fun e l => out32 e (BitVec.ofNat 32 (fpNeg .f32 (l.src (bField e)).toNat))

/-- Float `abs` (R113), format W. -/
def execAbsF32W (f : WF) (s : State) : Host.Outcome State Fault Refusal :=
  lanewise (.absF32W f) s (fpUn fun t _ a => fpAbs t a)

/-- Float `abs` (R113), format L. -/
def execAbsFloatL (f : LF) (s : State) : Host.Outcome State Fault Refusal :=
  lanewise (.absFloatL f) s (fpUn fun t _ a => fpAbs t a)

/-- Float `neg` (R113), format W. -/
def execNegF32W (f : WF) (s : State) : Host.Outcome State Fault Refusal :=
  lanewise (.negF32W f) s (fpUn fun t _ a => fpNeg t a)

/-- Float `neg` (R113), format L. -/
def execNegFloatL (f : LF) (s : State) : Host.Outcome State Fault Refusal :=
  lanewise (.negFloatL f) s (fpUn fun t _ a => fpNeg t a)

/-- `cls` (R117), format W. -/
def execClsW (f : WF) (s : State) : Host.Outcome State Fault Refusal :=
  lanewise (.clsW f) s fpClsLane

/-- `cls` (R117), format L. -/
def execClsL (f : LF) (s : State) : Host.Outcome State Fault Refusal :=
  lanewise (.clsL f) s fpClsLane

/-- Float `cmp.eq` (R118), format W. -/
def execCmpEqF32W (f : WF) (s : State) : Host.Outcome State Fault Refusal :=
  lanewise (.cmpEqF32W f) s (fpCmpLane .eq)

/-- Float `cmp.eq` (R118), format L. -/
def execCmpEqFloatL (f : LF) (s : State) : Host.Outcome State Fault Refusal :=
  lanewise (.cmpEqFloatL f) s (fpCmpLane .eq)

/-- Float `cmp.ne` (R118), format W. -/
def execCmpNeF32W (f : WF) (s : State) : Host.Outcome State Fault Refusal :=
  lanewise (.cmpNeF32W f) s (fpCmpLane .ne)

/-- Float `cmp.ne` (R118), format L. -/
def execCmpNeFloatL (f : LF) (s : State) : Host.Outcome State Fault Refusal :=
  lanewise (.cmpNeFloatL f) s (fpCmpLane .ne)

/-- Float `cmp.lt` (R118), format W. -/
def execCmpLtF32W (f : WF) (s : State) : Host.Outcome State Fault Refusal :=
  lanewise (.cmpLtF32W f) s (fpCmpLane .lt)

/-- Float `cmp.lt` (R118), format L. -/
def execCmpLtFloatL (f : LF) (s : State) : Host.Outcome State Fault Refusal :=
  lanewise (.cmpLtFloatL f) s (fpCmpLane .lt)

/-- Float `cmp.le` (R118), format W. -/
def execCmpLeF32W (f : WF) (s : State) : Host.Outcome State Fault Refusal :=
  lanewise (.cmpLeF32W f) s (fpCmpLane .le)

/-- Float `cmp.le` (R118), format L. -/
def execCmpLeFloatL (f : LF) (s : State) : Host.Outcome State Fault Refusal :=
  lanewise (.cmpLeFloatL f) s (fpCmpLane .le)

/-- Float `cmp.gt` (R118), format W. -/
def execCmpGtF32W (f : WF) (s : State) : Host.Outcome State Fault Refusal :=
  lanewise (.cmpGtF32W f) s (fpCmpLane .gt)

/-- Float `cmp.gt` (R118), format L. -/
def execCmpGtFloatL (f : LF) (s : State) : Host.Outcome State Fault Refusal :=
  lanewise (.cmpGtFloatL f) s (fpCmpLane .gt)

/-- Float `cmp.ge` (R118), format W. -/
def execCmpGeF32W (f : WF) (s : State) : Host.Outcome State Fault Refusal :=
  lanewise (.cmpGeF32W f) s (fpCmpLane .ge)

/-- Float `cmp.ge` (R118), format L. -/
def execCmpGeFloatL (f : LF) (s : State) : Host.Outcome State Fault Refusal :=
  lanewise (.cmpGeFloatL f) s (fpCmpLane .ge)

/-- `rcp` (R114), format W. -/
def execRcpW (f : WF) (s : State) : Host.Outcome State Fault Refusal :=
  lanewise (.rcpW f) s (fpUn fpRcp)

/-- `rcp` (R114), format L. -/
def execRcpL (f : LF) (s : State) : Host.Outcome State Fault Refusal :=
  lanewise (.rcpL f) s (fpUn fpRcp)

/-- `sqrt` (R114), format W. -/
def execSqrtW (f : WF) (s : State) : Host.Outcome State Fault Refusal :=
  lanewise (.sqrtW f) s (fpUn fpSqrt)

/-- `sqrt` (R114), format L. -/
def execSqrtL (f : LF) (s : State) : Host.Outcome State Fault Refusal :=
  lanewise (.sqrtL f) s (fpUn fpSqrt)

/-- `rint` (R116), format W. -/
def execRintW (f : WF) (s : State) : Host.Outcome State Fault Refusal :=
  lanewise (.rintW f) s (fpUn fpRint)

/-- `rint` (R116), format L. -/
def execRintL (f : LF) (s : State) : Host.Outcome State Fault Refusal :=
  lanewise (.rintL f) s (fpUn fpRint)

/-- `rsq` (R114), format W. -/
def execRsqW (f : WF) (s : State) : Host.Outcome State Fault Refusal :=
  lanewise (.rsqW f) s (fpUn fun t _ a => fpRsq t a)

/-- `rsq` (R114), format L. -/
def execRsqL (f : LF) (s : State) : Host.Outcome State Fault Refusal :=
  lanewise (.rsqL f) s (fpUn fun t _ a => fpRsq t a)

/-- `exp2` (R115), format W. -/
def execExp2W (f : WF) (s : State) : Host.Outcome State Fault Refusal :=
  lanewise (.exp2W f) s (fpUn fun t _ a => fpExp2 t a)

/-- `exp2` (R115), format L. -/
def execExp2L (f : LF) (s : State) : Host.Outcome State Fault Refusal :=
  lanewise (.exp2L f) s (fpUn fun t _ a => fpExp2 t a)

/-- `log2` (R115), format W. -/
def execLog2W (f : WF) (s : State) : Host.Outcome State Fault Refusal :=
  lanewise (.log2W f) s (fpUn fun t _ a => fpLog2 t a)

/-- `log2` (R115), format L. -/
def execLog2L (f : LF) (s : State) : Host.Outcome State Fault Refusal :=
  lanewise (.log2L f) s (fpUn fun t _ a => fpLog2 t a)

/-- `sinp` (R115), format W. -/
def execSinpW (f : WF) (s : State) : Host.Outcome State Fault Refusal :=
  lanewise (.sinpW f) s (fpUn fun t _ a => fpSinp t a)

/-- `sinp` (R115), format L. -/
def execSinpL (f : LF) (s : State) : Host.Outcome State Fault Refusal :=
  lanewise (.sinpL f) s (fpUn fun t _ a => fpSinp t a)

/-- `cosp` (R115), format W. -/
def execCospW (f : WF) (s : State) : Host.Outcome State Fault Refusal :=
  lanewise (.cospW f) s (fpUn fun t _ a => fpCosp t a)

/-- `cosp` (R115), format L. -/
def execCospL (f : LF) (s : State) : Host.Outcome State Fault Refusal :=
  lanewise (.cospL f) s (fpUn fun t _ a => fpCosp t a)

/-- `frc` (R116), format W. -/
def execFrcW (f : WF) (s : State) : Host.Outcome State Fault Refusal :=
  lanewise (.frcW f) s (fpUn fun t _ a => fpFrc t a)

/-- `frc` (R116), format L. -/
def execFrcL (f : LF) (s : State) : Host.Outcome State Fault Refusal :=
  lanewise (.frcL f) s (fpUn fun t _ a => fpFrc t a)

/-- `div` (R111, R114), format W. -/
def execDivW (f : WF) (s : State) : Host.Outcome State Fault Refusal :=
  lanewise (.divW f) s (fpBin fpDiv)

/-- `div` (R111, R114), format L. -/
def execDivL (f : LF) (s : State) : Host.Outcome State Fault Refusal :=
  lanewise (.divL f) s (fpBin fpDiv)

/-- `ldexp` (R116), format W. -/
def execLdexpW (f : WF) (s : State) : Host.Outcome State Fault Refusal :=
  lanewise (.ldexpW f) s fpLdexpLane

/-- `ldexp` (R116), format L. -/
def execLdexpL (f : LF) (s : State) : Host.Outcome State Fault Refusal :=
  lanewise (.ldexpL f) s fpLdexpLane

/-- `dot2` (R125): C = 63 is no addend. -/
def execDot2 (f : LF) (s : State) : Host.Outcome State Fault Refusal :=
  lanewise (.dot2 f) s fun e l =>
    out32 e (BitVec.ofNat 32 (fpDot2 (fTy e) (fMode e) (l.src (aField e)).toNat (l.src (bField e)).toNat
      (if cField e == 63 then none else some (l.src (cField e)).toNat)))

/-- `cmul`: pairs for `.f32`, CONJ in IMM16[3] (R126). -/
def execCmul (f : LF) (s : State) : Host.Outcome State Fault Refusal :=
  lanewise (.cmul f) s fun e l =>
    let w := !(fTy e).packed
    outNum w e (fpCmul (fTy e) (fMode e) (natBits (imm16Of e) 3 3 == 1) (srcNum w l (aField e)) (srcNum w l (bField e))
      (srcNum w l (cField e)))

/-- The two outputs of `bfly` (R127): a quad and the top output in `b0` for `.f32`, a pair for the packed types. -/
def bflyOut (e : Enc) (w : Bool) (r : Nat × Nat) : LaneOut :=
  let top := BitVec.ofNat 64 r.1
  let bot := BitVec.ofNat 64 r.2
  if w then
    ⟨match dField e with
      | some d => [(d, lo32 top), (d + 1, hi32 top), (d + 2, lo32 bot), (d + 3, hi32 bot)]
      | none => [], ⟨.w64, top⟩⟩
  else out64 e (pairVal (lo32 top) (lo32 bot))

/-- `bfly`: DIF in IMM16[0], CONJ in IMM16[1] (R127). -/
def execBfly (f : LF) (s : State) : Host.Outcome State Fault Refusal :=
  lanewise (.bfly f) s fun e l =>
    let w := !(fTy e).packed
    bflyOut e w (fpBfly (fTy e) (natBits (imm16Of e) 0 0 == 1) (natBits (imm16Of e) 1 1 == 1) (srcNum w l (aField e))
      (srcNum w l (bField e)) (srcNum w l (cField e)))

/-- `twid`: log2 n in IMM16 (R128). -/
def execTwid (f : LF) (s : State) : Host.Outcome State Fault Refusal :=
  lanewise (.twid f) s fun e l =>
    outNum (!(fTy e).packed) e (fpTwid (fTy e) (imm16Of e) (l.src (aField e)).toNat)

end Sys2Proof.Machine
end

