-- ==== Sys2Proof/Machine/Functions.lean ====
section
/-! DEFINITION. Meanings: resets, bring-up, the Bisque service, partitioning, quotas, profiles and power, firmware images (spec/16 R280; spec/18 R316; spec/22
R359; spec/24 R376 to R379; spec/25 R386 to R392, R396). -/

namespace Sys2Proof.Machine

/-! ### The Saggar at a reset -/

/-- The writer of a ring that a reset affects: how many of the records brought to it are still written is left open, the others count as dropped (R316). -/
def ringReset (s : State) (id : Nat) : State :=
  let l := (s.ring id).backlog
  let c := choose s (l.length + 1)
  let t := ((l.take c.1).foldl (fun s x => ringWrite s id x) c.2).setRing id fun r => { r with backlog := [] }
  (l.drop c.1).foldl (fun s x => s.setRing id (ringDrop x)) t

/-- On entering a reset that affects some rings the Flue delivers for a while (R316): how many of a source's records is left open; what it has not brought to
an affected ring then is dropped there (log 101, DESIGN CHOICE). -/
def flueReset (s : State) (rings : List Nat) : State :=
  let hit (x : Rec) : Bool := (ringsOf x.vf).any rings.contains
  let cut (s : State) (x : Rec) : State :=
    (ringsOf x.vf).foldl (fun s id => s.setRing id (if rings.contains id then ringDrop x else ringTake x)) s
  let one (s : State) (q : FlueQ) : State :=
    let c := choose s (q.recs.length + 1)
    let left := q.recs.drop c.1
    let s1 := (q.recs.take c.1).foldl (fun s x => (ringsOf x.vf).foldl (fun s id => s.setRing id (ringTake x)) s) c.2
    let keep := left.filter (!hit ·)
    let s2 := (left.filter hit).foldl cut s1
    { s2 with flue := s2.flue ++ (if keep.isEmpty then [] else [⟨q.src, keep⟩]) }
  rings.foldl ringReset (s.flue.foldl one { s with flue := [] })

/-- RESET_MARK in a ring, whose generation rises (R280). -/
def resetMark (s : State) (id : Nat) (op cause : DWord) : State :=
  let g := (s.ring id).gen + 1
  (ringWrite s id ⟨0x0F02, g % 2 ^ 16, id, fwSrc, op, cause, s.time.dtc⟩).setRing id fun r => { r with gen := g % 2 ^ 32 }

/-! ### The reset of a function -/

/-- A fetched packet of a function that is reset (R378 step 1, R401): its CSIG receives the abort write only in the coherent window. -/
def killPacket (f : Fn) (s : State) (p : Packet) : State :=
  let s1 := if p.csig != 0 && p.csig.toNat % 8 == 0 && inWindow s f p.csig.toNat then
      (match sigUpdate s f.vf f.asid (queueDie s p.queue) p.csig (.sigAbort 6) p.op with
       | .ok t => t
       | .error _ => s)
    else s
  emit (dropPacket s1 p.id) (queueSrc s p.queue) 0x0103 p.op 0 6 f.vf

/-- Step 1 (R378, R298): fetching stops, what is not final of a graph breaks with KILLED, fetched packets are killed, queues are destroyed. -/
def stopQueues (s : State) (f : Fn) : State :=
  let s0 := (s.graphs.filter (·.vf == f.vf)).foldl (fun s g => breakAll s g.id 6) s
  let s1 := (s0.packets.filter fun p => p.vf == f.vf).foldl (killPacket f) s0
  { s1 with queues := s1.queues.filter (·.vf != f.vf), graphs := s1.graphs.filter (·.vf != f.vf) }

/-- A collective participant of a function that is reset: its peers take its rank as lost (R344, R378). -/
def killColl (s : State) (c : Coll) : State :=
  (c.parts.filter fun p => !p.done).foldl
    (fun s p => (roundsTo (List.range (collRanks s c)) p.rank).foldl (fun s r => postMsg s (collMsg c p 3 r 0 0 0 []))
      (partFail s c.id p.rank 6)) s

/-- Step 3 (R378): copies end with KILLED, tile tasks without a token, collectives with KILLED. -/
def stopEngines (s : State) (vf : Nat) : State :=
  let live := s.channels.flatMap fun ch => (ch.entries.filter (·.vf == vf)).map fun e => (ch.num, e)
  let saved := (s.ctxs.filter (·.vf == vf)).flatMap fun c => (c.image.map (·.entries)).getD []
  let s1 := (live ++ saved).foldl (fun s x => killEntry s x.1 x.2) s
  let cut (k : Core) : Core := { k with mxq := k.mxq.filter (·.vf != vf) }
  let s2 := collGo ((s1.colls.filter (·.vf == vf)).foldl killColl { s1 with cores := s1.cores.map cut })
  { s2 with collNet := s2.collNet.filter (·.vf != vf) }

/-- Invoked grids of a function that run here crack their handles with KILLED (R359). -/
def stopRuns (s : State) (gs : List Grid) : State :=
  gs.foldl (fun s g => match g.src with
    | .invoked h _ => gwCrackOwn { s with gwRuns := s.gwRuns.filter (·.1 != h) } g.vf h 6 0
    | _ => s) s

/-- Step 2 (R378): cores halt and nothing is saved; images are discarded, forwarding entries removed; what the fibres had under way is abandoned. -/
def stopContexts (s : State) (vf : Nat) : State :=
  let asids := (s.ctxs.filter (·.vf == vf)).map (·.asid)
  let gs := s.grids.filter (·.vf == vf)
  let crews := s.crews.filter fun c => gs.any (·.id == c.grid)
  let fs := s.fibres.filter fun f => crews.any (·.id == f.crew)
  let mine (a : Access) : Bool := a.vf == vf && (match a.agent with | .port _ => false | _ => true)
  let s1 := dropForwards (fs.foldl leaveWaits (stopRuns s gs)) fun e => e.vf == vf
  let clear (k : Core) : Core := match k.ctx with
    | some a => if asids.contains a then clearedCore k k.fwd else k
    | none => k
  let s2 := { s1 with
    grids := s1.grids.filter (·.vf != vf), crews := s1.crews.filter (fun c => !crews.any (·.id == c.id)),
    fibres := s1.fibres.filter (fun f => !fs.any (·.id == f.id)), accesses := s1.accesses.filter (fun a => !mine a),
    owed := s1.owed.filter (fun o => !fs.any (·.id == o.fibre)), gwQueries := s1.gwQueries.filter (fun q => q.dev.isSome || !fs.any (·.id == q.fibre)),
    cores := s1.cores.map clear, ctxs := s1.ctxs.filter (·.vf != vf), tlb := s1.tlb.filter (·.vf != vf),
    walks := s1.walks.filter (·.vf != vf), migrations := s1.migrations.filter (·.vf != vf), resReqs := s1.resReqs.filter (·.vf != vf), samples := s1.samples.filter (·.vf != vf) }
  asids.foldl discardAsid s2

/-- The first three steps of a function's reset (R378). -/
def stopFn (s : State) (vf : Nat) : State :=
  match s.fn? vf with
  | none => s
  | some f => stopContexts (stopEngines (stopQueues s f) vf) vf

/-- Requests of other devices to a function's exports that are under way are denied (R378) (log 104, DEDUCED). -/
def denyServed (s : State) (vf : Nat) : State :=
  let mine := s.served.filter fun x => s.accesses.any fun a => a.ref == x.1 && a.vf == vf
  mine.foldl (fun s x => sendRefusal { s with served := s.served.filter (·.1 != x.1), accesses := s.accesses.filter (·.ref != x.1) } x.2 0xA1) s

/-- The greenware of a function that is reset (R359): its entries crack with KILLED and become FREE, messages on their way to a run here crack theirs,
retry lists go. -/
def resetGreen (s : State) (vf : Nat) : State :=
  let runs := s.gwNet.filterMap fun x => match x.2 with
    | .run i => if msgVf s i == vf then some (x, i.handle) else none
    | _ => none
  let s1 := runs.foldl (fun s x => gwCrackOwn { s with gwNet := s.gwNet.erase x.1 } vf x.2 6 0) s
  let s2 := (s1.green.filter fun e => e.vf == vf && e.state == 1).foldl (fun s e => gwCrack s e.die e.idx 6 0) s1
  { s2 with green := mapIf (fun e => e.vf == vf && e.state != 0) (gwEntryFree s2.time.dtc) s2.green, gwRetry := s2.gwRetry.filter fun r => r.inv.vf != vf }

/-- The frames of a function (R275, R378): assigned, pooled, held for partners. -/
def fnFrames (s : State) (f : Fn) : List (Nat × Nat) :=
  f.assigned.map (fun a => (a.2.2, a.2.1)) ++ f.pool ++ (s.dev.partner.filter (·.vf == f.vf)).flatMap (·.frames)

/-- A slot whose memory is gone: what has been drained stays in flash (R393). -/
def PartnerSlot.gone (x : PartnerSlot) : PartnerSlot := { x with bytes := 0, epoch := 0, complete := false, data := [], frames := [] }

/-- Step 4 (R378): counters, sends, leases, greenware, regions, templates, exports. Communicators and the choice of shared counters go too (log 103, DEDUCED). -/
def clearFn (s : State) (f : Fn) : State :=
  let vf := f.vf
  let range (c : Counter) : Bool := match f.counterBase with
    | some b => b ≤ c.idx && c.idx < b + f.quotaCounters
    | none => false
  let cut (ch : Channel) : Channel := { ch with templates := ch.templates.filter (·.vf != vf) }
  let s1 := denyServed (resetGreen s vf) vf
  { s1 with
    counters := s1.counters.filter (fun c => !range c), sends := s1.sends.filter (·.vf != vf), leases := s1.leases.filter (·.vf != vf),
    regions := s1.regions.filter (·.vf != vf), channels := s1.channels.map cut, comms := s1.comms.filter (·.vf != vf),
    shared := s1.shared.map fun c => { c with picks := c.picks.map fun p => if p.vf == vf then ⟨p.vf, 0, 0⟩ else p } }

/-- A function's own fields after its reset: its trace level is BASE (R311); quotas, pins and partition key stay (log 44, DESIGN CHOICE). -/
def Fn.afterReset (f : Fn) : Fn :=
  { f with root2 := none, assigned := [], pool := [], backing := [], feat := [], featctl := 0, flushes := [], flushSeq := 0, readAhead := [],
           counterBase := none, resRing := none, checkLog := [], checkCount := 0, sampleBuf := none, sampleLost := 0, cmds := [], ckpt := none,
           spareFrom := none, exports := [], trace := 0, resetting := false }

/-- The last steps of a function's reset but the marks (R378). -/
def finishFn (s : State) (vf : Nat) : State :=
  match s.fn? vf with
  | none => s
  | some f =>
    let s1 := clearFn (stopFn s vf) f
    let s2 := (fnFrames s1 f).foldl (fun s x => markFrame s x.1 x.2) s1
    let s3 := { s2 with dev := { s2.dev with partner := mapIf (·.vf == vf) PartnerSlot.gone s2.dev.partner } }
    s3.setFn vf Fn.afterReset

/-- A function's reset ends (R280, R316, R378): RESET_MARK in its ring and in the device ring (log 100, DEDUCED). -/
def resetFn (s : State) (vf : Nat) (cause : DWord) : State :=
  let m := mint (finishFn s vf) 0
  let s1 := flueReset m.2 [vf, 0xFFFF]
  resetMark (resetMark s1 vf m.1 cause) 0xFFFF m.1 cause

/-- A function's reset begins: its BAR is closed until the end (log 102, DESIGN CHOICE). -/
def beginReset (s : State) (vf : Nat) : State := (stopFn s vf).setFn vf fun f => { f with resetting := true }

/-- Whether a function is being reset. -/
def isResetting (s : State) (vf : Nat) : Bool := ((s.fn? vf).map (·.resetting)).getD false

/-- VF_RESET (R378, R280): the reset begins with the command and ends at a later step of it; the PF that resets itself has no memory left for a
status. -/
def execVfReset (vf : Nat) (s : State) : Host.Outcome State Fault Refusal :=
  cmdStep 0x33 vf s fun s _ c b =>
    badArg (256 < b.arg 0) s
      (let m := mint s 0
       if b.arg 0 == vf then .over 0 (resetFn (stopFn m.2 vf) vf m.1)
       else if c.phase == 0 then .wait (setCmd (beginReset s (b.arg 0)) vf fun c => { c with phase := 1 })
       else if isResetting s (b.arg 0) then .over 0 (resetFn m.2 (b.arg 0) m.1)
       else .over 0 s)

/-- PCIE_FLR (R378): the host's reset of a function begins, and at the next such step ends. -/
def execPcieFlr (vf : Nat) (s : State) : Host.Outcome State Fault Refusal :=
  .next (if 256 < vf then s else if isResetting s vf then resetFn s vf 0 else beginReset s vf)

/-! ### Profiles, Bisque, power -/

/-- The arithmetic clock of a profile in MHz (R1). -/
def profileClock (p : Nat) : Nat := if p == 0 then 4000 else if p == 1 then 3200 else if p == 2 then 2400 else 1200

/-- The power limit of a profile in watts (R1). -/
def profileWatts (p : Nat) : Nat := if p == 0 then 3200 else if p == 1 then 2400 else if p == 2 then 1600 else 500

/-- A profile takes effect. -/
def setProfile (d : DevSt) (p : Nat) : DevSt := { d with profile := p, clockMHz := profileClock p, cap := false, overRun := 0, changing := none }

/-- BISQUE_ENTRY (R391): the fabric is out of service. -/
def enterBisque (s : State) (reason badstk : Nat) : State :=
  { s with dev := { setProfile s.dev 3 with dstate := 2, reason := reason, badstk := badstk }
           ports := (List.range 24).map fun n => { Port.trained n with lanes := 0 } }

/-- PROFILE_SET (R391, R392): 1 BUSY during a change, 2 LIVE (log 99, DEDUCED) (log 118, DEDUCED). -/
def execProfileSet (vf : Nat) (s : State) : Host.Outcome State Fault Refusal :=
  cmdStep 0x34 vf s fun s _ _ b =>
    let p := b.arg 0
    badArg (3 < p || (b.args.drop 1).any (· != 0)) s
      (if s.dev.dstate == 2 then .over 0 (if p == 3 then s else { s with dev := { s.dev with exitProfile := some p } })
       else if s.dev.changing.isSome then .over 1 s
       else if p == 3 then (if s.ctxs.any (ctxLive s) then .over 2 s else .over 0 (enterBisque s 3 0))
       else if p == s.dev.profile then .over 0 s
       else .over 0 { s with dev := { s.dev with changing := some p } })

/-- PROFILE_PAUSE_END (R392): `sysr` 22 changes (log 117, DESIGN CHOICE). -/
def execProfilePauseEnd (s : State) : Host.Outcome State Fault Refusal :=
  .next (match s.dev.changing with
    | some p => { s with dev := setProfile s.dev p }
    | none => s)

/-- POWER_SAMPLE (R392): ten samples in a row above the limit make a millisecond: the clock goes down a step and CAP is set; below 95 % of the limit
it goes up a step (log 116, DEDUCED). -/
def execPowerSample (watts : Nat) (s : State) : Host.Outcome State Fault Refusal :=
  let d := s.dev
  let top := profileClock d.profile
  .next { s with dev :=
    if profileWatts d.profile < watts then
      if d.overRun < 9 then { d with overRun := d.overRun + 1 }
      else if 2400 < d.clockMHz then { d with overRun := 0, cap := true, clockMHz := max 2400 (d.clockMHz - 100) }
      else { d with overRun := 0 }
    else if d.clockMHz < top && watts * 100 < profileWatts d.profile * 95 then
      { d with overRun := 0, clockMHz := min top (d.clockMHz + 100), cap := decide (d.clockMHz + 100 < top) }
    else { d with overRun := 0 } }

/-! ### Bring-up -/

/-- The end of bring-up (R389 to R391): READY in the exit profile or the power-on profile, or the Bisque service. -/
def bringUp (s : State) (bad : BitVec 16) (monitorOk : Bool) : State :=
  if bad != 0 then enterBisque s 1 bad.toNat
  else if !monitorOk then enterBisque s 2 0
  else { s with dev := { setProfile s.dev (s.dev.exitProfile.getD s.dev.flashProfile) with dstate := 1, reason := 0, badstk := 0, exitProfile := none } }

/-- POWER_GOOD (R389): cold bring-up: nothing is left but module flash (log 119, DEDUCED). -/
def execPowerGood (badStacks : BitVec 16) (monitorOk : Bool) (s : State) : Host.Outcome State Fault Refusal :=
  let d := s.dev
  .next (if !d.poweredOff && (d.dstate != 0 || d.prevMonitor.isSome) then s
    else
      let kept := (d.partner.map PartnerSlot.gone).filter (·.flash.isSome)
      bringUp
        { State.reset with
          dev := { DevSt.reset with
            dev := d.dev, flashProfile := d.flashProfile, parity := d.parity, images := d.images, monitor := d.nextMonitor.getD d.monitor,
            partner := kept },
          outbox := s.outbox, nextId := s.nextId, free := s.free, agenda := s.agenda } badStacks monitorOk)

/-- What a warm reset clears beside the functions (R389): the links train anew, nothing is under way (log 105, DEDUCED). -/
def warmClear (s : State) : State :=
  let clear (k : Core) : Core := clearedCore k []
  { s with
    accesses := [], counts := [], stamps := [], owed := [], notifs := [], clocks := [], wakes := [], registrations := [], moves := [], tlb := [], walks := [], migrations := [], hostLines := [], resReqs := [],
    collNet := [], gwRetry := [], gwQueries := [], gwNet := [], gwRuns := [], throttled := [], rowActs := [], sideBuf := [], ports := [], flows := [], reorder := [],
    remote := [], served := [], remoteWaiters := [], drowsy := [], waits := [], samples := [], lateFaults := [], turns := [], cores := s.cores.map clear,
    dev := { s.dev with lostDevs := [], partner := s.dev.partner.map PartnerSlot.gone, changing := none, spdmVersion := false } }

/-- The monitor that a warm reset boots (R387): the marked one; whether it reports ready in time is not known before (log 106, DESIGN CHOICE). -/
def bootMonitor (s : State) : Bool × State :=
  match s.dev.nextMonitor with
  | none => (true, s)
  | some v =>
    let c := choose s 2
    (c.1 == 0, { c.2 with dev := { c.2.dev with monitor := v, nextMonitor := none,
                                                prevMonitor := if c.1 == 0 then none else some s.dev.monitor } })

/-- WARM_RESET (R280, R316, R385, R389, R391): every function is reset, every ring is marked; the device comes up again, or waits for its new monitor. -/
def execWarmReset (requester : DWord) (badStacks : BitVec 16) (monitorOk : Bool) (s : State) : Host.Outcome State Fault Refusal :=
  let m := mint ((List.range 257).foldl finishFn s) 0
  let s1 := flueReset m.2 (ringsOf 0xFFFF)
  let s2 := (ringsOf 0xFFFF).foldl (fun s id => resetMark s id m.1 requester) s1
  let s3 := bootMonitor (warmClear s2)
  let s4 := bringUp s3.2 badStacks monitorOk
  .next (if s.dev.dstate == 0 then s
    else if s4.dev.dstate == 2 then { s4 with dev := { s4.dev with prevMonitor := none } }
    else if s3.1 then s4
    else { s4 with dev := { s4.dev with dstate := 0, bootAt := s.time.dtc } })

/-- MONITOR_READY_TIMEOUT (R387): the new monitor has not reported ready within 2 s: the previous slot is booted, reason 4. -/
def execMonitorReadyTimeout (s : State) : Host.Outcome State Fault Refusal :=
  .next (match s.dev.prevMonitor with
    | none => s
    | some v =>
      if s.dev.dstate != 0 || s.time.dtc < s.dev.bootAt + usTicks 2000000 then s
      else { s with dev := { s.dev with monitor := v, prevMonitor := none, dstate := 1, reason := 4 } })

/-- MODULE_POWER_LOSS (R316): every ring is empty; nothing runs until power returns. -/
def execModulePowerLoss (s : State) : Host.Outcome State Fault Refusal := .next { s with rings := [], flue := [], dev := { s.dev with poweredOff := true } }

/-! ### Partitioning and quotas -/

/-- PART_SET (R376): ARG0 a function, ARG1 the mask of its clusters; function 0 with no cluster chooses temporal partitioning (log 42, DESIGN CHOICE). BUSY has no number:
a free status (log 38, DESIGN CHOICE). -/
def execPartSet (vf : Nat) (s : State) : Host.Outcome State Fault Refusal :=
  cmdStep 0x30 vf s fun s _ _ b =>
    let cl := (List.range 16).filter (b.arg 1).testBit
    badArg (256 < b.arg 0 || 2 ^ 16 ≤ b.arg 1 || (b.arg 0 == 0 && b.arg 1 != 0) ||
        s.fns.any (fun f => f.vf != 0 && f.vf != b.arg 0 && s.dev.spatial && f.clusters.any cl.contains)) s
      (if s.ctxs.any (fun c => c.vf != 0 && ctxLive s c) then .over (stFree 1) s
       else if b.arg 0 == 0 then
         let none_ (f : Fn) : Fn := { f with clusters := [] }
         .over 0 { s with dev := { s.dev with spatial := false }, fns := s.fns.map none_ }
       else .over 0 ({ s with dev := { s.dev with spatial := true } }.setFn (b.arg 0) fun f => { f with clusters := cl }))

/-- VF_SLICE (R376): microseconds. -/
def execVfSlice (vf : Nat) (s : State) : Host.Outcome State Fault Refusal :=
  cmdStep 0x31 vf s fun s _ _ b =>
    badArg (256 < b.arg 0 || b.arg 1 < 100 || 100000 < b.arg 1) s (.over 0 (s.setFn (b.arg 0) fun f => { f with slice := b.arg 1 }))

/-- The resource that VF_QUOTA's value names in its top byte (log 42, DESIGN CHOICE): address spaces, queues, counters, sends, leases, lease bytes, regions,
communicators, collective instances. -/
def setQuota (f : Fn) (kind n : Nat) : Option Fn :=
  match kind with
  | 0 => some { f with quotaAsids := n }
  | 1 => some { f with quotaQueues := n }
  | 2 => if n ≤ 4096 then some { f with quotaCounters := n } else none
  | 3 => some { f with quotaSends := n }
  | 4 => some { f with quotaLeases := n }
  | 5 => some { f with quotaLeaseBytes := n }
  | 6 => some { f with quotaRegions := n }
  | 7 => some { f with quotaComms := n }
  | 8 => some { f with quotaColls := n }
  | _ => none

/-- VF_QUOTA (R377). The range of counters that a commit has granted stays as it is, so its quota changes only before. -/
def execVfQuota (vf : Nat) (s : State) : Host.Outcome State Fault Refusal :=
  cmdStep 0x32 vf s fun s _ _ b =>
    match s.fn? (b.arg 0) with
    | none => .over stBadArg s
    | some f =>
      let kind := b.arg 1 / 2 ^ 56
      if kind == 2 && f.counterBase.isSome then .over stBadArg s
      else match setQuota f kind (b.arg 1 % 2 ^ 56) with
        | none => .over stBadArg s
        | some g => .over 0 (s.setFn (b.arg 0) fun _ => g)

/-! ### Firmware images -/

/-- The images of a kind that flash can hold (R387). -/
def imageSlots (kind : Nat) : Nat := if kind == 1 then 2 else if kind == 2 then 8 else 64

/-- Whether an image must stay: the monitors that run, are marked or may be booted again. -/
def imageHeld (s : State) (i : FwImage) : Bool :=
  i.kind != 1 || i.version == s.dev.monitor || s.dev.nextMonitor == some i.version || s.dev.prevMonitor == some i.version

/-- Flash without the images that make room for a new one: of the same kind and version, or a monitor slot that is not in use (log 45, DESIGN CHOICE). -/
def flashRoom (s : State) (kind version : Nat) : List FwImage :=
  s.dev.images.filter fun i => !(i.kind == kind && (i.version == version || !imageHeld s i))

/-- IMAGE_STAGE (R386, R387): 1 BADSIG, 2 BADHASH, 3 MINMON, 5 NOSPACE; a header that breaks R386 otherwise, or a length that is not the image's, is BADARG (log 120, DEDUCED). -/
def execImageStage (vf : Nat) (s : State) : Host.Outcome State Fault Refusal :=
  cmdStep 0x38 vf s fun s f _ b =>
    match devRead s vf f.asid (BitVec.ofNat 64 (b.arg 0)) (b.arg 1) with
    | .error _ => .over stBadArg s
    | .ok bs =>
      let h := bytesNat (bs.take 256)
      let kind := natBits h 39 32
      let body := bs.drop 256
      badArg (b.arg 1 < 256 || natBits h 31 0 != 0x4A5A4657 || natBits h 47 40 != 0 || natBits h 2047 1472 != 0 || kind == 0 || 3 < kind ||
          2 ^ 26 < natBits h 191 128 || body.length != natBits h 191 128 || (kind != 2 && natBits h 63 48 != 0)) s
        (let img : FwImage := ⟨kind, natBits h 95 64, natBits h 63 48, natBits h 127 96, natBytes 32 (natBits h 447 192)⟩
         let room := flashRoom s kind img.version
         match firstStatus [(!Config.imageValid (bs.take 256), 1), (Config.digest body != img.digest, 2), (decide (s.dev.monitor < img.minmon), 3),
             (decide (imageSlots kind ≤ (room.filter (·.kind == kind)).length), 5)] with
         | some st => .over st s
         | none => .over 0 { s with dev := { s.dev with images := room ++ [img] } })

/-- IMAGE_ACTIVATE (R387): a monitor is marked for the next warm reset. -/
def execImageActivate (vf : Nat) (s : State) : Host.Outcome State Fault Refusal :=
  cmdStep 0x39 vf s fun s _ _ b =>
    badArg (!(s.dev.images.any fun i => i.kind == 1 && i.version == b.arg 0)) s
      (.over 0 { s with dev := { s.dev with nextMonitor := some (b.arg 0) } })

/-- Whether a context of a function is saved in a layout that a set of layouts lacks. -/
def layoutHeld (s : State) (vf layouts : Nat) : Bool :=
  s.ctxs.any fun c => c.vf == vf && (match c.image with | some i => !layouts.testBit i.layout | none => false)

/-- SCHED_PIN (R387): one step of the monitor at the function's next slice boundary; 4 LAYOUT (log 121, DEDUCED). -/
def execSchedPin (vf : Nat) (s : State) : Host.Outcome State Fault Refusal :=
  cmdStep 0x3A vf s fun s f _ b =>
    match s.dev.images.find? fun i => i.kind == 2 && i.version == b.arg 0 with
    | none => .over stBadArg s
    | some i =>
      badArg (b.arg 1 != 0 && !(s.dev.images.any fun j => j.kind == 3 && j.version == b.arg 1)) s
        (if !sliceOver s f then .wait s
         else if layoutHeld s vf i.layouts then .over 4 (sliceBoundary s f)
         else .over 0 ((sliceBoundary s f).setFn vf fun f => { f with schedPin := b.arg 0, pluginPin := b.arg 1 }))

end Sys2Proof.Machine
end

