-- ==== Sys2Proof/Machine/Integer.lean ====
section
/-! DEFINITION. Meanings: integer arithmetic, logic, bit fields, selection, compares and 64-bit addresses (spec/04 R64 to R74). -/

namespace Sys2Proof.Machine

/-- A two-source integer operation in one lane (R67). -/
def intBin (x : Ext) (g : Bool → Word → Word → Word) (e : Enc) (l : Fibre) : LaneOut :=
  out32 e (g (isN32 e) (l.src (aField e)) (bVal x e l))

/-- A one-source integer operation in one lane (R68). -/
def intUn (g : Word → Word) (e : Enc) (l : Fibre) : LaneOut := out32 e (g (l.src (aField e)))

/-- An integer compare: the test combines into bit D of `pw` (R73). -/
def intCmp (c : Cond) (e : Enc) (l : Fibre) : LaneOut :=
  outPw (cmpPw l.pw e.fields.1 (modOf e / 2 % 4) (c.int (isN32 e) (l.src (aField e)) (bVal .sign e l)))

/-- `add` (R67), format H. -/
def execAddS32H (f : HF) (s : State) : Host.Outcome State Fault Refusal :=
  lanewise (.addS32H f) s (intBin .sign aluAdd)

/-- `add` (R67), format W. -/
def execAddW (f : WF) (s : State) : Host.Outcome State Fault Refusal :=
  lanewise (.addW f) s (intBin .sign aluAdd)

/-- `add` (R67), format WI. -/
def execAddWi (f : WIF) (s : State) : Host.Outcome State Fault Refusal :=
  lanewise (.addWi f) s (intBin .sign aluAdd)

/-- `add` (R67), format L. -/
def execAddL (f : LF) (s : State) : Host.Outcome State Fault Refusal :=
  lanewise (.addL f) s (intBin .sign aluAdd)

/-- `sub` (R67), format H. -/
def execSubS32H (f : HF) (s : State) : Host.Outcome State Fault Refusal :=
  lanewise (.subS32H f) s (intBin .sign aluSub)

/-- `sub` (R67), format W. -/
def execSubW (f : WF) (s : State) : Host.Outcome State Fault Refusal :=
  lanewise (.subW f) s (intBin .sign aluSub)

/-- `sub` (R67), format L. -/
def execSubL (f : LF) (s : State) : Host.Outcome State Fault Refusal :=
  lanewise (.subL f) s (intBin .sign aluSub)

/-- `addSat` (R67), format W. -/
def execAddSatW (f : WF) (s : State) : Host.Outcome State Fault Refusal :=
  lanewise (.addSatW f) s (intBin .sign aluAddSat)

/-- `addSat` (R67), format L. -/
def execAddSatL (f : LF) (s : State) : Host.Outcome State Fault Refusal :=
  lanewise (.addSatL f) s (intBin .sign aluAddSat)

/-- `subSat` (R67), format W. -/
def execSubSatW (f : WF) (s : State) : Host.Outcome State Fault Refusal :=
  lanewise (.subSatW f) s (intBin .sign aluSubSat)

/-- `subSat` (R67), format L. -/
def execSubSatL (f : LF) (s : State) : Host.Outcome State Fault Refusal :=
  lanewise (.subSatL f) s (intBin .sign aluSubSat)

/-- `mul` (R67), format H. -/
def execMulS32H (f : HF) (s : State) : Host.Outcome State Fault Refusal :=
  lanewise (.mulS32H f) s (intBin .sign aluMul)

/-- `mul` (R67), format W. -/
def execMulW (f : WF) (s : State) : Host.Outcome State Fault Refusal :=
  lanewise (.mulW f) s (intBin .sign aluMul)

/-- `mul` (R67), format WI. -/
def execMulWi (f : WIF) (s : State) : Host.Outcome State Fault Refusal :=
  lanewise (.mulWi f) s (intBin .sign aluMul)

/-- `mul` (R67), format L. -/
def execMulL (f : LF) (s : State) : Host.Outcome State Fault Refusal :=
  lanewise (.mulL f) s (intBin .sign aluMul)

/-- `mulhi` (R67), format W. -/
def execMulhiW (f : WF) (s : State) : Host.Outcome State Fault Refusal :=
  lanewise (.mulhiW f) s (intBin .sign aluMulhi)

/-- `mulhi` (R67), format L. -/
def execMulhiL (f : LF) (s : State) : Host.Outcome State Fault Refusal :=
  lanewise (.mulhiL f) s (intBin .sign aluMulhi)

/-- `min` (R67), format W. -/
def execMinW (f : WF) (s : State) : Host.Outcome State Fault Refusal :=
  lanewise (.minW f) s (intBin .sign aluMin)

/-- `min` (R67), format WI. -/
def execMinWi (f : WIF) (s : State) : Host.Outcome State Fault Refusal :=
  lanewise (.minWi f) s (intBin .sign aluMin)

/-- `min` (R67), format L. -/
def execMinL (f : LF) (s : State) : Host.Outcome State Fault Refusal :=
  lanewise (.minL f) s (intBin .sign aluMin)

/-- `max` (R67), format W. -/
def execMaxW (f : WF) (s : State) : Host.Outcome State Fault Refusal :=
  lanewise (.maxW f) s (intBin .sign aluMax)

/-- `max` (R67), format WI. -/
def execMaxWi (f : WIF) (s : State) : Host.Outcome State Fault Refusal :=
  lanewise (.maxWi f) s (intBin .sign aluMax)

/-- `max` (R67), format L. -/
def execMaxL (f : LF) (s : State) : Host.Outcome State Fault Refusal :=
  lanewise (.maxL f) s (intBin .sign aluMax)

/-- `and` (R67), format H. -/
def execAndH (f : HF) (s : State) : Host.Outcome State Fault Refusal :=
  lanewise (.andH f) s (intBin .sign aluAnd)

/-- `and` (R67), format W. -/
def execAndW (f : WF) (s : State) : Host.Outcome State Fault Refusal :=
  lanewise (.andW f) s (intBin .sign aluAnd)

/-- `and` (R67), format WI. -/
def execAndWi (f : WIF) (s : State) : Host.Outcome State Fault Refusal :=
  lanewise (.andWi f) s (intBin .sign aluAnd)

/-- `and` (R67), format L. -/
def execAndL (f : LF) (s : State) : Host.Outcome State Fault Refusal :=
  lanewise (.andL f) s (intBin .sign aluAnd)

/-- `or` (R67), format H. -/
def execOrH (f : HF) (s : State) : Host.Outcome State Fault Refusal :=
  lanewise (.orH f) s (intBin .sign aluOr)

/-- `or` (R67), format W. -/
def execOrW (f : WF) (s : State) : Host.Outcome State Fault Refusal :=
  lanewise (.orW f) s (intBin .sign aluOr)

/-- `or` (R67), format WI. -/
def execOrWi (f : WIF) (s : State) : Host.Outcome State Fault Refusal :=
  lanewise (.orWi f) s (intBin .sign aluOr)

/-- `or` (R67), format L. -/
def execOrL (f : LF) (s : State) : Host.Outcome State Fault Refusal :=
  lanewise (.orL f) s (intBin .sign aluOr)

/-- `xor` (R67), format H. -/
def execXorH (f : HF) (s : State) : Host.Outcome State Fault Refusal :=
  lanewise (.xorH f) s (intBin .sign aluXor)

/-- `xor` (R67), format W. -/
def execXorW (f : WF) (s : State) : Host.Outcome State Fault Refusal :=
  lanewise (.xorW f) s (intBin .sign aluXor)

/-- `xor` (R67), format WI. -/
def execXorWi (f : WIF) (s : State) : Host.Outcome State Fault Refusal :=
  lanewise (.xorWi f) s (intBin .sign aluXor)

/-- `xor` (R67), format L. -/
def execXorL (f : LF) (s : State) : Host.Outcome State Fault Refusal :=
  lanewise (.xorL f) s (intBin .sign aluXor)

/-- `andn` (R67), format W. -/
def execAndnW (f : WF) (s : State) : Host.Outcome State Fault Refusal :=
  lanewise (.andnW f) s (intBin .sign aluAndn)

/-- `andn` (R67), format L. -/
def execAndnL (f : LF) (s : State) : Host.Outcome State Fault Refusal :=
  lanewise (.andnL f) s (intBin .sign aluAndn)

/-- `shl` (R67), format H. -/
def execShlH (f : HF) (s : State) : Host.Outcome State Fault Refusal :=
  lanewise (.shlH f) s (intBin .zero aluShl)

/-- `shl` (R67), format W. -/
def execShlW (f : WF) (s : State) : Host.Outcome State Fault Refusal :=
  lanewise (.shlW f) s (intBin .zero aluShl)

/-- `shl` (R67), format WI. -/
def execShlWi (f : WIF) (s : State) : Host.Outcome State Fault Refusal :=
  lanewise (.shlWi f) s (intBin .zero aluShl)

/-- `shl` (R67), format L. -/
def execShlL (f : LF) (s : State) : Host.Outcome State Fault Refusal :=
  lanewise (.shlL f) s (intBin .zero aluShl)

/-- `shr` (R67), format H. -/
def execShrH (f : HF) (s : State) : Host.Outcome State Fault Refusal :=
  lanewise (.shrH f) s (intBin .zero aluShr)

/-- `shr` (R67), format W. -/
def execShrW (f : WF) (s : State) : Host.Outcome State Fault Refusal :=
  lanewise (.shrW f) s (intBin .zero aluShr)

/-- `shr` (R67), format WI. -/
def execShrWi (f : WIF) (s : State) : Host.Outcome State Fault Refusal :=
  lanewise (.shrWi f) s (intBin .zero aluShr)

/-- `shr` (R67), format L. -/
def execShrL (f : LF) (s : State) : Host.Outcome State Fault Refusal :=
  lanewise (.shrL f) s (intBin .zero aluShr)

/-- `sar` (R67), format H. -/
def execSarH (f : HF) (s : State) : Host.Outcome State Fault Refusal :=
  lanewise (.sarH f) s (intBin .zero aluSar)

/-- `sar` (R67), format W. -/
def execSarW (f : WF) (s : State) : Host.Outcome State Fault Refusal :=
  lanewise (.sarW f) s (intBin .zero aluSar)

/-- `sar` (R67), format WI. -/
def execSarWi (f : WIF) (s : State) : Host.Outcome State Fault Refusal :=
  lanewise (.sarWi f) s (intBin .zero aluSar)

/-- `sar` (R67), format L. -/
def execSarL (f : LF) (s : State) : Host.Outcome State Fault Refusal :=
  lanewise (.sarL f) s (intBin .zero aluSar)

/-- `rot` (R67), format W. -/
def execRotW (f : WF) (s : State) : Host.Outcome State Fault Refusal :=
  lanewise (.rotW f) s (intBin .zero aluRot)

/-- `rot` (R67), format WI. -/
def execRotWi (f : WIF) (s : State) : Host.Outcome State Fault Refusal :=
  lanewise (.rotWi f) s (intBin .zero aluRot)

/-- `rot` (R67), format L. -/
def execRotL (f : LF) (s : State) : Host.Outcome State Fault Refusal :=
  lanewise (.rotL f) s (intBin .zero aluRot)

/-- `mov` in format H takes S (R41, R68). -/
def execMovH (f : HF) (s : State) : Host.Outcome State Fault Refusal :=
  lanewise (.movH f) s fun e l => out32 e (aluMov (l.src (bField e)))

/-- `mov` (R68), format W. -/
def execMovW (f : WF) (s : State) : Host.Outcome State Fault Refusal :=
  lanewise (.movW f) s (intUn aluMov)

/-- `mov` (R68), format L. -/
def execMovL (f : LF) (s : State) : Host.Outcome State Fault Refusal :=
  lanewise (.movL f) s (intUn aluMov)

/-- `abs` (R68), format W. -/
def execAbsW (f : WF) (s : State) : Host.Outcome State Fault Refusal :=
  lanewise (.absW f) s (intUn aluAbs)

/-- `abs` (R68), format L. -/
def execAbsL (f : LF) (s : State) : Host.Outcome State Fault Refusal :=
  lanewise (.absL f) s (intUn aluAbs)

/-- `neg` (R68), format W. -/
def execNegW (f : WF) (s : State) : Host.Outcome State Fault Refusal :=
  lanewise (.negW f) s (intUn aluNeg)

/-- `neg` (R68), format L. -/
def execNegL (f : LF) (s : State) : Host.Outcome State Fault Refusal :=
  lanewise (.negL f) s (intUn aluNeg)

/-- `not` (R68), format W. -/
def execNotW (f : WF) (s : State) : Host.Outcome State Fault Refusal :=
  lanewise (.notW f) s (intUn aluNot)

/-- `not` (R68), format L. -/
def execNotL (f : LF) (s : State) : Host.Outcome State Fault Refusal :=
  lanewise (.notL f) s (intUn aluNot)

/-- `popc` (R68), format W. -/
def execPopcW (f : WF) (s : State) : Host.Outcome State Fault Refusal :=
  lanewise (.popcW f) s (intUn aluPopc)

/-- `popc` (R68), format L. -/
def execPopcL (f : LF) (s : State) : Host.Outcome State Fault Refusal :=
  lanewise (.popcL f) s (intUn aluPopc)

/-- `clz` (R68), format W. -/
def execClzW (f : WF) (s : State) : Host.Outcome State Fault Refusal :=
  lanewise (.clzW f) s (intUn aluClz)

/-- `clz` (R68), format L. -/
def execClzL (f : LF) (s : State) : Host.Outcome State Fault Refusal :=
  lanewise (.clzL f) s (intUn aluClz)

/-- `ctz` (R68), format W. -/
def execCtzW (f : WF) (s : State) : Host.Outcome State Fault Refusal :=
  lanewise (.ctzW f) s (intUn aluCtz)

/-- `ctz` (R68), format L. -/
def execCtzL (f : LF) (s : State) : Host.Outcome State Fault Refusal :=
  lanewise (.ctzL f) s (intUn aluCtz)

/-- `brev` (R68), format W. -/
def execBrevW (f : WF) (s : State) : Host.Outcome State Fault Refusal :=
  lanewise (.brevW f) s (intUn aluBrev)

/-- `brev` (R68), format L. -/
def execBrevL (f : LF) (s : State) : Host.Outcome State Fault Refusal :=
  lanewise (.brevL f) s (intUn aluBrev)

/-- `li` writes IMM32 (R69). -/
def execLi (f : LIF) (s : State) : Host.Outcome State Fault Refusal :=
  lanewise (.li f) s fun e _ => out32 e f.imm32

/-- `mulw` (R70), format W. -/
def execMulwW (f : WF) (s : State) : Host.Outcome State Fault Refusal :=
  lanewise (.mulwW f) s fun e l =>
    out64 e (aluMulw (isN32 e) (l.src (aField e)) (bVal .sign e l) 0)

/-- `mulw` (R70), format L. -/
def execMulwL (f : LF) (s : State) : Host.Outcome State Fault Refusal :=
  lanewise (.mulwL f) s fun e l =>
    out64 e (aluMulw (isN32 e) (l.src (aField e)) (bVal .sign e l) 0)

/-- `mad` (R70). -/
def execMad (f : LF) (s : State) : Host.Outcome State Fault Refusal :=
  lanewise (.mad f) s fun e l =>
    out32 e (aluMad (l.src (aField e)) (bVal .sign e l) (l.src (cField e)))

/-- `madw` (R70). -/
def execMadw (f : LF) (s : State) : Host.Outcome State Fault Refusal :=
  lanewise (.madw f) s fun e l =>
    out64 e (aluMulw (isN32 e) (l.src (aField e)) (bVal .sign e l) (l.src64 (cField e)))

/-- `bfx`: pos in IMM16[4:0], len in IMM16[10:5] (R71). -/
def execBfx (f : LF) (s : State) : Host.Outcome State Fault Refusal :=
  lanewise (.bfx f) s fun e l =>
    out32 e (aluBfx (isN32 e) (natBits (imm16Of e) 4 0) (natBits (imm16Of e) 10 5) (l.src (aField e)))

/-- `bfi` (R71). -/
def execBfi (f : LF) (s : State) : Host.Outcome State Fault Refusal :=
  lanewise (.bfi f) s fun e l =>
    out32 e (aluBfi (natBits (imm16Of e) 4 0) (natBits (imm16Of e) 10 5) (l.src (aField e)) (l.src (bField e)))

/-- `bsel` (R72). -/
def execBsel (f : LF) (s : State) : Host.Outcome State Fault Refusal :=
  lanewise (.bsel f) s fun e l =>
    out32 e (aluBsel (l.src (aField e)) (bVal .sign e l) (l.src (cField e)))

/-- `sel` on bit IMM16[4:0] of `pw` (R72). -/
def execSel (f : LF) (s : State) : Host.Outcome State Fault Refusal :=
  lanewise (.sel f) s fun e l =>
    out32 e (if l.pw.getLsbD (natBits (imm16Of e) 4 0) then l.src (aField e) else l.src (bField e))

/-- `cmp.eq` (R73), format W. -/
def execCmpEqW (f : WF) (s : State) : Host.Outcome State Fault Refusal :=
  lanewise (.cmpEqW f) s (intCmp .eq)

/-- `cmp.eq` (R73), format WI. -/
def execCmpEqWi (f : WIF) (s : State) : Host.Outcome State Fault Refusal :=
  lanewise (.cmpEqWi f) s (intCmp .eq)

/-- `cmp.eq` (R73), format L. -/
def execCmpEqL (f : LF) (s : State) : Host.Outcome State Fault Refusal :=
  lanewise (.cmpEqL f) s (intCmp .eq)

/-- `cmp.ne` (R73), format W. -/
def execCmpNeW (f : WF) (s : State) : Host.Outcome State Fault Refusal :=
  lanewise (.cmpNeW f) s (intCmp .ne)

/-- `cmp.ne` (R73), format WI. -/
def execCmpNeWi (f : WIF) (s : State) : Host.Outcome State Fault Refusal :=
  lanewise (.cmpNeWi f) s (intCmp .ne)

/-- `cmp.ne` (R73), format L. -/
def execCmpNeL (f : LF) (s : State) : Host.Outcome State Fault Refusal :=
  lanewise (.cmpNeL f) s (intCmp .ne)

/-- `cmp.lt` (R73), format W. -/
def execCmpLtW (f : WF) (s : State) : Host.Outcome State Fault Refusal :=
  lanewise (.cmpLtW f) s (intCmp .lt)

/-- `cmp.lt` (R73), format WI. -/
def execCmpLtWi (f : WIF) (s : State) : Host.Outcome State Fault Refusal :=
  lanewise (.cmpLtWi f) s (intCmp .lt)

/-- `cmp.lt` (R73), format L. -/
def execCmpLtL (f : LF) (s : State) : Host.Outcome State Fault Refusal :=
  lanewise (.cmpLtL f) s (intCmp .lt)

/-- `cmp.le` (R73), format W. -/
def execCmpLeW (f : WF) (s : State) : Host.Outcome State Fault Refusal :=
  lanewise (.cmpLeW f) s (intCmp .le)

/-- `cmp.le` (R73), format WI. -/
def execCmpLeWi (f : WIF) (s : State) : Host.Outcome State Fault Refusal :=
  lanewise (.cmpLeWi f) s (intCmp .le)

/-- `cmp.le` (R73), format L. -/
def execCmpLeL (f : LF) (s : State) : Host.Outcome State Fault Refusal :=
  lanewise (.cmpLeL f) s (intCmp .le)

/-- `cmp.gt` (R73), format W. -/
def execCmpGtW (f : WF) (s : State) : Host.Outcome State Fault Refusal :=
  lanewise (.cmpGtW f) s (intCmp .gt)

/-- `cmp.gt` (R73), format WI. -/
def execCmpGtWi (f : WIF) (s : State) : Host.Outcome State Fault Refusal :=
  lanewise (.cmpGtWi f) s (intCmp .gt)

/-- `cmp.gt` (R73), format L. -/
def execCmpGtL (f : LF) (s : State) : Host.Outcome State Fault Refusal :=
  lanewise (.cmpGtL f) s (intCmp .gt)

/-- `cmp.ge` (R73), format W. -/
def execCmpGeW (f : WF) (s : State) : Host.Outcome State Fault Refusal :=
  lanewise (.cmpGeW f) s (intCmp .ge)

/-- `cmp.ge` (R73), format WI. -/
def execCmpGeWi (f : WIF) (s : State) : Host.Outcome State Fault Refusal :=
  lanewise (.cmpGeWi f) s (intCmp .ge)

/-- `cmp.ge` (R73), format L. -/
def execCmpGeL (f : LF) (s : State) : Host.Outcome State Fault Refusal :=
  lanewise (.cmpGeL f) s (intCmp .ge)

/-- `add64` (R74). -/
def execAdd64 (f : LF) (s : State) : Host.Outcome State Fault Refusal :=
  lanewise (.add64 f) s fun e l =>
    out64 e (l.src64 (aField e) + (if f.mod.getLsbD 3 then f.imm16.signExtend 64 else l.src64 (bField e)))

/-- `lea64` (R74). -/
def execLea64 (f : LF) (s : State) : Host.Outcome State Fault Refusal :=
  lanewise (.lea64 f) s fun e l =>
    out64 e (aluLea64 (isN32 e) (natBits (imm16Of e) 3 0) (l.src64 (aField e)) (l.src (bField e)))

end Sys2Proof.Machine
end

