-- ==== Sys2Proof/Machine/Time.lean ====
section
/-! DEFINITION. Meanings: the discipline of device time (spec/18 R304 to R307), attestation (spec/25 R388). A measured offset is in ticks of 250 ps, positive where
the DTC is behind. -/

namespace Sys2Proof.Machine

/-! ### Steps of device time -/

/-- TIME_STEP (R306): the direction in [15], the magnitude in microseconds. -/
def timeStep (s : State) (back : Bool) (ticks : Nat) : State :=
  let t := { s.time with dtc := if back then s.time.dtc - ticks else s.time.dtc + ticks, back := 0 }
  let m := mint { s with time := t } 0
  emit m.2 fwSrc 0x0F03 m.1 0 (min 0x7FFF (ticks / 4000) + if back then 2 ^ 15 else 0) 0xFFFF

/-- Whether a context of any function is live (R306). -/
def anyLive (s : State) : Bool := s.ctxs.any (ctxLive s)

/-- A measured offset is removed (R306): slewing changes the rate at which the DTC advances, which is free (log 6, DESIGN CHOICE). -/
def discipline (s : State) (e : Int) (state : Nat) : State :=
  let n := e.natAbs
  let s1 := { s with time := { s.time with state := state, offs := min 0xFFFF (n / 4), back := 0 } }
  if n < usTicks 1 then s1
  else if 0 < e then timeStep s1 false n
  else if anyLive s then (if usTicks 1000 ≤ n then { s1 with time := { s1.time with back := n } } else s1)
  else timeStep s1 true n

/-- PTP_MESSAGE (R305): the clock measures an offset from its master: LOCKED (log 113, DESIGN CHOICE). -/
def execPtpMessage (offset : Int) (s : State) : Host.Outcome State Fault Refusal := .next (discipline s offset 1)

/-- DTC_SAMPLE (R305): a device without a grandmaster is steered toward the mean of its locked neighbours; `offset` is the offset from that mean with this
sample in it (log 114, DESIGN CHOICE). -/
def execDtcSample (port : Nat) (offset : Int) (locked : Bool) (s : State) : Host.Outcome State Fault Refusal :=
  .next (if 24 ≤ port || (s.port port).lanes == 0 || !locked || s.time.state == 1 then s else discipline s offset 2)

/-- DTC_SAMPLE_SEND (R305, R332): a sample leaves for whatever device is at the other end of the link (log 115, DESIGN CHOICE). -/
def execDtcSampleSend (port : Nat) (s : State) : Host.Outcome State Fault Refusal :=
  .next (if 24 ≤ port || (s.port port).lanes == 0 then s
    else sendPkt s { blankPkt s 0xFFF port with op := 0x31, vc := 3, len := 1, payload := natBytes 8 s.time.dtc ++ natBytes 8 s.time.state })

/-- TIME_STEP_DEFERRED (R306): the waiting backward step is taken once no context is live. -/
def execTimeStepDeferred (s : State) : Host.Outcome State Fault Refusal :=
  .next (if s.time.back == 0 || anyLive s then s else timeStep s true s.time.back)

/-- HOLDOVER (R305, R307): every source is lost; a device that was never locked stays FREE. -/
def execHoldover (s : State) : Host.Outcome State Fault Refusal :=
  .next (if s.time.state == 0 then s else { s with time := { s.time with state := 3 } })

/-- TEPOCH_WRITE (R304). -/
def execTepochWrite (seconds : DWord) (s : State) : Host.Outcome State Fault Refusal := .next { s with time := { s.time with tepoch := seconds.toNat } }

/-- PTP_DOMAIN_SET (R305): 0 to 127. -/
def execPtpDomainSet (domain : BitVec 8) (s : State) : Host.Outcome State Fault Refusal :=
  .next (if 127 < domain.toNat then s else { s with time := { s.time with domain := domain.toNat } })

/-! ### Attestation -/

/-- What the measurement with an index is computed over (R388): ROM, running monitor, configuration, pins, staged monitor. The contents of the ROM are
not in the spec: a free byte stands for them. -/
def measurement (s : State) (i : Nat) : List Byte :=
  let hashOf (kind v : Nat) : List Byte := ((s.dev.images.find? fun x => x.kind == kind && x.version == v).map (·.digest)).getD (natBytes 32 0)
  if i == 1 then Config.digest [BitVec.ofNat 8 (Config.freeNat (2 ^ 71))]
  else if i == 2 then hashOf 1 s.dev.monitor
  else if i == 3 then
    Config.digest (natBytes 1 (if s.dev.parity then 1 else 0) ++ natBytes 1 s.dev.profile ++ (List.range 4).flatMap fun k => natBytes 8 (bitsWord (offered s) k))
  else if i == 4 then
    Config.digest ((List.range 257).flatMap fun v =>
      let f := (s.fn? v).getD (Fn.fresh v)
      hashOf 2 f.schedPin ++ hashOf 3 f.pluginPin)
  else if i == 5 then (match s.dev.nextMonitor with | some v => hashOf 1 v | none => natBytes 32 0)
  else []

/-- An SPDM answer (R388): the code of the response; the bytes that the spec does not give are free, as a signature over what stands before them. The
message codes are those of SPDM 1.3 (log 46, PRESUMED). Without a GET_VERSION first the request is unexpected. -/
def spdmAnswer (s : State) (code : Nat) (req body : List Byte) : State :=
  let head := natBytes 1 0x13 ++ natBytes 1 code ++ body
  let bs := if s.dev.spdmVersion then head ++ Config.signature (req ++ head) else natBytes 1 0x13 ++ natBytes 1 0x7F ++ natBytes 1 4
  { s with outbox := s.outbox ++ [Out.mgmt bs] }

/-- GET_VERSION (R388): it begins an exchange anew. -/
def execGetVersion (req : List Byte) (s : State) : Host.Outcome State Fault Refusal :=
  .next (spdmAnswer { s with dev := { s.dev with spdmVersion := true } } 0x04 req [])

/-- GET_CAPABILITIES (R388). -/
def execGetCapabilities (req : List Byte) (s : State) : Host.Outcome State Fault Refusal := .next (spdmAnswer s 0x61 req [])

/-- NEGOTIATE_ALGORITHMS (R388). -/
def execNegotiateAlgorithms (req : List Byte) (s : State) : Host.Outcome State Fault Refusal := .next (spdmAnswer s 0x63 req [])

/-- GET_DIGESTS (R388): of the chain in slot 0. -/
def execGetDigests (req : List Byte) (s : State) : Host.Outcome State Fault Refusal :=
  .next (spdmAnswer s 0x01 req (natBytes 1 0 ++ natBytes 1 1))

/-- GET_CERTIFICATE (R388). -/
def execGetCertificate (req : List Byte) (s : State) : Host.Outcome State Fault Refusal := .next (spdmAnswer s 0x02 req [])

/-- CHALLENGE (R388). -/
def execChallenge (req : List Byte) (s : State) : Host.Outcome State Fault Refusal :=
  .next (spdmAnswer s 0x03 req ((List.range 5).flatMap fun i => measurement s (i + 1)))

/-- GET_MEASUREMENTS (R388): byte 3 of the request names an index, 0 the number of measurements, 255 all. -/
def execGetMeasurements (req : List Byte) (s : State) : Host.Outcome State Fault Refusal :=
  let i := bytesNat ((req.drop 3).take 1)
  let body := if i == 0 then natBytes 1 5
    else if i == 255 then (List.range 5).flatMap fun i => natBytes 1 (i + 1) ++ measurement s (i + 1)
    else natBytes 1 i ++ measurement s i
  .next (spdmAnswer s 0x60 req body)

end Sys2Proof.Machine
end

