-- ==== Sys2Proof/Machine/Dispatch.lean ====
section
/-! DEFINITION. The dispatch of an instruction to its meaning: one arm for each constructor. -/

namespace Sys2Proof.Machine

def exec (i : Instr) (s : State) : Host.Outcome State Fault Refusal :=
  match i with
  | .movH f => Sys2Proof.Machine.execMovH f s
  | .addS32H f => Sys2Proof.Machine.execAddS32H f s
  | .subS32H f => Sys2Proof.Machine.execSubS32H f s
  | .mulS32H f => Sys2Proof.Machine.execMulS32H f s
  | .andH f => Sys2Proof.Machine.execAndH f s
  | .orH f => Sys2Proof.Machine.execOrH f s
  | .xorH f => Sys2Proof.Machine.execXorH f s
  | .shlH f => Sys2Proof.Machine.execShlH f s
  | .shrH f => Sys2Proof.Machine.execShrH f s
  | .sarH f => Sys2Proof.Machine.execSarH f s
  | .addF32H f => Sys2Proof.Machine.execAddF32H f s
  | .subF32H f => Sys2Proof.Machine.execSubF32H f s
  | .mulF32H f => Sys2Proof.Machine.execMulF32H f s
  | .minF32H f => Sys2Proof.Machine.execMinF32H f s
  | .maxF32H f => Sys2Proof.Machine.execMaxF32H f s
  | .negF32H f => Sys2Proof.Machine.execNegF32H f s
  | .movW f => Sys2Proof.Machine.execMovW f s
  | .movL f => Sys2Proof.Machine.execMovL f s
  | .li f => Sys2Proof.Machine.execLi f s
  | .addW f => Sys2Proof.Machine.execAddW f s
  | .addWi f => Sys2Proof.Machine.execAddWi f s
  | .addL f => Sys2Proof.Machine.execAddL f s
  | .subW f => Sys2Proof.Machine.execSubW f s
  | .subL f => Sys2Proof.Machine.execSubL f s
  | .addSatW f => Sys2Proof.Machine.execAddSatW f s
  | .addSatL f => Sys2Proof.Machine.execAddSatL f s
  | .subSatW f => Sys2Proof.Machine.execSubSatW f s
  | .subSatL f => Sys2Proof.Machine.execSubSatL f s
  | .mulW f => Sys2Proof.Machine.execMulW f s
  | .mulWi f => Sys2Proof.Machine.execMulWi f s
  | .mulL f => Sys2Proof.Machine.execMulL f s
  | .mulhiW f => Sys2Proof.Machine.execMulhiW f s
  | .mulhiL f => Sys2Proof.Machine.execMulhiL f s
  | .mulwW f => Sys2Proof.Machine.execMulwW f s
  | .mulwL f => Sys2Proof.Machine.execMulwL f s
  | .mad f => Sys2Proof.Machine.execMad f s
  | .madw f => Sys2Proof.Machine.execMadw f s
  | .minW f => Sys2Proof.Machine.execMinW f s
  | .minWi f => Sys2Proof.Machine.execMinWi f s
  | .minL f => Sys2Proof.Machine.execMinL f s
  | .maxW f => Sys2Proof.Machine.execMaxW f s
  | .maxWi f => Sys2Proof.Machine.execMaxWi f s
  | .maxL f => Sys2Proof.Machine.execMaxL f s
  | .absW f => Sys2Proof.Machine.execAbsW f s
  | .absL f => Sys2Proof.Machine.execAbsL f s
  | .negW f => Sys2Proof.Machine.execNegW f s
  | .negL f => Sys2Proof.Machine.execNegL f s
  | .andW f => Sys2Proof.Machine.execAndW f s
  | .andWi f => Sys2Proof.Machine.execAndWi f s
  | .andL f => Sys2Proof.Machine.execAndL f s
  | .orW f => Sys2Proof.Machine.execOrW f s
  | .orWi f => Sys2Proof.Machine.execOrWi f s
  | .orL f => Sys2Proof.Machine.execOrL f s
  | .xorW f => Sys2Proof.Machine.execXorW f s
  | .xorWi f => Sys2Proof.Machine.execXorWi f s
  | .xorL f => Sys2Proof.Machine.execXorL f s
  | .andnW f => Sys2Proof.Machine.execAndnW f s
  | .andnL f => Sys2Proof.Machine.execAndnL f s
  | .notW f => Sys2Proof.Machine.execNotW f s
  | .notL f => Sys2Proof.Machine.execNotL f s
  | .shlW f => Sys2Proof.Machine.execShlW f s
  | .shlWi f => Sys2Proof.Machine.execShlWi f s
  | .shlL f => Sys2Proof.Machine.execShlL f s
  | .shrW f => Sys2Proof.Machine.execShrW f s
  | .shrWi f => Sys2Proof.Machine.execShrWi f s
  | .shrL f => Sys2Proof.Machine.execShrL f s
  | .sarW f => Sys2Proof.Machine.execSarW f s
  | .sarWi f => Sys2Proof.Machine.execSarWi f s
  | .sarL f => Sys2Proof.Machine.execSarL f s
  | .rotW f => Sys2Proof.Machine.execRotW f s
  | .rotWi f => Sys2Proof.Machine.execRotWi f s
  | .rotL f => Sys2Proof.Machine.execRotL f s
  | .bfx f => Sys2Proof.Machine.execBfx f s
  | .bfi f => Sys2Proof.Machine.execBfi f s
  | .popcW f => Sys2Proof.Machine.execPopcW f s
  | .popcL f => Sys2Proof.Machine.execPopcL f s
  | .clzW f => Sys2Proof.Machine.execClzW f s
  | .clzL f => Sys2Proof.Machine.execClzL f s
  | .ctzW f => Sys2Proof.Machine.execCtzW f s
  | .ctzL f => Sys2Proof.Machine.execCtzL f s
  | .brevW f => Sys2Proof.Machine.execBrevW f s
  | .brevL f => Sys2Proof.Machine.execBrevL f s
  | .bsel f => Sys2Proof.Machine.execBsel f s
  | .cmpEqW f => Sys2Proof.Machine.execCmpEqW f s
  | .cmpNeW f => Sys2Proof.Machine.execCmpNeW f s
  | .cmpLtW f => Sys2Proof.Machine.execCmpLtW f s
  | .cmpLeW f => Sys2Proof.Machine.execCmpLeW f s
  | .cmpGtW f => Sys2Proof.Machine.execCmpGtW f s
  | .cmpGeW f => Sys2Proof.Machine.execCmpGeW f s
  | .cmpEqWi f => Sys2Proof.Machine.execCmpEqWi f s
  | .cmpNeWi f => Sys2Proof.Machine.execCmpNeWi f s
  | .cmpLtWi f => Sys2Proof.Machine.execCmpLtWi f s
  | .cmpLeWi f => Sys2Proof.Machine.execCmpLeWi f s
  | .cmpGtWi f => Sys2Proof.Machine.execCmpGtWi f s
  | .cmpGeWi f => Sys2Proof.Machine.execCmpGeWi f s
  | .cmpEqL f => Sys2Proof.Machine.execCmpEqL f s
  | .cmpNeL f => Sys2Proof.Machine.execCmpNeL f s
  | .cmpLtL f => Sys2Proof.Machine.execCmpLtL f s
  | .cmpLeL f => Sys2Proof.Machine.execCmpLeL f s
  | .cmpGtL f => Sys2Proof.Machine.execCmpGtL f s
  | .cmpGeL f => Sys2Proof.Machine.execCmpGeL f s
  | .sel f => Sys2Proof.Machine.execSel f s
  | .add64 f => Sys2Proof.Machine.execAdd64 f s
  | .lea64 f => Sys2Proof.Machine.execLea64 f s
  | .addF32W f => Sys2Proof.Machine.execAddF32W f s
  | .addFloatL f => Sys2Proof.Machine.execAddFloatL f s
  | .subF32W f => Sys2Proof.Machine.execSubF32W f s
  | .subFloatL f => Sys2Proof.Machine.execSubFloatL f s
  | .mulF32W f => Sys2Proof.Machine.execMulF32W f s
  | .mulFloatL f => Sys2Proof.Machine.execMulFloatL f s
  | .fma f => Sys2Proof.Machine.execFma f s
  | .minF32W f => Sys2Proof.Machine.execMinF32W f s
  | .minFloatL f => Sys2Proof.Machine.execMinFloatL f s
  | .maxF32W f => Sys2Proof.Machine.execMaxF32W f s
  | .maxFloatL f => Sys2Proof.Machine.execMaxFloatL f s
  | .minpW f => Sys2Proof.Machine.execMinpW f s
  | .minpL f => Sys2Proof.Machine.execMinpL f s
  | .maxpW f => Sys2Proof.Machine.execMaxpW f s
  | .maxpL f => Sys2Proof.Machine.execMaxpL f s
  | .absF32W f => Sys2Proof.Machine.execAbsF32W f s
  | .absFloatL f => Sys2Proof.Machine.execAbsFloatL f s
  | .negF32W f => Sys2Proof.Machine.execNegF32W f s
  | .negFloatL f => Sys2Proof.Machine.execNegFloatL f s
  | .clsW f => Sys2Proof.Machine.execClsW f s
  | .clsL f => Sys2Proof.Machine.execClsL f s
  | .cmpEqF32W f => Sys2Proof.Machine.execCmpEqF32W f s
  | .cmpNeF32W f => Sys2Proof.Machine.execCmpNeF32W f s
  | .cmpLtF32W f => Sys2Proof.Machine.execCmpLtF32W f s
  | .cmpLeF32W f => Sys2Proof.Machine.execCmpLeF32W f s
  | .cmpGtF32W f => Sys2Proof.Machine.execCmpGtF32W f s
  | .cmpGeF32W f => Sys2Proof.Machine.execCmpGeF32W f s
  | .cmpEqFloatL f => Sys2Proof.Machine.execCmpEqFloatL f s
  | .cmpNeFloatL f => Sys2Proof.Machine.execCmpNeFloatL f s
  | .cmpLtFloatL f => Sys2Proof.Machine.execCmpLtFloatL f s
  | .cmpLeFloatL f => Sys2Proof.Machine.execCmpLeFloatL f s
  | .cmpGtFloatL f => Sys2Proof.Machine.execCmpGtFloatL f s
  | .cmpGeFloatL f => Sys2Proof.Machine.execCmpGeFloatL f s
  | .rcpW f => Sys2Proof.Machine.execRcpW f s
  | .rcpL f => Sys2Proof.Machine.execRcpL f s
  | .rsqW f => Sys2Proof.Machine.execRsqW f s
  | .rsqL f => Sys2Proof.Machine.execRsqL f s
  | .sqrtW f => Sys2Proof.Machine.execSqrtW f s
  | .sqrtL f => Sys2Proof.Machine.execSqrtL f s
  | .divW f => Sys2Proof.Machine.execDivW f s
  | .divL f => Sys2Proof.Machine.execDivL f s
  | .exp2W f => Sys2Proof.Machine.execExp2W f s
  | .exp2L f => Sys2Proof.Machine.execExp2L f s
  | .log2W f => Sys2Proof.Machine.execLog2W f s
  | .log2L f => Sys2Proof.Machine.execLog2L f s
  | .sinpW f => Sys2Proof.Machine.execSinpW f s
  | .sinpL f => Sys2Proof.Machine.execSinpL f s
  | .cospW f => Sys2Proof.Machine.execCospW f s
  | .cospL f => Sys2Proof.Machine.execCospL f s
  | .frcW f => Sys2Proof.Machine.execFrcW f s
  | .frcL f => Sys2Proof.Machine.execFrcL f s
  | .rintW f => Sys2Proof.Machine.execRintW f s
  | .rintL f => Sys2Proof.Machine.execRintL f s
  | .ldexpW f => Sys2Proof.Machine.execLdexpW f s
  | .ldexpL f => Sys2Proof.Machine.execLdexpL f s
  | .dot2 f => Sys2Proof.Machine.execDot2 f s
  | .cmul f => Sys2Proof.Machine.execCmul f s
  | .bfly f => Sys2Proof.Machine.execBfly f s
  | .twid f => Sys2Proof.Machine.execTwid f s
  | .cvt f => Sys2Proof.Machine.execCvt f s
  | .pkW f => Sys2Proof.Machine.execPkW f s
  | .pkL f => Sys2Proof.Machine.execPkL f s
  | .upkW f => Sys2Proof.Machine.execUpkW f s
  | .upkL f => Sys2Proof.Machine.execUpkL f s
  | .qblk f => Sys2Proof.Machine.execQblk f s
  | .dqblk f => Sys2Proof.Machine.execDqblk f s
  | .shufIdxW f => Sys2Proof.Machine.execShufIdxW f s
  | .shufIdxL f => Sys2Proof.Machine.execShufIdxL f s
  | .shufUpW f => Sys2Proof.Machine.execShufUpW f s
  | .shufUpL f => Sys2Proof.Machine.execShufUpL f s
  | .shufDnW f => Sys2Proof.Machine.execShufDnW f s
  | .shufDnL f => Sys2Proof.Machine.execShufDnL f s
  | .shufXorW f => Sys2Proof.Machine.execShufXorW f s
  | .shufXorL f => Sys2Proof.Machine.execShufXorL f s
  | .voteAnyW f => Sys2Proof.Machine.execVoteAnyW f s
  | .voteAnyL f => Sys2Proof.Machine.execVoteAnyL f s
  | .voteAllW f => Sys2Proof.Machine.execVoteAllW f s
  | .voteAllL f => Sys2Proof.Machine.execVoteAllL f s
  | .voteBalW f => Sys2Proof.Machine.execVoteBalW f s
  | .voteBalL f => Sys2Proof.Machine.execVoteBalL f s
  | .redcAddW f => Sys2Proof.Machine.execRedcAddW f s
  | .redcAddL f => Sys2Proof.Machine.execRedcAddL f s
  | .redcMinW f => Sys2Proof.Machine.execRedcMinW f s
  | .redcMinL f => Sys2Proof.Machine.execRedcMinL f s
  | .redcMaxW f => Sys2Proof.Machine.execRedcMaxW f s
  | .redcMaxL f => Sys2Proof.Machine.execRedcMaxL f s
  | .ld z f => Sys2Proof.Machine.execLd z f s
  | .st z f => Sys2Proof.Machine.execSt z f s
  | .lds z f => Sys2Proof.Machine.execLds z f s
  | .sts z f => Sys2Proof.Machine.execSts z f s
  | .sldt f => Sys2Proof.Machine.execSldt f s
  | .atom z f => Sys2Proof.Machine.execAtom z f s
  | .atoms z f => Sys2Proof.Machine.execAtoms z f s
  | .pf f => Sys2Proof.Machine.execPf f s
  | .cpa f => Sys2Proof.Machine.execCpa f s
  | .cpw f => Sys2Proof.Machine.execCpw f s
  | .cpq f => Sys2Proof.Machine.execCpq f s
  | .bcopy f => Sys2Proof.Machine.execBcopy f s
  | .lease f => Sys2Proof.Machine.execLease f s
  | .unlease f => Sys2Proof.Machine.execUnlease f s
  | .mtask f => Sys2Proof.Machine.execMtask f s
  | .accz f => Sys2Proof.Machine.execAccz f s
  | .accld f => Sys2Proof.Machine.execAccld f s
  | .accst f => Sys2Proof.Machine.execAccst f s
  | .accdrain f => Sys2Proof.Machine.execAccdrain f s
  | .br f => Sys2Proof.Machine.execBr f s
  | .bcT f => Sys2Proof.Machine.execBcT f s
  | .bcF f => Sys2Proof.Machine.execBcF f s
  | .brx f => Sys2Proof.Machine.execBrx f s
  | .call f => Sys2Proof.Machine.execCall f s
  | .ret f => Sys2Proof.Machine.execRet f s
  | .fork f => Sys2Proof.Machine.execFork f s
  | .halt f => Sys2Proof.Machine.execHalt f s
  | .yield f => Sys2Proof.Machine.execYield f s
  | .trap f => Sys2Proof.Machine.execTrap f s
  | .brk f => Sys2Proof.Machine.execBrk f s
  | .bar f => Sys2Proof.Machine.execBar f s
  | .barArv f => Sys2Proof.Machine.execBarArv f s
  | .barWt f => Sys2Proof.Machine.execBarWt f s
  | .gbar f => Sys2Proof.Machine.execGbar f s
  | .fence f => Sys2Proof.Machine.execFence f s
  | .vfence f => Sys2Proof.Machine.execVfence f s
  | .sigAdd f => Sys2Proof.Machine.execSigAdd f s
  | .sigSet f => Sys2Proof.Machine.execSigSet f s
  | .sigRead f => Sys2Proof.Machine.execSigRead f s
  | .sigw f => Sys2Proof.Machine.execSigw f s
  | .enq f => Sys2Proof.Machine.execEnq f s
  | .wwait f => Sys2Proof.Machine.execWwait f s
  | .ctrAdd f => Sys2Proof.Machine.execCtrAdd f s
  | .ctrRead f => Sys2Proof.Machine.execCtrRead f s
  | .ctrSet f => Sys2Proof.Machine.execCtrSet f s
  | .tsend f => Sys2Proof.Machine.execTsend f s
  | .invoke f => Sys2Proof.Machine.execInvoke f s
  | .hwait f => Sys2Proof.Machine.execHwait f s
  | .hstat f => Sys2Proof.Machine.execHstat f s
  | .timeI f => Sys2Proof.Machine.execTimeI f s
  | .evt f => Sys2Proof.Machine.execEvt f s
  | .perf f => Sys2Proof.Machine.execPerf f s
  | .sysr f => Sys2Proof.Machine.execSysr f s
  | .resreq f => Sys2Proof.Machine.execResreq f s
  | .join => Sys2Proof.Machine.execJoin s
  | .nop => Sys2Proof.Machine.execNop s
  | .nopG => Sys2Proof.Machine.execNopG s
  | .doorbell vf value => Sys2Proof.Machine.execDoorbell vf value s
  | .packetFetch q => Sys2Proof.Machine.execPacketFetch q s
  | .kernelPacket p => Sys2Proof.Machine.execKernelPacket p s
  | .graphPacket p => Sys2Proof.Machine.execGraphPacket p s
  | .copyPacket p => Sys2Proof.Machine.execCopyPacket p s
  | .tilePacket p => Sys2Proof.Machine.execTilePacket p s
  | .collectivePacket p => Sys2Proof.Machine.execCollectivePacket p s
  | .invokePacket p => Sys2Proof.Machine.execInvokePacket p s
  | .barrierAll p => Sys2Proof.Machine.execBarrierAll p s
  | .barrierAny p => Sys2Proof.Machine.execBarrierAny p s
  | .barrierEvaluate p => Sys2Proof.Machine.execBarrierEvaluate p s
  | .barrierPacketTimeout p => Sys2Proof.Machine.execBarrierPacketTimeout p s
  | .signalSet p => Sys2Proof.Machine.execSignalSet p s
  | .signalDec p => Sys2Proof.Machine.execSignalDec p s
  | .queueDrain q => Sys2Proof.Machine.execQueueDrain q s
  | .queueMap slot => Sys2Proof.Machine.execQueueMap slot s
  | .quantumEnd slot => Sys2Proof.Machine.execQuantumEnd slot s
  | .priorityAging q => Sys2Proof.Machine.execPriorityAging q s
  | .queueCreate vf => Sys2Proof.Machine.execQueueCreate vf s
  | .queueReset vf => Sys2Proof.Machine.execQueueReset vf s
  | .queueSet vf => Sys2Proof.Machine.execQueueSet vf s
  | .queueDestroy vf => Sys2Proof.Machine.execQueueDestroy vf s
  | .decodeLoad vf => Sys2Proof.Machine.execDecodeLoad vf s
  | .regionSet vf => Sys2Proof.Machine.execRegionSet vf s
  | .regionClear vf => Sys2Proof.Machine.execRegionClear vf s
  | .templateSet vf => Sys2Proof.Machine.execTemplateSet vf s
  | .templateClear vf => Sys2Proof.Machine.execTemplateClear vf s
  | .genBump vf => Sys2Proof.Machine.execGenBump vf s
  | .resDone vf => Sys2Proof.Machine.execResDone vf s
  | .resringSet vf => Sys2Proof.Machine.execResringSet vf s
  | .kill vf => Sys2Proof.Machine.execKill vf s
  | .traceLevel vf => Sys2Proof.Machine.execTraceLevel vf s
  | .ringSize vf => Sys2Proof.Machine.execRingSize vf s
  | .saggarRead vf => Sys2Proof.Machine.execSaggarRead vf s
  | .saggarClear vf => Sys2Proof.Machine.execSaggarClear vf s
  | .waitRead vf => Sys2Proof.Machine.execWaitRead vf s
  | .sampleSet vf => Sys2Proof.Machine.execSampleSet vf s
  | .perfSelect vf => Sys2Proof.Machine.execPerfSelect vf s
  | .perfRead vf => Sys2Proof.Machine.execPerfRead vf s
  | .healthRead vf => Sys2Proof.Machine.execHealthRead vf s
  | .checkRead vf => Sys2Proof.Machine.execCheckRead vf s
  | .dbgAttach vf => Sys2Proof.Machine.execDbgAttach vf s
  | .greenRead vf => Sys2Proof.Machine.execGreenRead vf s
  | .greenQuota vf => Sys2Proof.Machine.execGreenQuota vf s
  | .commCreate vf => Sys2Proof.Machine.execCommCreate vf s
  | .commAdmit vf => Sys2Proof.Machine.execCommAdmit vf s
  | .ckptSet vf => Sys2Proof.Machine.execCkptSet vf s
  | .ckptTake vf => Sys2Proof.Machine.execCkptTake vf s
  | .ckptTakeDone vf => Sys2Proof.Machine.execCkptTakeDone vf s
  | .ckptRead vf => Sys2Proof.Machine.execCkptRead vf s
  | .spareFill vf => Sys2Proof.Machine.execSpareFill vf s
  | .spareFillDone vf sourceOk => Sys2Proof.Machine.execSpareFillDone vf sourceOk s
  | .exportMem vf => Sys2Proof.Machine.execExportMem vf s
  | .unexportMem vf => Sys2Proof.Machine.execUnexportMem vf s
  | .unexportTimeout vf => Sys2Proof.Machine.execUnexportTimeout vf s
  | .partSet vf => Sys2Proof.Machine.execPartSet vf s
  | .vfSlice vf => Sys2Proof.Machine.execVfSlice vf s
  | .vfQuota vf => Sys2Proof.Machine.execVfQuota vf s
  | .vfReset vf => Sys2Proof.Machine.execVfReset vf s
  | .profileSet vf => Sys2Proof.Machine.execProfileSet vf s
  | .profilePauseEnd => Sys2Proof.Machine.execProfilePauseEnd s
  | .imageStage vf => Sys2Proof.Machine.execImageStage vf s
  | .imageActivate vf => Sys2Proof.Machine.execImageActivate vf s
  | .schedPin vf => Sys2Proof.Machine.execSchedPin vf s
  | .flushInbound vf value => Sys2Proof.Machine.execFlushInbound vf value s
  | .flushOutbound vf value => Sys2Proof.Machine.execFlushOutbound vf value s
  | .flushBoth vf value => Sys2Proof.Machine.execFlushBoth vf value s
  | .flushDone vf => Sys2Proof.Machine.execFlushDone vf s
  | .featureCommit vf => Sys2Proof.Machine.execFeatureCommit vf s
  | .registerWrite vf offset value => Sys2Proof.Machine.execRegisterWrite vf offset value s
  | .barWrite vf gpa data => Sys2Proof.Machine.execBarWrite vf gpa data s
  | .barRead vf what n => Sys2Proof.Machine.execBarRead vf what n s
  | .hostWindowAccess offset n write => Sys2Proof.Machine.execHostWindowAccess offset n write s
  | .accessPerformed ref => Sys2Proof.Machine.execAccessPerformed ref s
  | .responseArrival ref => Sys2Proof.Machine.execResponseArrival ref s
  | .errorResponse ref => Sys2Proof.Machine.execErrorResponse ref s
  | .cpaLand ref => Sys2Proof.Machine.execCpaLand ref s
  | .wakeDelivery ref => Sys2Proof.Machine.execWakeDelivery ref s
  | .sigwEvaluate fibre => Sys2Proof.Machine.execSigwEvaluate fibre s
  | .sigwTimeout fibre => Sys2Proof.Machine.execSigwTimeout fibre s
  | .hwaitTimeout fibre => Sys2Proof.Machine.execHwaitTimeout fibre s
  | .joinRelease crew part jgrp => Sys2Proof.Machine.execJoinRelease crew part jgrp s
  | .cohortMerge a b => Sys2Proof.Machine.execCohortMerge a b s
  | .lateWriteSplit cohort => Sys2Proof.Machine.execLateWriteSplit cohort s
  | .bankDrowsy core part bank => Sys2Proof.Machine.execBankDrowsy core part bank s
  | .crewStart grid core part => Sys2Proof.Machine.execCrewStart grid core part s
  | .crewRetire crew => Sys2Proof.Machine.execCrewRetire crew s
  | .gridKill grid => Sys2Proof.Machine.execGridKill grid s
  | .handlerFibreStart fibre => Sys2Proof.Machine.execHandlerFibreStart fibre s
  | .handlerWindowTimeout fibre => Sys2Proof.Machine.execHandlerWindowTimeout fibre s
  | .copyStart chan => Sys2Proof.Machine.execCopyStart chan s
  | .copyDone chan => Sys2Proof.Machine.execCopyDone chan s
  | .channelAccept chan => Sys2Proof.Machine.execChannelAccept chan s
  | .apertureStart ref => Sys2Proof.Machine.execApertureStart ref s
  | .apertureJoin ref => Sys2Proof.Machine.execApertureJoin ref s
  | .tileIssue core => Sys2Proof.Machine.execTileIssue core s
  | .tileDone core => Sys2Proof.Machine.execTileDone core s
  | .accOpDone core => Sys2Proof.Machine.execAccOpDone core s
  | .nodeDispatch graph node => Sys2Proof.Machine.execNodeDispatch graph node s
  | .nodeDone graph node => Sys2Proof.Machine.execNodeDone graph node s
  | .nodeScratchpadReserve graph => Sys2Proof.Machine.execNodeScratchpadReserve graph s
  | .dieIsolation die => Sys2Proof.Machine.execDieIsolation die s
  | .dieBoundaryFailure boundary => Sys2Proof.Machine.execDieBoundaryFailure boundary s
  | .boundaryMove core boundary => Sys2Proof.Machine.execBoundaryMove core boundary s
  | .patrolScrub stack granule => Sys2Proof.Machine.execPatrolScrub stack granule s
  | .scrubPendingZero granule => Sys2Proof.Machine.execScrubPendingZero granule s
  | .channelFailure stack ch => Sys2Proof.Machine.execChannelFailure stack ch s
  | .granuleMove stack => Sys2Proof.Machine.execGranuleMove stack s
  | .refreshManagement stack ch row => Sys2Proof.Machine.execRefreshManagement stack ch row s
  | .throttleRetry ref => Sys2Proof.Machine.execThrottleRetry ref s
  | .generationBump asid => Sys2Proof.Machine.execGenerationBump asid s
  | .pageMigration vf gpa frame => Sys2Proof.Machine.execPageMigration vf gpa frame s
  | .frameReassign frame bytes fromVf toVf toGpa => Sys2Proof.Machine.execFrameReassign frame bytes fromVf toVf toGpa s
  | .residencyRequest ref => Sys2Proof.Machine.execResidencyRequest ref s
  | .residencyWaitTimeout ref => Sys2Proof.Machine.execResidencyWaitTimeout ref s
  | .stage2Repair fibre => Sys2Proof.Machine.execStage2Repair fibre s
  | .leaseExpire lease => Sys2Proof.Machine.execLeaseExpire lease s
  | .preemptHalt ctx reason => Sys2Proof.Machine.execPreemptHalt ctx reason s
  | .ctxSaved ctx => Sys2Proof.Machine.execCtxSaved ctx s
  | .ctxRestored ctx cores => Sys2Proof.Machine.execCtxRestored ctx cores s
  | .migrateFwd core => Sys2Proof.Machine.execMigrateFwd core s
  | .forwardEntryRemoval core crew => Sys2Proof.Machine.execForwardEntryRemoval core crew s
  | .moveReg line fromCore toCore => Sys2Proof.Machine.execMoveReg line fromCore toCore s
  | .sliceEnd vf => Sys2Proof.Machine.execSliceEnd vf s
  | .fabRead p => Sys2Proof.Machine.execFabRead p s
  | .fabWrite p => Sys2Proof.Machine.execFabWrite p s
  | .fabWriteWake p => Sys2Proof.Machine.execFabWriteWake p s
  | .fabAtomic p => Sys2Proof.Machine.execFabAtomic p s
  | .respData p => Sys2Proof.Machine.execRespData p s
  | .respAck p => Sys2Proof.Machine.execRespAck p s
  | .respErr p => Sys2Proof.Machine.execRespErr p s
  | .ctrInc p => Sys2Proof.Machine.execCtrInc p s
  | .collData p => Sys2Proof.Machine.execCollData p s
  | .collRed p => Sys2Proof.Machine.execCollRed p s
  | .collMcast p => Sys2Proof.Machine.execCollMcast p s
  | .collDone coll rank => Sys2Proof.Machine.execCollDone coll rank s
  | .witnessExpire coll rank => Sys2Proof.Machine.execWitnessExpire coll rank s
  | .gwMsg die m => Sys2Proof.Machine.execGwMsg die m s
  | .handleFire die index dev ldie op => Sys2Proof.Machine.execHandleFire die index dev ldie op s
  | .handleCrack die index code op => Sys2Proof.Machine.execHandleCrack die index code op s
  | .greenRetry die handle => Sys2Proof.Machine.execGreenRetry die handle s
  | .retentionEnd die index => Sys2Proof.Machine.execRetentionEnd die index s
  | .greenOriginTimeout ref => Sys2Proof.Machine.execGreenOriginTimeout ref s
  | .mgmt p m => Sys2Proof.Machine.execMgmt p m s
  | .dtcSample port offset locked => Sys2Proof.Machine.execDtcSample port offset locked s
  | .dtcSampleSend port => Sys2Proof.Machine.execDtcSampleSend port s
  | .lost dev die => Sys2Proof.Machine.execLost dev die s
  | .fabTimeout tag => Sys2Proof.Machine.execFabTimeout tag s
  | .seqGapTimeout src plane => Sys2Proof.Machine.execSeqGapTimeout src plane s
  | .linkRetryTimeout port => Sys2Proof.Machine.execLinkRetryTimeout port s
  | .linkWidth port lanes => Sys2Proof.Machine.execLinkWidth port lanes s
  | .linkStepUp port passed => Sys2Proof.Machine.execLinkStepUp port passed s
  | .remoteSignalPoll fibre => Sys2Proof.Machine.execRemoteSignalPoll fibre s
  | .ptpMessage offset => Sys2Proof.Machine.execPtpMessage offset s
  | .timeStepDeferred => Sys2Proof.Machine.execTimeStepDeferred s
  | .holdover => Sys2Proof.Machine.execHoldover s
  | .tepochWrite seconds => Sys2Proof.Machine.execTepochWrite seconds s
  | .flueWrite what => Sys2Proof.Machine.execFlueWrite what s
  | .powerSample watts => Sys2Proof.Machine.execPowerSample watts s
  | .powerGood badStacks monitorOk => Sys2Proof.Machine.execPowerGood badStacks monitorOk s
  | .warmReset requester badStacks monitorOk => Sys2Proof.Machine.execWarmReset requester badStacks monitorOk s
  | .pcieFlr vf => Sys2Proof.Machine.execPcieFlr vf s
  | .modulePowerLoss => Sys2Proof.Machine.execModulePowerLoss s
  | .monitorReadyTimeout => Sys2Proof.Machine.execMonitorReadyTimeout s
  | .debugRead asid fibre what => Sys2Proof.Machine.execDebugRead asid fibre what s
  | .debugWrite asid fibre what value => Sys2Proof.Machine.execDebugWrite asid fibre what value s
  | .debugStep asid cohort => Sys2Proof.Machine.execDebugStep asid cohort s
  | .debugRelease asid cohort => Sys2Proof.Machine.execDebugRelease asid cohort s
  | .getVersion req => Sys2Proof.Machine.execGetVersion req s
  | .getCapabilities req => Sys2Proof.Machine.execGetCapabilities req s
  | .negotiateAlgorithms req => Sys2Proof.Machine.execNegotiateAlgorithms req s
  | .getDigests req => Sys2Proof.Machine.execGetDigests req s
  | .getCertificate req => Sys2Proof.Machine.execGetCertificate req s
  | .challenge req => Sys2Proof.Machine.execChallenge req s
  | .getMeasurements req => Sys2Proof.Machine.execGetMeasurements req s
  | .undefinedOpcode code => Sys2Proof.Machine.execUndefinedOpcode code s
  | .flit port f intact => Sys2Proof.Machine.execFlit port f intact s
  | .pageEviction vf gpa => Sys2Proof.Machine.execPageEviction vf gpa s
  | .slotDrainDone dev slot => Sys2Proof.Machine.execSlotDrainDone dev slot s
  | .pkeyInstall vf what => Sys2Proof.Machine.execPkeyInstall vf what s
  | .ptpDomainSet domain => Sys2Proof.Machine.execPtpDomainSet domain s
  | .pluginCallTimeout vf => Sys2Proof.Machine.execPluginCallTimeout vf s

end Sys2Proof.Machine
end

