-- ==== Sys2Proof/Machine/Sched.lean ====
section
/-! DEFINITION. What a step does around an instruction: the issue of a cohort's next instruction, what stands behind every step, the order in which
the agents move where the agenda names none (spec/11 R214; spec/24 R365; spec/18 R325; spec/04 R81, R85), and the small machine that runs
one given instruction. -/

namespace Sys2Proof.Machine

/-! ### Behind every step -/

/-- Hold what the debugger's step lets issue once (R325). -/
def holdStepped (s : State) : State :=
  let ids := s.ctxs.flatMap fun c => (c.stepping.filter (·.2 == 2)).map (·.1)
  if ids.isEmpty then s
  else
    let hold (f : Fibre) : Fibre := if f.status.isReady then { f with status := .debugHeld } else f
    let cut (c : Ctx) : Ctx := { c with stepping := c.stepping.filter (·.2 != 2) }
    { s with fibres := mapIf (fun f => ids.contains f.id) hold s.fibres, ctxs := s.ctxs.map cut }

/-- Messages of collectives that could not go are tried again. -/
def collRetry (s : State) : State := if s.collNet.isEmpty then s else collGo s

/-- What follows from a step at once: held joins (R81), held steps, fibres that owe nothing any more (R83), sends whose bytes are all applied
(R192), sampled issues that are complete (R320). -/
def settle (s : State) : State := { endSamples (collRetry (sendsEval (reapAll (holdStepped (joinEval s))))) with cur := none }

/-- The same behind an outcome. -/
def settleOutcome : Host.Outcome State Fault Refusal → Host.Outcome State Fault Refusal
  | .next s => .next (settle s)
  | o => o

/-- Device time goes on at each step by a free amount (R304, log 6, DESIGN CHOICE). -/
def tick (s : State) : State :=
  { s with time := { s.time with dtc := s.time.dtc + Config.tickAdvance s.free }, free := s.free + 1 }

/-! ### The issue of a cohort -/

/-- Whether a breakpoint holds a cohort at its program counter (R325); lanes the debugger has released pass it once. -/
def atBreakpoint (s : State) (ls : List Fibre) : Bool :=
  match ls with
  | [] => false
  | f :: _ =>
    match s.ctx? (s.fibreAsid f) with
    | none => false
    | some c => c.attached && (c.breakpoints.any (·.2 == f.pc)) && !(ls.all fun g => c.stepping.any (·.1 == g.id))

/-- Decode what has been fetched through the fibre's map and run it (R51, R54). -/
def runBytes (s : State) (f : Fibre) (bs : List Byte) : Host.Outcome State Fault Refusal :=
  match parseBytes (mapOf s f) bs with
  | .ok i _ => exec i s
  | .ill c => execUndefinedOpcode c s
  | .short => execUndefinedOpcode .marker s

/-- The issue of the cohort in `s.cur`, whose deferred errors have been taken: a breakpoint holds it, else it fetches, decodes and runs. -/
def issueCohort (s : State) : Host.Outcome State Fault Refusal :=
  match s.lanes with
  | [] => .next s
  | f :: fs =>
    if atBreakpoint s (f :: fs) then
      .next (s.setFibres ((f :: fs).map (·.id)) fun g => { g with status := .debugHeld })
    else
      let r := fetch s f
      match r.1 with
      | .fail va c s2 => .next (parkAll r.2 ((f :: fs).map (·.id)) fun g => fetchTrap g va c s2)
      | .bytes bs => runBytes r.2 f bs

/-- A cohort issues one instruction (R214): its deferred errors first (R398). A cohort whose context does not run, that has no ready lane, or whose turn it
may not be (R84, R85), does nothing. -/
def issueTurn (s : State) (core part num : Nat) : Host.Outcome State Fault Refusal :=
  match s.cohortLanes num with
  | [] => .next s
  | f :: _ =>
    if !ctxRuns s f || !mayIssue s core part num then .next s
    else issueCohort (boundary { dupTurn (noteTurn s core part num) core num with cur := some ⟨core, part, num⟩ })

/-! ### Where the agenda names nothing -/

/-- Fibres of a cohort go behind every other (R85). -/
def rotate (s : State) (num : Nat) : State :=
  { s with fibres := s.fibres.filter (·.cohort != num) ++ s.fibres.filter (·.cohort == num) }

/-- An access of this package that can be performed now. -/
def nextAccess (s : State) : Option Access := s.accesses.find? fun a => a.dev.isNone && canPerform s a && (apertureStore s a).isNone

/-- Whether the page of a held access has moved (R274). -/
def heldOver (s : State) (a : Access) : Bool :=
  let x := match a.agent with
    | .host vf => hostPlace s vf a.va.toNat
    | _ => translateWalk s a.vf a.asid a.va.toNat .write
  decide (x ≠ .held)

/-- Whether the answer of an access may arrive now. -/
def canAnswer (s : State) (a : Access) : Bool :=
  match a.resp with
  | .none => false
  | .failed => false
  | .retry => true
  | .held => heldOver s a
  | .ok _ _ _ => if a.cpa then a.scrOnly || copyTurn s a else landTurn s a
  | _ => answerTurn s a

/-- An access whose answer waits to arrive. -/
def nextAnswer (s : State) : Option Access := s.accesses.find? (canAnswer s)

/-- A result that waits to land. -/
def nextOwed (s : State) : Option Owed := s.owed.find? fun o => match o.val with
  | some v => owedReady s o v
  | none => false

/-- The step of an answer, by its kind. -/
def answerStep (s : State) (a : Access) : Host.Outcome State Fault Refusal :=
  match a.resp, a.cpa with
  | .err _, _ => execErrorResponse a.ref s
  | .retry, _ => execThrottleRetry a.ref s
  | .ok _ _ _, true => execCpaLand a.ref s
  | _, _ => execResponseArrival a.ref s

/-- The default order (R85, log 4, DESIGN CHOICE): what can be performed, what can land, then the ready cohort that issued longest ago, then the end
of a pause. -/
def autoStep (s : State) : Host.Outcome State Fault Refusal :=
  match nextAccess s with
  | some a => execAccessPerformed a.ref s
  | none =>
    match nextAnswer s with
    | some a => answerStep s a
    | none =>
      match nextOwed s with
      | some o => execResponseArrival o.ref s
      | none =>
        match s.fibres.find? fun f => f.status.isReady && ctxRuns s f && mayIssue s (s.fibreCore f) f.part f.cohort with
        | some f => (match issueTurn s (s.fibreCore f) f.part f.cohort with
          | .next t => .next (rotate t f.cohort)
          | o => o)
        | none => if s.dev.changing.isSome then execProfilePauseEnd s else .next s

/-- Whether an instruction is the return of power (R389). -/
def isPowerGood : Instr → Bool
  | .powerGood _ _ => true
  | _ => false

/-- One turn: the agenda's next, or the default. -/
def turn (s : State) : Host.Outcome State Fault Refusal :=
  match s.agenda with
  | .event i :: rest => settleOutcome (exec i { s with agenda := rest, cur := none })
  | .issue core part num :: rest => settleOutcome (issueTurn { s with agenda := rest } core part num)
  | [] => settleOutcome (autoStep s)

/-- Whether the module's power returns next. -/
def powerReturns (s : State) : Bool :=
  match s.agenda with
  | .event i :: _ => isPowerGood i
  | _ => false

/-! ### A machine that runs one given instruction -/

/-- Where `withFetchWord` puts the instruction, and the frames of its tables. -/
def bootPc : Nat := 0x10000
def bootTables : Nat := 0x20000

/-- Three levels of tables at a frame: each points to the next, the last maps the first GiB onto itself with every permission (R265, R266). -/
def bootTable (m : List Host.Cell) (a : Nat) : List Host.Cell :=
  memWrite (memWrite (memWrite m a (natBytes 8 (a + 0x1000 + 1))) (a + 0x1000) (natBytes 8 (a + 0x2000 + 1)))
    (a + 0x2000) (natBytes 8 0x3B)

/-- Function 0 with every feature accepted and a stage-2 root (R385, R265); the rest as a function has it at reset (R377). -/
def bootFn : Fn :=
  { Fn.fresh 0 with asid := 1, root2 := some bootTables, feat := List.range 32, featctl := 1, counterBase := some 0 }

/-- Its one address space (R262) (log 58, DESIGN CHOICE). -/
def bootCtx : Ctx :=
  { asid := 1, vf := 0, gen := 0, root := bootTables + 0x4000, state := .running, maps := [], attached := false, breakpoints := [],
    stepping := [], image := none, preOp := 0, priority := 0 }

/-- A grid of one crew. -/
def bootGrid (id : Nat) : Grid :=
  { id := id, src := .packet 0, op := 0, vf := 0, asid := 1, entry := BitVec.ofNat 64 bootPc, handler := 0, scratch := 0, l1floor := 0,
    ws := 60, crewf := 1, map := 0, groupsMax := 0, llwait := 0xFFFF, gx := 1, gy := 1, gz := 1, cx := 1, cy := 1, cz := 1,
    args := 0, retry := false, detail := false, coresident := false, groups := [], dies := 255, next := 1, queued := [], retired := [],
    dieLost := false, doom := none, killed := none }

/-- Its crew, with a scratchpad of 4 KiB, on core 0. -/
def bootCrew (id grid : Nat) : Crew :=
  { id := id, grid := grid, linear := 0, core := 0, slot := 0, nStart := 1, scrBase := 0, scrSize := 4096, scratch := [], bars := [],
    nextJgrp := 1 }

/-- Its fibre, at the instruction. -/
def bootFibre (id crew : Nat) : Fibre :=
  { id := id, crew := crew, idx := 0, part := 0, lane := 0, wb := 0, ws := 60, map := 0, pc := BitVec.ofNat 64 bootPc,
    regs := List.replicate 60 0, badParity := [], dup := [], busy := [], b0 := .void, b1 := .void, b2 := .void, copies := [],
    jgrp := id, cohort := id, status := .ready, handlerFor := none, deferred := [], frontier := [], acqSet := [],
    credit := [], relScope := none, unfenced := [], scr := [] }

/-- The state with that machine in it, about to issue the instruction in `bytes`. -/
def bootState (s : State) (bytes : List Byte) : State :=
  let n := s.nextId
  { s with
    mem := memWrite (bootTable (bootTable s.mem bootTables) (bootTables + 0x4000)) bootPc bytes,
    fns := bootFn :: s.fns.filter (·.vf != 0), ctxs := bootCtx :: s.ctxs.filter (·.asid != 1),
    grids := bootGrid n :: s.grids, crews := bootCrew (n + 1) n :: s.crews, fibres := bootFibre (n + 2) (n + 1) :: s.fibres,
    tlb := [], nextId := n + 3, agenda := .issue 0 0 (n + 2) :: s.agenda, cur := none, turns := [],
    dev := { s.dev with poweredOff := false } }

end Sys2Proof.Machine
end

