-- ==== Sys2Proof/Machine/Step.lean ====
section
/-! DEFINITION. One step of the machine, and the state that runs one given instruction next. -/

namespace Sys2Proof.Machine

/-- One step: device time goes on, then the agenda's next turn or the default one (spec/95: each row is one indivisible step). Without module
power nothing runs until it returns (R316, R389). -/
def step (s : State) : Host.Outcome State Fault Refusal :=
  if s.dev.poweredOff && !powerReturns s then .fault .noPower else turn (tick s)

/-- `s` with the instruction of `nbits` bits `w` where the next step fetches: the device loads no program itself, so this stands for the load
(log 14, DESIGN CHOICE). -/
def State.withFetchWord (s : State) (nbits w : Nat) : State := bootState s (natBytes 8 (w % 2 ^ nbits))

end Sys2Proof.Machine
end

