-- ==== Sys2Proof/Safety.lean ====
section
/-! DEFINITION. The words that statements about the machine use: a cohort that can issue an instruction, the state behind an instruction that
computes in its lanes, what leaves the rest of the machine alone, and the canonical form of memory. -/

namespace Sys2Proof.Machine

/-! ### A cohort that can issue -/

/-- The issuing cohort passes every check of R54 for `i`, encoded as `e` with the operand uses `u`; no operand is busy (R50), and every lane of
`exec` can read its operands (R47, R224). -/
structure CanIssue (i : Instr) (e : Enc) (u : Usage) (s : State) : Prop where
  enc : i.enc = some e
  usage : i.usage = some u
  reserved : e.staticCheck u = none
  lanes : s.lanes ≠ []
  feature : ∀ f ∈ s.lanes, featureMissing s i f = false
  window : ∀ f ∈ s.lanes, e.windowOk u f.ws = true
  idle : cohortWaits e u s.lanes = false
  operands : ∀ f ∈ s.lanes, laneGuard e f = true → operandTrap e u f = none
  parity : ∀ f ∈ s.lanes, f.badParity = []

/-- The lanes of `exec` by name, and those guarded off (R48). -/
def execIds (e : Enc) (s : State) : List Nat := (s.lanes.filter (laneGuard e)).map (·.id)
def offIds (e : Enc) (s : State) : List Nat := (s.lanes.filter fun f => !laneGuard e f).map (·.id)

/-- The sources of a cross-lane instruction: the lanes of `exec` (R146). -/
def sources (e : Enc) (s : State) : List Fibre := s.fibres.filter fun f => (execIds e s).contains f.id

/-- What an issue counts and wakes before its effect: performance counts, drowsy banks, the debugger's step marks (R197, R223, R325). -/
def issueCounts (e : Enc) (u : Usage) (s : State) : State :=
  wakeIssue (countIssue (markStepped s (s.lanes.map (·.id))) ((s.cur.map (·.core)).getD 0) e (s.lanes.filter (laneGuard e)).length)
    ((s.cur.map (·.core)).getD 0) e u s.lanes

/-- The issue as the effect sees it when no lane parks. -/
def cleanIssue (e : Enc) (u : Usage) (s : State) : Issue :=
  { enc := e, use := u, exec := sources e s, off := s.fibres.filter fun f => (offIds e s).contains f.id, parked := false }

/-- The cohort can issue `i`, and `exec` holds one lane, `l`: lanes guarded off there may be any. -/
structure SoleLane (i : Instr) (e : Enc) (u : Usage) (s : State) (l : Fibre) : Prop extends CanIssue i e u s where
  sole : sources e s = [l]
  lane : l.lane < 32

/-- Fibre `id` of `t` is a fibre with the property `P`. -/
def FibreIs (t : State) (id : Nat) (P : Fibre → Prop) : Prop := ∃ g, t.fibre? id = some g ∧ P g

/-- The three latches of a fibre are void (R46). -/
def VoidLatches (g : Fibre) : Prop := g.b0 = .void ∧ g.b1 = .void ∧ g.b2 = .void

/-- A lane stands behind an instruction that is a switch point (R46, R63). -/
def Behind (e : Enc) (l g : Fibre) : Prop := g.pc = nextPc e l ∧ VoidLatches g ∧ g.status = l.status

/-- Fibres outside the issuing cohort's lanes are in `t` as they were. -/
def OthersSame (e : Enc) (s t : State) : Prop :=
  ∀ h ∈ s.fibres, (execIds e s).contains h.id = false → (offIds e s).contains h.id = false → h ∈ t.fibres

/-! ### What an issue leaves alone -/

/-- A core without its performance counts, a context without the debugger's step marks. -/
def Core.noCounts (c : Core) : Core := { c with perfCounts := [] }
def Ctx.noStepping (c : Ctx) : Ctx := { c with stepping := [] }

/-- `t` differs from `s` in its fibres, in performance counts, in the banks that are drowsy and in the debugger's step marks only: memory, every
accumulator, scratchpad, table, queue, ring, register of a function and every other record is unchanged. -/
def OnlyFibres (s t : State) : Prop :=
  { t with fibres := s.fibres, cores := s.cores, drowsy := s.drowsy, ctxs := s.ctxs } = s ∧
  t.cores.map Core.noCounts = s.cores.map Core.noCounts ∧
  t.ctxs.map Ctx.noStepping = s.ctxs.map Ctx.noStepping ∧
  (∀ d ∈ t.drowsy, d ∈ s.drowsy)

/-- `t` differs from `s` in nothing but its fibres. -/
def JustFibres (s t : State) : Prop := { t with fibres := s.fibres } = s

/-- Every byte of memory reads as before. -/
def MemSame (s t : State) : Prop := ∀ a, t.getByte a = s.getByte a

/-- Every byte of memory outside a list of offsets reads as before. -/
def MemSameBut (offs : List Nat) (s t : State) : Prop := ∀ a, a ∉ offs → t.getByte a = s.getByte a

/-! ### An instruction that computes in its lanes -/

/-- A lane of `exec` behind an instruction of `len` bytes: its registers written, the latches shifted with the result in front, the program counter
moved on (R44, R45, R63). -/
def laneBehind (len : Nat) (o : LaneOut) (f : Fibre) : Fibre :=
  { (f.setRegs o.writes).shift o.latch with pc := f.pc + BitVec.ofNat 64 len }

/-- A lane guarded off behind it: no register is written and `b0` becomes void (R48). -/
def laneOff (len : Nat) (f : Fibre) : Fibre := { f.shift .void with pc := f.pc + BitVec.ofNat 64 len }

/-- `i` completes for every cohort that can issue it: `out` says, from the lanes of `exec`, what each of them writes and what its `b0` receives;
nothing else changes. -/
def Completes (i : Instr) (out : List Fibre → Fibre → LaneOut) : Prop :=
  ∀ e u s, CanIssue i e u s →
    ∃ t, exec i s = .next t ∧ OnlyFibres s t ∧
      t.fibres = s.fibres.map fun f =>
        if (execIds e s).contains f.id then laneBehind e.len (out (sources e s) f) f
        else if (offIds e s).contains f.id then laneOff e.len f
        else f

/-- The destination register of each format: none for `z` and under NW = 1 (R42, R44). -/
def hDest (f : HF) : Option Nat := if f.nw = 1 then none else some f.d.toNat
def wDest (f : WF) : Option Nat := if f.nw = 1 ∨ f.d = 63 then none else some f.d.toNat
def wiDest (f : WIF) : Option Nat := if f.d = 63 then none else some f.d.toNat
def lDest (f : LF) : Option Nat := if f.nw = 1 ∨ f.d = 63 then none else some f.d.toNat
def liDest (f : LIF) : Option Nat := if f.nw = 1 ∨ f.d = 63 then none else some f.d.toNat

/-- A 32-bit result: to the register, if there is one, and to `b0` (R45). -/
def word (d : Option Nat) (v : Word) : LaneOut := ⟨d.toList.map fun n => (n, v), ⟨.w32, v.setWidth 64⟩⟩

/-- A 64-bit result: to the pair and to `b0` (R43, R45). -/
def dword (d : Option Nat) (v : DWord) : LaneOut :=
  ⟨(d.toList.map fun n => [(n, v.setWidth 32), (n + 1, (v >>> 32).setWidth 32)]).flatten, ⟨.w64, v⟩⟩

/-- A new `pw`, of which `b0` receives the whole (R45, R73). -/
def predicate (v : Word) : LaneOut := ⟨[(0, v)], ⟨.w32, v.setWidth 64⟩⟩

/-- Source B of the L format: IMM16 under MOD[47], extended as R66 says, else the register. -/
def lSrcB (x : Ext) (f : LF) (l : Fibre) : Word :=
  if f.mod.getLsbD 3 then (match x with | .sign => f.imm16.signExtend 32 | .zero => f.imm16.setWidth 32) else l.src f.b.toNat

/-- IMM8 of the WI format, extended (R66). -/
def wiSrcB (x : Ext) (f : WIF) : Word := match x with | .sign => f.imm8.signExtend 32 | .zero => f.imm8.setWidth 32

/-- The two-source operations in the four formats: `g` computes the result, under `.s32` in H, W and WI (R41, R65 to R67). -/
def BinH (c : HF → Instr) (g : Word → Word → Word) : Prop :=
  ∀ f, Completes (c f) fun _ l => word (hDest f) (g (l.src f.d.toNat) (l.src f.s.toNat))
def BinW (c : WF → Instr) (g : Word → Word → Word) : Prop :=
  ∀ f, Completes (c f) fun _ l => word (wDest f) (g (l.src f.a.toNat) (l.src f.b.toNat))
def BinWi (x : Ext) (c : WIF → Instr) (g : Word → Word → Word) : Prop :=
  ∀ f, Completes (c f) fun _ l => word (wiDest f) (g (l.src f.a.toNat) (wiSrcB x f))
def BinL (x : Ext) (c : LF → Instr) (g : Bool → Word → Word → Word) : Prop :=
  ∀ f, Completes (c f) fun _ l => word (lDest f) (g (f.mod.getLsbD 0) (l.src f.a.toNat) (lSrcB x f l))

/-- The one-source operations in W and L (R68). -/
def UnW (c : WF → Instr) (g : Word → Word) : Prop := ∀ f, Completes (c f) fun _ l => word (wDest f) (g (l.src f.a.toNat))
def UnL (c : LF → Instr) (g : Word → Word) : Prop := ∀ f, Completes (c f) fun _ l => word (lDest f) (g (l.src f.a.toNat))

/-- The integer compares: the test combines into bit D of `pw` (R73). -/
def CmpW (c : WF → Instr) (k : Word → Word → Bool) : Prop :=
  ∀ f, Completes (c f) fun _ l => predicate (setBit l.pw f.d.toNat (k (l.src f.a.toNat) (l.src f.b.toNat)))
def CmpWi (c : WIF → Instr) (k : Word → Word → Bool) : Prop :=
  ∀ f, Completes (c f) fun _ l => predicate (setBit l.pw f.d.toNat (k (l.src f.a.toNat) (wiSrcB .sign f)))
def CmpL (c : LF → Instr) (k : Bool → Word → Word → Bool) : Prop :=
  ∀ f, Completes (c f) fun _ l =>
    predicate (setBit l.pw f.d.toNat (combineBit (f.mod.toNat / 2 % 4) (l.pw.getLsbD f.d.toNat)
      (k (f.mod.getLsbD 0) (l.src f.a.toNat) (lSrcB .sign f l))))

/-- A float source of a type: a pair under `.f64` (R107). -/
def fSrc (t : FTy) (l : Fibre) (n : BitVec 6) : Nat := if t = .f64 then (l.src64 n.toNat).toNat else (l.src n.toNat).toNat

/-- A float result of a type (R107). -/
def fOut (t : FTy) (d : Option Nat) (v : Nat) : LaneOut :=
  if t = .f64 then dword d (BitVec.ofNat 64 v) else word d (BitVec.ofNat 32 v)

/-- The float operations of one and two sources: `.f32` rounded to nearest even in H and W; type and mode of the L form from MOD and IMM16
(R108, R109). -/
def FBinH (c : HF → Instr) (g : FTy → Mode → Nat → Nat → Nat) : Prop :=
  ∀ f, Completes (c f) fun _ l => word (hDest f) (BitVec.ofNat 32 (g .f32 .rne (l.src f.d.toNat).toNat (l.src f.s.toNat).toNat))
def FBinW (c : WF → Instr) (g : FTy → Mode → Nat → Nat → Nat) : Prop :=
  ∀ f, Completes (c f) fun _ l => word (wDest f) (BitVec.ofNat 32 (g .f32 .rne (l.src f.a.toNat).toNat (l.src f.b.toNat).toNat))
def FBinL (c : LF → Instr) (g : FTy → Mode → Nat → Nat → Nat) : Prop :=
  ∀ f, Completes (c f) fun _ l =>
    fOut (fTyOf f.mod) (lDest f) (g (fTyOf f.mod) (modeOfField (f.imm16.toNat % 8)) (fSrc (fTyOf f.mod) l f.a) (fSrc (fTyOf f.mod) l f.b))
def FUnW (c : WF → Instr) (g : FTy → Mode → Nat → Nat) : Prop :=
  ∀ f, Completes (c f) fun _ l => word (wDest f) (BitVec.ofNat 32 (g .f32 .rne (l.src f.a.toNat).toNat))
def FUnL (c : LF → Instr) (g : FTy → Mode → Nat → Nat) : Prop :=
  ∀ f, Completes (c f) fun _ l =>
    fOut (fTyOf f.mod) (lDest f) (g (fTyOf f.mod) (modeOfField (f.imm16.toNat % 8)) (fSrc (fTyOf f.mod) l f.a))

/-- The float compares (R118). -/
def FCmpW (c : WF → Instr) (k : Cond) : Prop :=
  ∀ f, Completes (c f) fun _ l => predicate (fpCmpPw k .f32 l.pw f.d.toNat 0 (l.src f.a.toNat).toNat (l.src f.b.toNat).toNat)
def FCmpL (c : LF → Instr) (k : Cond) : Prop :=
  ∀ f, Completes (c f) fun _ l =>
    predicate (fpCmpPw k (fTyOf f.mod) l.pw f.d.toNat (f.imm16.toNat % 4) (fSrc (fTyOf f.mod) l f.a) (fSrc (fTyOf f.mod) l f.b))

/-- A complex source: a pair for `.f32`, one register for the packed types (R125, R126). -/
def cSrc (t : FTy) (l : Fibre) (n : BitVec 6) : Nat := if t.packed then (l.src n.toNat).toNat else (l.src64 n.toNat).toNat

/-- A complex result. -/
def cOut (t : FTy) (d : Option Nat) (v : Nat) : LaneOut :=
  if t.packed then word d (BitVec.ofNat 32 v) else dword d (BitVec.ofNat 64 v)

/-- The outputs of `bfly`: a quad, with the top in `b0`, for `.f32`; a pair for the packed types (R127). -/
def quadOut (t : FTy) (d : Option Nat) (top bot : Nat) : LaneOut :=
  if t.packed then dword d (BitVec.ofNat 32 bot ++ BitVec.ofNat 32 top)
  else
    ⟨(d.toList.map fun n => [(n, BitVec.ofNat 32 top), (n + 1, BitVec.ofNat 32 (top / 2 ^ 32)), (n + 2, BitVec.ofNat 32 bot),
      (n + 3, BitVec.ofNat 32 (bot / 2 ^ 32))]).flatten, ⟨.w64, BitVec.ofNat 64 top⟩⟩

/-- The value a shuffle takes: of lane j where j is a source, 0 where it is none, the lane's own without j (R147). -/
def laneValue {α : Type} (exec : List Fibre) (own : Fibre) (j : Option Nat) (zero : α) (g : Fibre → α) : α :=
  match j with
  | none => g own
  | some j => ((exec.find? (·.lane == j)).map g).getD zero

/-- The shuffles in W and L (R147). -/
def ShufW (c : WF → Instr) (k : ShufKind) : Prop :=
  ∀ f, Completes (c f) fun exec l =>
    word (wDest f) (laneValue exec l (shufLane k l.lane (l.src f.b.toNat).toNat) 0 fun g => g.src f.a.toNat)
def ShufL (c : LF → Instr) (k : ShufKind) : Prop :=
  ∀ f, Completes (c f) fun exec l =>
    let b := if f.mod.getLsbD 3 then f.imm16.toNat else (l.src f.b.toNat).toNat
    if f.mod.getLsbD 0 then dword (lDest f) (laneValue exec l (shufLane k l.lane b) 0 fun g => g.src64 f.a.toNat)
    else word (lDest f) (laneValue exec l (shufLane k l.lane b) 0 fun g => g.src f.a.toNat)

/-- The bit a vote reads of a source: bit A of its `pw`, or 1 for 63 (R148). -/
def voteOf (a : BitVec 6) (g : Fibre) : Bool := a == 63 || g.pw.getLsbD a.toNat

/-! ### Memory instructions -/

/-- The address of R131: the pair A and IMM16[11:0] sign-extended. -/
def lAddr (f : LF) (l : Fibre) : DWord := l.src64 f.a.toNat + (BitVec.ofNat 12 f.imm16.toNat).signExtend 64

/-- The scratchpad offset of R142: the register A and IMM16[11:0] sign-extended. -/
def lScrAddr (f : LF) (l : Fibre) : Nat := (l.src f.a.toNat + (BitVec.ofNat 12 f.imm16.toNat).signExtend 32).toNat

/-- The order and the scope of an L memory instruction (R129, R130). -/
def lOrder (f : LF) : Nat := f.mod.toNat % 4
def lScope (f : LF) : Nat := f.imm16.toNat / 2 ^ 12 % 8

/-- A lane's registers `d` to `d + n - 1` are busy with an outstanding write (R50). -/
def BusyWith (g : Fibre) (d : Option Nat) (n ref : Nat) : Prop := ∀ r, d = some r → ∀ k < n, (r + k, ref) ∈ g.busy

/-- What every memory instruction leaves alone at its issue: memory, scratchpads of the crews but for `crew`, queues, contexts' generations, and
fibres outside the cohort's lanes. -/
def IssueFrame (e : Enc) (s t : State) : Prop :=
  MemSame s t ∧ OthersSame e s t ∧ t.queues = s.queues ∧ t.packets = s.packets ∧ t.counters = s.counters ∧ t.green = s.green ∧
  t.leases = s.leases ∧ t.channels = s.channels ∧ t.fns = s.fns ∧ t.grids = s.grids ∧ t.time = s.time ∧
  ∀ n, (t.core n).acc = (s.core n).acc

/-- No other fibre of the crew has a scratchpad write in these bytes that it has not released (R142). -/
def NoPendingWrites (s : State) (l : Fibre) (o n : Nat) : Prop :=
  ∀ g ∈ s.fibres, g.crew = l.crew → g.id ≠ l.id → ∀ p ∈ g.scr, p.1 < o ∨ o + n ≤ p.1

/-! ### Accesses and waits -/

/-- The storage bytes of an access through selectors 0 to 2; none where it is refused. -/
def storageBytes (s : State) (a : Access) (n : Nat) : List Nat := match storageOf s a.spa n with | .ok bs => bs | .error _ => []

/-- An access of this package that its home can perform now (R249, R131): current generation, an unthrottled row, no aperture. -/
structure Performs (s : State) (ref : Nat) (a : Access) : Prop where
  found : s.access? ref = some a
  can : canPerform s a = true
  plain : apertureStore s a = none
  here : a.dev = none
  current : a.gen = s.gen a.asid
  row : isThrottled s a = false
  own : ∀ x ∈ s.served, x.1 ≠ ref
  whole : a.done = 0
  first : a.got = []

/-- The answer of an access belongs to its fibre alone: no copy, no send, no wait, no sampled issue. -/
structure PlainAnswer (s : State) (ref : Nat) (a : Access) (l : Fibre) : Prop where
  found : s.access? ref = some a
  agent : a.agent = .fibre l.id
  fibre : s.fibre? l.id = some l
  live : l.status ≠ .halted
  copy : a.cpa = false
  wait : isWaitRead s a = none
  send : sendOfRef s ref = none
  bulk : copyOfRef s ref = none

/-- An access has left. -/
def Gone (t : State) (ref : Nat) : Prop := ∀ x ∈ t.accesses, x.ref ≠ ref

/-- A fibre goes on at `pc` with these registers. -/
def GoesOn (t : State) (id : Nat) (pc : DWord) (regs : List Word) : Prop :=
  FibreIs t id fun g => g.status = .ready ∧ g.pc = pc ∧ VoidLatches g ∧ g.regs = regs

/-! ### Packets -/

/-- Packet `p`, fetched and of type `typ`, starts as `k` in the state `s1`. -/
def Starts (s : State) (p typ : Nat) (k : Packet) (s1 : State) : Prop := pktStart s p typ = some (k, s1)

/-- A queue stands in `t` with the property `P`. -/
def QueueIs (t : State) (qn : Nat) (P : Queue → Prop) : Prop := ∃ q, t.queue? qn = some q ∧ P q

/-! ### Commands -/

/-- The firmware serves a command of function `vf` with this code (R381, R382): its block is readable, its zero field is zero and nothing denies it. -/
structure Serves (s : State) (vf code : Nat) (f : Fn) (c : Cmd) (b : CmdBlock) : Prop where
  head : headCmd s vf = some (f, c, some b)
  isCode : b.code = code
  isZero : b.zero = 0
  allowed : cmdDenied s f code = false

/-- Instruction `i` ends the command with status `st`; its own effect is a state with the property `P`. -/
def Ends (i : Instr) (s : State) (f : Fn) (b : CmdBlock) (st : Nat) (P : State → Prop) : Prop :=
  ∃ u, exec i s = .next (cmdEnd u f b st) ∧ P u

/-- Instruction `i` ends the command with status `st` and has no other effect. -/
def Fails (i : Instr) (s : State) (f : Fn) (b : CmdBlock) (st : Nat) : Prop := exec i s = .next (cmdEnd s f b st)

/-- Instruction `i` goes on with the command; its effect is a state with the property `P`. -/
def Waits (i : Instr) (s : State) (P : State → Prop) : Prop := ∃ u, exec i s = .next u ∧ P u

/-- Function `vf` stands in `t` with the property `P`, and every other function, and everything beside the functions, as in `s`. -/
def OnlyFn (s t : State) (vf : Nat) (P : Fn → Prop) : Prop :=
  { t with fns := s.fns } = s ∧ (∃ g, t.fn? vf = some g ∧ P g) ∧ ∀ n, n ≠ vf → t.fn? n = s.fn? n

/-- The command answers with these bytes at `va` (R402): OK where they could be written, else BADARG. -/
def Answers (i : Instr) (s : State) (f : Fn) (b : CmdBlock) (va : Nat) (bs : List Byte) : Prop :=
  let r := answerPages f (pagesOf va bs.length) bs s
  exec i s = .next (cmdEnd r.2 f b (if r.1 then 0 else stBadArg))

/-! ### Fabric packets -/

/-- A packet for this device arrives in sequence, with nothing buffered behind it (R330, R332). -/
structure InOrder (s : State) (p : FabPkt) (op : Nat) : Prop where
  isOp : p.op.toNat = op
  whole : pktBad p = false
  here : p.dstdev.toNat = s.dev.dev
  port : p.plane.toNat < 24
  service : s.dev.dstate ≠ 2
  turn : (s.reorderOf p.srcdev.toNat p.plane.toNat).next = none ∨ (s.reorderOf p.srcdev.toNat p.plane.toNat).next = some p.seq.toNat
  empty : (s.reorderOf p.srcdev.toNat p.plane.toNat).held = []

/-- The state behind the packet's sequence number. -/
def afterSeq (s : State) (p : FabPkt) : State :=
  s.setReorder p.srcdev.toNat p.plane.toNat fun r => { r with next := some ((p.seq.toNat + 1) % 2 ^ 24), since := s.time.dtc }

/-- Instruction `i` delivers the packet with the effect `d`; then what is buffered behind it, if anything is by now. -/
def Delivers (i : Instr) (s : State) (p : FabPkt) (d : State → FabPkt → State) : Prop :=
  exec i s = .next (drainReorder deliver p.srcdev.toNat p.plane.toNat 1 (d (afterSeq s p) p))

/-! ### Names -/

/-- The fibres saved in images (R370). -/
def savedFibres (s : State) : List Fibre := s.ctxs.flatMap fun c => (c.image.map (·.fibres)).getD []

/-- A name names one fibre, whether it runs or is saved, and was taken before the next fresh name; an address space is one context's (R262). -/
def NamesOk (s : State) : Prop :=
  (s.ctxs.map (·.asid)).Nodup ∧ ((s.fibres ++ savedFibres s).map (·.id)).Nodup ∧ ∀ f ∈ s.fibres ++ savedFibres s, f.id < s.nextId

/-! ### Control flow -/

/-- A fibre without the name of its cohort. -/
def noCohort (f : Fibre) : Fibre := { f with cohort := 0 }

/-- As `OnlyFibres`, but fresh names may have been taken for new cohorts. -/
def OnlyFibresNames (s t : State) : Prop := OnlyFibres s { t with nextId := s.nextId }

/-- The lanes of `exec` stand at one program counter (R78). -/
def OnePc (e : Enc) (s : State) : Prop := ∀ f ∈ sources e s, ∀ g ∈ sources e s, f.pc = g.pc

/-- A branch instruction sends every lane of `exec` to `target` and the lanes guarded off behind it, with void latches (R46, R75 to R77);
`link` is what it writes before. Only fibres change, and of them only the cohort's lanes. -/
def BranchesTo (i : Instr) (taken : Fibre → Bool) (target : Fibre → DWord) (link : Fibre → Fibre) : Prop :=
  ∀ e u s, CanIssue i e u s → (∃ f ∈ sources e s, taken f = true) →
    (∀ f ∈ sources e s, taken f = true → (target f).toNat % 2 = 0 ∧ (target f).toNat < 2 ^ 57) →
    ∃ t, exec i s = .next t ∧ OnlyFibresNames s t ∧
      t.fibres.map noCohort = s.fibres.map fun f => noCohort
        (if (execIds e s).contains f.id then
          { (link f).voidLatches with pc := if taken f then target f else f.pc + BitVec.ofNat 64 e.len }
        else if (offIds e s).contains f.id then { f.voidLatches with pc := f.pc + BitVec.ofNat 64 e.len }
        else f)

/-! ### The canonical form of memory -/

/-- Memory holds its canonical form: strictly rising addresses, no byte that an unlisted address reads as. -/
def MemCanonical (s : State) : Prop := Memory.wf s.mem = true

end Sys2Proof.Machine
end

