-- ==== Sys2Proof/Certificates/Slice0/Obligations.lean ====
section
/-! DEFINITION. The statements for the provers. -/

open Sys2Proof Sys2Proof.Machine

/-- R39, R40, R56 with the words worked in spec/04, spec/06 and spec/07: the bytes of each, lowest address first, decode to the instruction the
chapter names.
R52: the three fixed maps. Map 1 takes six operations out of map 0; map 2 exchanges the ranges 0x100 to 0x17F and 0x180 to 0x1FF of map 1; in
every one 0x380 to 0x3FF are undefined. -/
def Obligations.WorkedWordsDecode : Prop :=
  (
    decode (natBytes 4 0x0A103189) = .ok (.cmpLtWi ⟨10, 4, 3⟩) 4 ∧
    decode (natBytes 8 0x00003003_8C28820F) = .ok (.fma ⟨0, 3, 0, 0, 0, 0, 14, 12, 10, 8⟩) 8 ∧
    decode (natBytes 8 0x0002000F_C6144203) = .ok (.addFloatL ⟨2, 0, 0, 0, 0, 0, 63, 6, 5, 4⟩) 8 ∧
    decode (natBytes 8 0x0006000F_FF247403) = .ok (.cvt ⟨6, 0, 0, 0, 0, 0, 63, 63, 9, 7⟩) 8 ∧
    decode (natBytes 4 0x0910550D) = .ok (.shufXorW ⟨0, 0, 9, 4, 5⟩) 4 ∧
    decode (natBytes 8 0xFFFFFFF7_00FFFA03) = .ok (.br ⟨0xFFFFFFF7, 0, 0, 0, 63, 63⟩) 8 ∧
    decode (natBytes 8 0x0000000B_00FC1A07) = .ok (.bcT ⟨11, 0, 0, 0, 63, 1⟩) 8 ∧
    decode (natBytes 2 0) = .ill .marker ∧
    decode (natBytes 8 0x00028000_00000000) = .ill .marker ∧
    decode (natBytes 4 0x00000E01) = .ill .opcode) ∧
  (
    (∀ n, map1 n = if n ∈ [0xB2, 0xB3, 0x19E, 0x310, 0x311, 0x312] then 0xFFFF else map0 n) ∧
    (∀ n, n < 0x100 ∨ 0x200 ≤ n → map2 n = map1 n) ∧
    (∀ n, n < 0x80 → map2 (0x100 + n) = map1 (0x180 + n) ∧ map2 (0x180 + n) = map1 (0x100 + n)) ∧
    (∀ n, 0x380 ≤ n → map0 n = 0xFFFF ∧ map1 n = 0xFFFF ∧ map2 n = 0xFFFF))

/-- R40: encoding and decoding agree. Every well-formed instruction, with every operand at every value its encoding admits, is read back from its
own bytes, whatever bytes follow. -/
def Obligations.EncodeDecode : Prop :=
  ∀ (i : Instr) (bs rest : List Byte), i.WellFormed → encode i = some bs → decode (bs ++ rest) = .ok i bs.length

/-- R39, R40: a word that decodes is the encoding of what it decodes to: no bit of it is read for another. -/
def Obligations.DecodeEncode : Prop :=
  ∀ (bs : List Byte) (i : Instr) (n : Nat), decode bs = .ok i n → encode i = some (bs.take n)


/-- R390: the fields of DEVSTAT, and its value at reset.
R304, R308: what reset leaves. The DTC counts from 0, every sequence of identifiers starts at 1, DEVSTAT reads zero, no memory byte is
listed, and no fibre, crew, queue, context or access exists.
The invariant of `StepKeepsMemoryCanonical` holds at reset.
What the spec leaves open here is the model's choice: logs 1, 2. -/
def Obligations.ResetValues : Prop :=
  (∀ (s : State) (i : Nat), (devstat s).testBit i =
    (if i < 4 then s.dev.dstate.testBit i else if 8 ≤ i ∧ i < 16 then s.dev.reason.testBit (i - 8) else if i = 16 then s.dev.cap
     else if 48 ≤ i ∧ i < 64 then s.dev.badstk.testBit (i - 48) else false)) ∧
  (∀ (s : State) (vf : Nat) (f : Fn), s.fn? vf = some f → f.resetting = false → regRead s vf 0x1040 = devstat s) ∧
  (
    State.reset.time.dtc = 0 ∧ (∀ die, State.reset.seqOf die = 1) ∧ devstat State.reset = 0 ∧
    State.reset.dev.dstate = 0 ∧ State.reset.dev.reason = 0 ∧ State.reset.dev.cap = false ∧ State.reset.dev.badstk = 0 ∧
    (∀ a, memGet State.reset.mem a = 0) ∧ State.reset.fibres = [] ∧ State.reset.crews = [] ∧ State.reset.queues = [] ∧
    State.reset.ctxs = [] ∧ State.reset.accesses = []) ∧
  (
   MemCanonical State.reset)


/-- Every step keeps memory in its canonical form: addresses rise strictly and no listed byte is the one an unlisted address reads as, so that equal
memories are equal data. -/
def Obligations.StepKeepsMemoryCanonical : Prop := ∀ s t, MemCanonical s → step s = .next t → MemCanonical t

/-- Every step keeps the names of fibres apart: no two fibres, running or saved, share a name, and no name is taken ahead of its time. The statements that
speak of `the fibre of a name` have this as a premise; at reset it holds as there is no fibre. -/
def Obligations.StepKeepsFibreNames : Prop := NamesOk State.reset ∧ ∀ s t, NamesOk s → step s = .next t → NamesOk t

/-- R316, R389: without module power nothing runs, and the step says so by name; the return of power is the one turn that is taken. -/
def Obligations.NoPowerStops : Prop :=
  (∀ s, s.dev.poweredOff = true → powerReturns s = false → step s = .fault .noPower) ∧
  (∀ s, s.dev.poweredOff = true → powerReturns s = true → step s = turn (tick s)) ∧
  (∀ s, s.dev.poweredOff = false → step s = turn (tick s))

/-- R39, R51, R54: a step that issues a cohort fetches at its program counter, decodes through the fibre's map and runs exactly the instruction
decoded; what follows at once stands in `settle`. Device time has gone on before (`tick`), deferred errors have been taken (`boundary`, R398) and no
breakpoint holds the cohort; the issue order lets it issue (R84, R85), the others of its partition have been passed once more, and the core may have
made or dropped duplicates of its registers (R224). A turn that is a step of another agent runs that row.
What the spec leaves open here is the model's choice: log 4. -/
def Obligations.StepRunsDecoded : Prop :=
  (∀ (s s3 : State) (core part num : Nat) (rest : List Turn) (f f' : Fibre) (fs fs' : List Fibre) (bs : List Byte) (i : Instr) (n : Nat),
    s.dev.poweredOff = false → s.agenda = .issue core part num :: rest →
    let s1 : State := { tick s with agenda := rest }
    let s2 := boundary { dupTurn (noteTurn s1 core part num) core num with cur := some ⟨core, part, num⟩ }
    s1.cohortLanes num = f :: fs → ctxRuns s1 f = true → mayIssue s1 core part num = true → s2.lanes = f' :: fs' → atBreakpoint s2 (f' :: fs') = false →
    fetch s2 f' = (.bytes bs, s3) → parseBytes (mapOf s3 f') bs = .ok i n →
    step s = settleOutcome (exec i s3)) ∧
  (∀ (s : State) (i : Instr) (rest : List Turn), s.dev.poweredOff = false → s.agenda = .event i :: rest →
    step s = settleOutcome (exec i { tick s with agenda := rest, cur := none }))

/-- R54, R55: the checks of an issue in their order, and what each leaves. An operation whose feature is not accepted, then a word whose fields break
a rule, then a register outside the window: every lane of `active` parks with the code and nothing else happens. A word no decode entry gives
(the row `undefinedOpcode`) parks in the same way.
R50: an instruction that needs a busy register is not issued. A guard's `pw` of bad parity that has a duplicate has taken its value before (R224). -/
def Obligations.ChecksOfAnIssue : Prop :=
  (
    (∀ i e u s, i.enc = some e → i.usage = some u → s.lanes ≠ [] →
      let t := repairGuards e s
      (t.lanes.any (featureMissing t i) = true →
        exec i s = .next (parkAll t (t.lanes.map (·.id)) fun f => ⟨0x16, f.pc, f.pc, 0, 0, false⟩)) ∧
      (∀ c, t.lanes.any (featureMissing t i) = false → e.staticCheck u = some c →
        exec i s = .next (parkAll t (t.lanes.map (·.id)) fun f => ⟨illCode c, f.pc, f.pc, 0, 0, false⟩)) ∧
      (t.lanes.any (featureMissing t i) = false → e.staticCheck u = none → (t.lanes.all fun f => e.windowOk u f.ws) = false →
        exec i s = .next (parkAll t (t.lanes.map (·.id)) fun f => ⟨0x15, f.pc, f.pc, 0, 0, false⟩))) ∧
    (∀ c s, exec (.undefinedOpcode c) s = .next (parkAll s (s.lanes.map (·.id)) fun f => ⟨illCode c, f.pc, f.pc, 0, 0, false⟩))) ∧
  (
    ∀ i e u s, i.enc = some e → i.usage = some u → s.lanes ≠ [] →
      let t := repairGuards e s
      t.lanes.any (featureMissing t i) = false → e.staticCheck u = none → (t.lanes.all fun f => e.windowOk u f.ws) = true →
      cohortWaits e u t.lanes = true → exec i s = .next t ∧ ((∀ f ∈ s.lanes, f.badParity = []) → t = s))


/-- R39, R365: a fetch that fails parks every lane of the cohort with FETCH: ARG is the address whose fetch failed, AUX the low byte of its code.
R47, R224: a lane of `exec` that reads a void latch, or a register of bad parity without a duplicate, parks with ILL_LATCH or REG_PARITY and the
register field in AUX; so does a lane whose guard reads such a `pw`. R323: such a parity error, and an uncorrectable scratchpad word, is counted. -/
def Obligations.FetchAndOperandFaultsPark : Prop :=
  (
    ∀ (s s3 : State) (f : Fibre) (fs : List Fibre) (va : DWord) (cause : Nat) (s2m : Bool),
      s.lanes = f :: fs → atBreakpoint s (f :: fs) = false → fetch s f = (.fail va cause s2m, s3) →
      issueCohort s = .next (parkAll s3 ((f :: fs).map (·.id)) fun g => ⟨0xB0, g.pc, g.pc, va, cause % 256, s2m⟩)) ∧
  (∀ e u f, guardFault e f = true → operandTrap e u f = some ⟨0x80, f.pc, f.pc, 0, 0, false⟩) ∧
  (∀ e u f n, guardFault e f = false → latchFault e u f = some n → operandTrap e u f = some ⟨0x19, f.pc, f.pc, 0, n, false⟩) ∧
  (∀ e u f n, guardFault e f = false → latchFault e u f = none → parityFault e u f = some n → operandTrap e u f = some ⟨0x80, f.pc, f.pc, 0, n, false⟩) ∧
  (∀ e u f n, latchFault e u f = some n → 60 ≤ n ∧ n ≤ 62 ∧ (f.latch n).mark ≠ .w64) ∧
  (∀ e u f n, parityFault e u f = some n → n ∈ f.badParity ∧ n ∈ regReads e u ∧ ¬ ∃ v, (n, v) ∈ f.dup) ∧
  (∀ e u s f t, laneGuard e f = true ∨ guardFault e f = true → operandTrap e u f = some t → prepare e u [f] s = softPark s f.id t) ∧
  (∀ (s : State) (id : Nat) (t : Trap), (t.code = 0x80 → softPark s id t = park (healthAdd s 1) id t) ∧ (t.code = 0x48 → softPark s id t = park (healthAdd s 3) id t) ∧
    (t.code ≠ 0x80 → t.code ≠ 0x48 → softPark s id t = park s id t)) ∧
  (∀ (s : State) (i n : Nat), i < 12 → n < 12 → (healthAdd s i).dev.health.getD n 0 = s.dev.health.getD n 0 + if n = i then 1 else 0)

/-- R216, R364, R46: TAKING AN EXCEPTION. The lane parks with its fault record and the address a resume continues at, its program counter where the
rule puts it, with void latches and a cohort and join group of its own; the other lanes of its cohort have void latches; LANE_PARK is emitted with a new
identifier, the work's as cause and the code as argument; memory, registers and every other fibre are as before.
What the spec leaves open here is the model's choice: log 56. -/
def Obligations.TakingAnException : Prop :=
  ∀ (s : State) (id : Nat) (t : Trap) (f : Fibre), s.fibre? id = some f →
    let op := (mint s (coreDie (s.fibreCore f))).1
    let r : FaultRec :=
      { code := t.code, pc := t.pc, arg := t.arg, aux := t.aux % 256, s2 := t.s2, op := s.fibreOp f, core := s.fibreCore f,
        slot := s.fibreSlot f, part := f.part, lane := f.lane, idx := f.idx }
    FibreIs (park s id t) id (fun g => g.status = .parked ⟨r, t.resume, false, op, s.time.dtc⟩ ∧
      g.pc = t.pc ∧ VoidLatches g ∧ g.regs = f.regs ∧ g.cohort = s.nextId ∧ g.jgrp = s.nextId + 1) ∧
    (∀ h ∈ s.fibres, h.id ≠ id → h.cohort ≠ f.cohort → h ∈ (park s id t).fibres) ∧
    (∀ h ∈ s.fibres, h.id ≠ id → h.cohort = f.cohort → h.voidLatches ∈ (park s id t).fibres) ∧
    (park s id t).mem = s.mem ∧ (park s id t).accesses = s.accesses ∧ (park s id t).crews = s.crews ∧
    (s.flue.find? (·.src == coreSrc (s.fibreCore f)) = none →
      ⟨coreSrc (s.fibreCore f), [⟨0x0901, t.code % 2 ^ 16, s.fibreVf f, coreSrc (s.fibreCore f), op, s.fibreOp f, s.time.dtc⟩]⟩ ∈
        (park s id t).flue)

/-- R80, R367: THE RETURN FROM AN EXCEPTION, and the verdicts of a handler fibre `h` that halts. RESUME continues where the code's rule gives when
v12 and v13 still hold the record's PC, else at their value; a value that is no address parks again with BAD_TARGET; END ends the fibre; any other
verdict marks the grid to be killed with FAULT.
What the spec leaves open here is the model's choice: logs 64 and 81. -/
def Obligations.HandlerVerdicts : Prop :=
  ∀ (s : State) (h x : Fibre) (p : Parked) (target : Nat), s.fibre? target = some x → x.status = .parked p →
    let pc := pairVal (h.reg 12) (h.reg 13)
    (h.reg 1 = 1 → pc = p.frec.pc → FibreIs (verdict s h target) target fun g =>
      g.status = .ready ∧ g.pc = p.resume ∧ VoidLatches g ∧ g.regs = x.regs ∧ g.jgrp = s.nextId + 1) ∧
    (h.reg 1 = 1 → pc ≠ p.frec.pc → pc.toNat % 2 = 0 → pc.toNat < 2 ^ 57 → FibreIs (verdict s h target) target fun g =>
      g.status = .ready ∧ g.pc = pc ∧ VoidLatches g ∧ g.regs = x.regs ∧ g.jgrp = s.nextId + 1) ∧
    (h.reg 1 = 1 → pc ≠ p.frec.pc → pc.toNat % 2 = 1 ∨ 2 ^ 57 ≤ pc.toNat → FibreIs (verdict s h target) target fun g =>
      ∃ q, g.status = .parked q ∧ q.frec.code = 0x21 ∧ q.frec.pc = p.frec.pc ∧ q.frec.arg = pc) ∧
    (h.reg 1 = 2 → verdict s h target = endFibre (checkHalt s x) target) ∧
    (∀ gr, h.reg 1 ≠ 1 → h.reg 1 ≠ 2 → s.fibreGrid h = some gr →
      verdict s h target = s.setGrid gr.id fun y => { y with doom := some (y.doom.getD (2, p.lp)) })

/-- R67, with R41, R65 and R66: the two-source integer operations write f(a, b) in every lane of `exec`, in every form they have; a shift takes the
whole 32-bit amount. In the L form C holds 63 and MOD[46:45] is 0, or the word is reserved.
Each has the opcode of its rule. -/
def Obligations.IntegerResults : Prop :=
  (let g := fun a b : Word => BitVec.ofNat 32 (a.toNat + b.toNat)
   BinH .addS32H g ∧ BinW .addW g ∧ BinWi .sign .addWi g ∧ BinL .sign .addL fun _ => g) ∧
  (let g := fun a b : Word => BitVec.ofInt 32 ((a.toNat : Int) - b.toNat)
   BinH .subS32H g ∧ BinW .subW g ∧ BinL .sign .subL fun _ => g) ∧
  (let g := fun a b : Word => BitVec.ofNat 32 (a.toNat * b.toNat)
   BinH .mulS32H g ∧ BinW .mulW g ∧ BinWi .sign .mulWi g ∧ BinL .sign .mulL fun _ => g) ∧
  (let g := fun n a b => clampT n (intT n a + intT n b)
   BinW .addSatW (g false) ∧ BinL .sign .addSatL g) ∧
  (let g := fun n a b => clampT n (intT n a - intT n b)
   BinW .subSatW (g false) ∧ BinL .sign .subSatL g) ∧
  (let g := fun n a b => BitVec.ofInt 32 (intT n a * intT n b / 2 ^ 32)
   BinW .mulhiW (g false) ∧ BinL .sign .mulhiL g) ∧
  (let g := fun n a b => if intT n a ≤ intT n b then a else b
   BinW .minW (g false) ∧ BinWi .sign .minWi (g false) ∧ BinL .sign .minL g) ∧
  (let g := fun n a b => if intT n b ≤ intT n a then a else b
   BinW .maxW (g false) ∧ BinWi .sign .maxWi (g false) ∧ BinL .sign .maxL g) ∧
  (BinH .andH (· &&& ·) ∧ BinW .andW (· &&& ·) ∧ BinWi .sign .andWi (· &&& ·) ∧ BinL .sign .andL fun _ => (· &&& ·)) ∧
  (BinH .orH (· ||| ·) ∧ BinW .orW (· ||| ·) ∧ BinWi .sign .orWi (· ||| ·) ∧ BinL .sign .orL fun _ => (· ||| ·)) ∧
  (BinH .xorH (· ^^^ ·) ∧ BinW .xorW (· ^^^ ·) ∧ BinWi .sign .xorWi (· ^^^ ·) ∧ BinL .sign .xorL fun _ => (· ^^^ ·)) ∧
  (let g := fun a b : Word => a &&& ~~~b
   BinW .andnW g ∧ BinL .sign .andnL fun _ => g) ∧
  (let g := fun a b : Word => if 32 ≤ b.toNat then 0 else BitVec.ofNat 32 (a.toNat * 2 ^ b.toNat)
   BinH .shlH g ∧ BinW .shlW g ∧ BinWi .zero .shlWi g ∧ BinL .zero .shlL fun _ => g) ∧
  (let g := fun a b : Word => if 32 ≤ b.toNat then 0 else BitVec.ofNat 32 (a.toNat / 2 ^ b.toNat)
   BinH .shrH g ∧ BinW .shrW g ∧ BinWi .zero .shrWi g ∧ BinL .zero .shrL fun _ => g) ∧
  (let g := fun a b : Word =>
     if 32 ≤ b.toNat then (if a.getLsbD 31 then 0xFFFFFFFF else 0) else BitVec.ofInt 32 (a.toInt / 2 ^ b.toNat)
   BinH .sarH g ∧ BinW .sarW g ∧ BinWi .zero .sarWi g ∧ BinL .zero .sarL fun _ => g) ∧
  (let g := fun a b : Word => (a <<< (b.toNat % 32)) ||| (a >>> (32 - b.toNat % 32))
   BinW .rotW g ∧ BinWi .zero .rotWi g ∧ BinL .zero .rotL fun _ => g) ∧
  (∀ c : LF → Instr, c ∈ [Instr.addL, .subL, .mulL, .addSatL, .subSatL, .mulhiL, .minL, .maxL, .andL, .orL, .xorL, .andnL, .shlL, .shrL, .sarL, .rotL] →
    ∀ f, f.c ≠ 63 ∨ f.mod.getLsbD 1 = true ∨ f.mod.getLsbD 2 = true → (c f).staticCheck = some .reserved) ∧
  (∀ p ∈ [((Instr.addW : WF → Instr), (0x002 : BitVec 10)), (.subW, 0x003), (.addSatW, 0x004), (.subSatW, 0x005), (.mulW, 0x006), (.mulhiW, 0x007), (.minW, 0x00B), (.maxW, 0x00C), (.andW, 0x010), (.orW, 0x011), (.xorW, 0x012), (.andnW, 0x013), (.shlW, 0x015), (.shrW, 0x016), (.sarW, 0x017), (.rotW, 0x018)],
    ∀ f, (p.1 f).enc = some (.w p.2 f)) ∧
  (∀ p ∈ [((Instr.addL : LF → Instr), (0x002 : BitVec 10)), (.subL, 0x003), (.addSatL, 0x004), (.subSatL, 0x005), (.mulL, 0x006), (.mulhiL, 0x007), (.minL, 0x00B), (.maxL, 0x00C), (.andL, 0x010), (.orL, 0x011), (.xorL, 0x012), (.andnL, 0x013), (.shlL, 0x015), (.shrL, 0x016), (.sarL, 0x017), (.rotL, 0x018)],
    ∀ f, (p.1 f).enc = some (.l p.2 f)) ∧
  (∀ p ∈ [((Instr.addWi : WIF → Instr), (0x042 : BitVec 10)), (.mulWi, 0x046), (.minWi, 0x04B), (.maxWi, 0x04C), (.andWi, 0x050), (.orWi, 0x051), (.xorWi, 0x052), (.shlWi, 0x055), (.shrWi, 0x056), (.sarWi, 0x057), (.rotWi, 0x058)],
    ∀ f, (p.1 f).enc = some (.wi p.2 f))

/-- R73: the integer compares write one bit of `pw` and give `b0` the whole of it; in L the test combines with the old bit. A bit number above 31 and
NW = 1 are reserved. Each has the
opcode of its rule. -/
def Obligations.IntegerCompareResults : Prop :=
  (CmpW .cmpEqW (fun a b => a == b) ∧ CmpWi .cmpEqWi (fun a b => a == b) ∧ CmpL .cmpEqL fun _ a b => a == b) ∧
  (CmpW .cmpNeW (fun a b => a != b) ∧ CmpWi .cmpNeWi (fun a b => a != b) ∧ CmpL .cmpNeL fun _ a b => a != b) ∧
  (CmpW .cmpLtW BitVec.slt ∧ CmpWi .cmpLtWi BitVec.slt ∧ CmpL .cmpLtL fun n a b => if n then a.ult b else a.slt b) ∧
  (CmpW .cmpLeW BitVec.sle ∧ CmpWi .cmpLeWi BitVec.sle ∧ CmpL .cmpLeL fun n a b => if n then a.ule b else a.sle b) ∧
  (CmpW .cmpGtW (fun a b => b.slt a) ∧ CmpWi .cmpGtWi (fun a b => b.slt a) ∧ CmpL .cmpGtL fun n a b => if n then b.ult a else b.slt a) ∧
  (CmpW .cmpGeW (fun a b => b.sle a) ∧ CmpWi .cmpGeWi (fun a b => b.sle a) ∧ CmpL .cmpGeL fun n a b => if n then b.ule a else b.sle a) ∧
  (∀ c : WF → Instr, c ∈ [Instr.cmpEqW, .cmpNeW, .cmpLtW, .cmpLeW, .cmpGtW, .cmpGeW] → ∀ f, 32 ≤ f.d.toNat ∨ f.nw = 1 → (c f).staticCheck = some .reserved) ∧
  (∀ c : WIF → Instr, c ∈ [Instr.cmpEqWi, .cmpNeWi, .cmpLtWi, .cmpLeWi, .cmpGtWi, .cmpGeWi] → ∀ f, 32 ≤ f.d.toNat → (c f).staticCheck = some .reserved) ∧
  (∀ c : LF → Instr, c ∈ [Instr.cmpEqL, .cmpNeL, .cmpLtL, .cmpLeL, .cmpGtL, .cmpGeL] → ∀ f, 32 ≤ f.d.toNat ∨ f.nw = 1 → (c f).staticCheck = some .reserved) ∧
  (∀ f : WF, f.d = 0 → f.nw = 0 → Completes (.movW f) fun _ l => word (some 0) (l.src f.a.toNat)) ∧
  (∀ p ∈ [((Instr.cmpEqW : WF → Instr), (0x020 : BitVec 10)), (.cmpNeW, 0x021), (.cmpLtW, 0x022), (.cmpLeW, 0x023), (.cmpGtW, 0x024), (.cmpGeW, 0x025)],
    ∀ f, (p.1 f).enc = some (.w p.2 f)) ∧
  (∀ p ∈ [((Instr.cmpEqL : LF → Instr), (0x020 : BitVec 10)), (.cmpNeL, 0x021), (.cmpLtL, 0x022), (.cmpLeL, 0x023), (.cmpGtL, 0x024), (.cmpGeL, 0x025)],
    ∀ f, (p.1 f).enc = some (.l p.2 f)) ∧
  (∀ p ∈ [((Instr.cmpEqWi : WIF → Instr), (0x060 : BitVec 10)), (.cmpNeWi, 0x061), (.cmpLtWi, 0x062), (.cmpLeWi, 0x063), (.cmpGtWi, 0x064), (.cmpGeWi, 0x065)],
    ∀ f, (p.1 f).enc = some (.wi p.2 f)) ∧
  decode (natBytes 4 0x0A103189) = .ok (.cmpLtWi ⟨10, 4, 3⟩) 4

/-- R68, R69, R72: the one-source operations, `li`, `bsel` and `sel`; the values their unused fields must hold. `li` has no guard: every lane of the
cohort is in `exec`. Each has the
opcode of its rule. -/
def Obligations.OneSourceAndSelectResults : Prop :=
  (∀ f, Completes (.movH f) fun _ l => word (hDest f) (l.src f.s.toNat)) ∧
  (UnW .movW id ∧ UnL .movL id) ∧
  (let g := fun a : Word => BitVec.ofNat 32 a.toInt.natAbs
   UnW .absW g ∧ UnL .absL g) ∧
  (let g := fun a : Word => BitVec.ofInt 32 (-(a.toNat : Int))
   UnW .negW g ∧ UnL .negL g) ∧
  (UnW .notW (~~~ ·) ∧ UnL .notL (~~~ ·)) ∧
  (let g := fun a : Word => BitVec.ofNat 32 (((List.range 32).filter fun i => a.getLsbD i).length)
   UnW .popcW g ∧ UnL .popcL g) ∧
  (let g := fun a : Word => BitVec.ofNat 32 (((List.range 32).filter fun i => a.toNat < 2 ^ i).length)
   UnW .clzW g ∧ UnL .clzL g) ∧
  (let g := fun a : Word => BitVec.ofNat 32 (((List.range 32).filter fun i => a.toNat % 2 ^ (i + 1) = 0).length)
   UnW .ctzW g ∧ UnL .ctzL g) ∧
  (UnW .brevW BitVec.reverse ∧ UnL .brevL BitVec.reverse) ∧
  (∀ f, Completes (.li f) fun _ _ => word (liDest f) f.imm32) ∧
  (∀ f, Completes (.bsel f) fun _ l =>
    word (lDest f) ((l.src f.a.toNat &&& lSrcB .sign f l) ||| (~~~(l.src f.a.toNat) &&& l.src f.c.toNat))) ∧
  (∀ f, Completes (.sel f) fun _ l =>
    word (lDest f) (if l.pw.getLsbD (f.imm16.toNat % 32) then l.src f.a.toNat else l.src f.b.toNat)) ∧
  (∀ c : WF → Instr, c ∈ [Instr.movW, .absW, .negW, .notW, .popcW, .clzW, .ctzW, .brevW] → ∀ f, f.b ≠ 63 → (c f).staticCheck = some .reserved) ∧
  (∀ c : LF → Instr, c ∈ [Instr.movL, .absL, .negL, .notL, .popcL, .clzL, .ctzL, .brevL] →
    ∀ f, f.b ≠ 63 ∨ f.mod.getLsbD 3 = true → (c f).staticCheck = some .reserved) ∧
  (∀ f, f.a ≠ 63 ∨ f.mod ≠ 0 → (Instr.li f).staticCheck = some .reserved) ∧
  (∀ f e l, (Instr.li f).enc = some e → laneGuard e l = true) ∧
  (∀ f : LF, 32 ≤ f.imm16.toNat ∨ f.c ≠ 63 ∨ f.mod.getLsbD 3 = true → (Instr.sel f).staticCheck = some .reserved) ∧
  (∀ p ∈ [((Instr.movW : WF → Instr), (0x000 : BitVec 10)), (.absW, 0x00D), (.negW, 0x00E), (.notW, 0x014), (.popcW, 0x01B), (.clzW, 0x01C), (.ctzW, 0x01D), (.brevW, 0x01E)],
    ∀ f, (p.1 f).enc = some (.w p.2 f)) ∧
  (∀ p ∈ [((Instr.movL : LF → Instr), (0x000 : BitVec 10)), (.absL, 0x00D), (.negL, 0x00E), (.notL, 0x014), (.popcL, 0x01B), (.clzL, 0x01C), (.ctzL, 0x01D), (.brevL, 0x01E), (.bsel, 0x01F), (.sel, 0x026)],
    ∀ f, (p.1 f).enc = some (.l p.2 f)) ∧
  (∀ f, (Instr.li f).enc = some (.li 0x001 f))

/-- R70, R71, R74: the wide multiplies, the bit fields and the 64-bit addresses, with their pairs and the values of IMM16 they are defined for. Each has the
opcode of its rule. -/
def Obligations.WideAndBitFieldResults : Prop :=
  (let odd (n : BitVec 6) : Prop := n.toNat % 2 = 1 ∧ n ≠ 63
   (∀ f, odd f.d → (Instr.mulwW f).staticCheck ≠ none ∧ (∀ g : LF, g.d = f.d → (Instr.mulwL g).staticCheck ≠ none)) ∧
   (∀ f, odd f.d ∨ odd f.c → (Instr.madw f).staticCheck ≠ none) ∧
   (∀ f, odd f.d ∨ odd f.a ∨ f.mod.getLsbD 3 = false ∧ odd f.b → (Instr.add64 f).staticCheck ≠ none) ∧
   (∀ f, odd f.d ∨ odd f.a → (Instr.lea64 f).staticCheck ≠ none) ∧
   (∀ f : LF, f.mod.getLsbD 3 = true → f.b ≠ 63 → (Instr.add64 f).staticCheck = some .reserved) ∧
   (∀ f : LF, f.c ≠ 63 → (Instr.add64 f).staticCheck = some .reserved ∧ (Instr.lea64 f).staticCheck = some .reserved) ∧
   (∀ f : LF, 16 ≤ f.imm16.toNat ∨ f.mod.getLsbD 3 = true → (Instr.lea64 f).staticCheck = some .reserved) ∧
   (∀ f : LF, let pos := f.imm16.toNat % 32
     let len := f.imm16.toNat / 32 % 64
     (len = 0 ∨ 32 < len ∨ 32 < pos + len ∨ 2048 ≤ f.imm16.toNat ∨ f.mod.getLsbD 3 = true ∨ f.c ≠ 63 →
       (Instr.bfx f).staticCheck = some .reserved ∧ (Instr.bfi f).staticCheck = some .reserved) ∧
     (f.b ≠ 63 → (Instr.bfx f).staticCheck = some .reserved))) ∧
  (∀ f, Completes (.mulwW f) fun _ l => dword (wDest f) (wrap64 ((l.src f.a.toNat).toInt * (l.src f.b.toNat).toInt))) ∧
  (∀ f, Completes (.mulwL f) fun _ l =>
    dword (lDest f) (wrap64 (intT (f.mod.getLsbD 0) (l.src f.a.toNat) * intT (f.mod.getLsbD 0) (lSrcB .sign f l)))) ∧
  (∀ f, Completes (.mad f) fun _ l => word (lDest f) (l.src f.a.toNat * lSrcB .sign f l + l.src f.c.toNat)) ∧
  (∀ f, Completes (.madw f) fun _ l =>
    dword (lDest f)
      (wrap64 (intT (f.mod.getLsbD 0) (l.src f.a.toNat) * intT (f.mod.getLsbD 0) (lSrcB .sign f l)) + l.src64 f.c.toNat)) ∧
  (∀ f, Completes (.bfx f) fun _ l =>
    let pos := f.imm16.toNat % 32
    let len := f.imm16.toNat / 32 % 64
    let x := (l.src f.a.toNat).toNat / 2 ^ pos % 2 ^ len
    word (lDest f) (if f.mod.getLsbD 0 ∨ x < 2 ^ (len - 1) then BitVec.ofNat 32 x else BitVec.ofInt 32 ((x : Int) - 2 ^ len))) ∧
  (∀ f, Completes (.bfi f) fun _ l =>
    let pos := f.imm16.toNat % 32
    let m : Word := BitVec.ofNat 32 ((2 ^ (f.imm16.toNat / 32 % 64) - 1) * 2 ^ pos)
    word (lDest f) ((l.src f.a.toNat &&& ~~~m) ||| ((l.src f.b.toNat <<< pos) &&& m))) ∧
  (∀ f, Completes (.add64 f) fun _ l =>
    dword (lDest f) (l.src64 f.a.toNat + (if f.mod.getLsbD 3 then f.imm16.signExtend 64 else l.src64 f.b.toNat))) ∧
  (∀ f, Completes (.lea64 f) fun _ l =>
    dword (lDest f)
      (l.src64 f.a.toNat + wrap64 (intT (f.mod.getLsbD 0) (l.src f.b.toNat) * 2 ^ (f.imm16.toNat % 16)))) ∧
  (∀ f, (Instr.mulwW f).enc = some (.w 0x008 f)) ∧
  (∀ p ∈ [((Instr.mulwL : LF → Instr), (0x008 : BitVec 10)), (.mad, 0x009), (.madw, 0x00A), (.bfx, 0x019), (.bfi, 0x01A), (.add64, 0x028), (.lea64, 0x029)],
    ∀ f, (p.1 f).enc = some (.l p.2 f))

/-- R111, R112, R114: the float operations of two and three sources: the exact value with one rounding, in `.f32` with `.rne` in H and W, in the
type and mode of MOD and IMM16 in L.
R113 to R117: the float operations of one source, and `ldexp`.
R118: the float compares. -/
def Obligations.FloatResults : Prop :=
  (
    (FBinH .addF32H fpAdd ∧ FBinW .addF32W fpAdd ∧ FBinL .addFloatL fpAdd) ∧
    (FBinH .subF32H fpSub ∧ FBinW .subF32W fpSub ∧ FBinL .subFloatL fpSub) ∧
    (FBinH .mulF32H fpMul ∧ FBinW .mulF32W fpMul ∧ FBinL .mulFloatL fpMul) ∧
    (FBinW .divW fpDiv ∧ FBinL .divL fpDiv) ∧
    (FBinH .minF32H (fun t _ => fpMinMax false t) ∧ FBinW .minF32W (fun t _ => fpMinMax false t) ∧
      FBinL .minFloatL fun t _ => fpMinMax false t) ∧
    (FBinH .maxF32H (fun t _ => fpMinMax true t) ∧ FBinW .maxF32W (fun t _ => fpMinMax true t) ∧
      FBinL .maxFloatL fun t _ => fpMinMax true t) ∧
    (FBinW .minpW (fun t _ => fpMinMaxp false t) ∧ FBinL .minpL fun t _ => fpMinMaxp false t) ∧
    (FBinW .maxpW (fun t _ => fpMinMaxp true t) ∧ FBinL .maxpL fun t _ => fpMinMaxp true t) ∧
    (∀ f, Completes (.fma f) fun _ l =>
      let t := fTyOf f.mod
      fOut t (lDest f) (fpFma t (modeOfField (f.imm16.toNat % 8)) (fSrc t l f.a) (fSrc t l f.b) (fSrc t l f.c)))) ∧
  (
    (∀ f, Completes (.negF32H f) fun _ l => word (hDest f) (BitVec.ofNat 32 (fpNeg .f32 (l.src f.s.toNat).toNat))) ∧
    (FUnW .absF32W (fun t _ => fpAbs t) ∧ FUnL .absFloatL fun t _ => fpAbs t) ∧
    (FUnW .negF32W (fun t _ => fpNeg t) ∧ FUnL .negFloatL fun t _ => fpNeg t) ∧
    (FUnW .rcpW fpRcp ∧ FUnL .rcpL fpRcp) ∧ (FUnW .sqrtW fpSqrt ∧ FUnL .sqrtL fpSqrt) ∧
    (FUnW .rsqW (fun t _ => fpRsq t) ∧ FUnL .rsqL fun t _ => fpRsq t) ∧
    (FUnW .exp2W (fun t _ => fpExp2 t) ∧ FUnL .exp2L fun t _ => fpExp2 t) ∧
    (FUnW .log2W (fun t _ => fpLog2 t) ∧ FUnL .log2L fun t _ => fpLog2 t) ∧
    (FUnW .sinpW (fun t _ => fpSinp t) ∧ FUnL .sinpL fun t _ => fpSinp t) ∧
    (FUnW .cospW (fun t _ => fpCosp t) ∧ FUnL .cospL fun t _ => fpCosp t) ∧
    (FUnW .frcW (fun t _ => fpFrc t) ∧ FUnL .frcL fun t _ => fpFrc t) ∧ (FUnW .rintW fpRint ∧ FUnL .rintL fpRint) ∧
    (FUnW .clsW (fun t _ => fpCls t) ∧
      ∀ f, Completes (.clsL f) fun _ l => word (lDest f) (BitVec.ofNat 32 (fpCls (fTyOf f.mod) (fSrc (fTyOf f.mod) l f.a)))) ∧
    (FBinW .ldexpW fpLdexp ∧
      ∀ f, Completes (.ldexpL f) fun _ l =>
        let t := fTyOf f.mod
        fOut t (lDest f) (fpLdexp t (modeOfField (f.imm16.toNat % 8)) (fSrc t l f.a) (l.src f.b.toNat).toNat))) ∧
  (
    (FCmpW .cmpEqF32W .eq ∧ FCmpL .cmpEqFloatL .eq) ∧ (FCmpW .cmpNeF32W .ne ∧ FCmpL .cmpNeFloatL .ne) ∧
    (FCmpW .cmpLtF32W .lt ∧ FCmpL .cmpLtFloatL .lt) ∧ (FCmpW .cmpLeF32W .le ∧ FCmpL .cmpLeFloatL .le) ∧
    (FCmpW .cmpGtF32W .gt ∧ FCmpL .cmpGtFloatL .gt) ∧ (FCmpW .cmpGeF32W .ge ∧ FCmpL .cmpGeFloatL .ge))



/-- R125 to R128: dot products, complex products, the butterfly and the twiddle factor.
What the spec leaves open here is the model's choice: log 125. -/
def Obligations.ComplexAndFftResults : Prop :=
  (∀ f, Completes (.dot2 f) fun _ l =>
    word (lDest f) (BitVec.ofNat 32 (fpDot2 (fTyOf f.mod) (modeOfField (f.imm16.toNat % 8)) (l.src f.a.toNat).toNat
      (l.src f.b.toNat).toNat (if f.c = 63 then none else some (l.src f.c.toNat).toNat)))) ∧
  (∀ f, Completes (.cmul f) fun _ l =>
    let t := fTyOf f.mod
    cOut t (lDest f) (fpCmul t (modeOfField (f.imm16.toNat % 8)) (f.imm16.getLsbD 3) (cSrc t l f.a) (cSrc t l f.b) (cSrc t l f.c))) ∧
  (∀ f, Completes (.bfly f) fun _ l =>
    let t := fTyOf f.mod
    let r := fpBfly t (f.imm16.getLsbD 0) (f.imm16.getLsbD 1) (cSrc t l f.a) (cSrc t l f.b) (cSrc t l f.c)
    quadOut t (lDest f) r.1 r.2) ∧
  (∀ f, Completes (.twid f) fun _ l =>
    cOut (fTyOf f.mod) (lDest f) (fpTwid (fTyOf f.mod) f.imm16.toNat (l.src f.a.toNat).toNat))

/-- R120 to R123: conversions, packing and unpacking, and the block conversions over the lanes of `exec`. -/
def Obligations.ConversionResults : Prop :=
  (∀ f, Completes (.cvt f) fun _ l =>
    let s := f.mod.toNat
    let t := f.imm16.toNat % 16
    let a := if s = 3 ∨ (s = 0 ∧ packedCode t = true) then (l.src64 f.a.toNat).toNat else (l.src f.a.toNat).toNat
    let r := fpCvt s t (modeOfField (f.imm16.toNat / 16 % 8)) (f.imm16.getLsbD 7) (l.src f.b.toNat).toNat l.lane a
    if t = 3 ∨ (packedCode s = true ∧ t = 0) then dword (lDest f) (BitVec.ofNat 64 r) else word (lDest f) (BitVec.ofNat 32 r)) ∧
  (∀ f, Completes (.pkW f) fun _ l =>
    word (wDest f) ((l.src f.b.toNat).setWidth 16 ++ (l.src f.a.toNat).setWidth 16)) ∧
  (∀ f, Completes (.pkL f) fun _ l =>
    word (lDest f) (if f.mod.getLsbD 0 then (l.src f.b.toNat >>> 16).setWidth 16 ++ (l.src f.a.toNat >>> 16).setWidth 16
      else (l.src f.b.toNat).setWidth 16 ++ (l.src f.a.toNat).setWidth 16)) ∧
  (∀ f, Completes (.upkW f) fun _ l => dword (wDest f) ((l.src f.a.toNat >>> 16) ++ (l.src f.a.toNat &&& (0xFFFF : Word)))) ∧
  (∀ f, Completes (.upkL f) fun _ l =>
    dword (lDest f) (if f.mod.getLsbD 0 then (l.src f.a.toNat &&& (0xFFFF0000 : Word)) ++ (l.src f.a.toNat <<< 16)
      else (l.src f.a.toNat >>> 16) ++ (l.src f.a.toNat &&& (0xFFFF : Word)))) ∧
  (∀ f, Completes (.qblk f) fun exec l =>
    let ty := f.imm16.toNat / 16 % 4
    let rs := qblkLanes (f.imm16.toNat % 16) (modeOfField (f.imm16.toNat / 64 % 8)) (f.imm16.getLsbD 9)
      (fun k => ((exec.find? (·.lane == k)).map fun g => (g.src f.b.toNat).toNat).getD 0)
      (exec.map fun g => (g.lane, (codeFmt ty).dec ((g.src f.a.toNat).toNat % 2 ^ (codeFmt ty).width)))
    dword (lDest f) (match rs.find? (·.1 == l.lane) with
      | some r => BitVec.ofNat 32 r.2.2 ++ BitVec.ofNat 32 r.2.1
      | none => 0)) ∧
  (∀ f, Completes (.dqblk f) fun exec l =>
    let F := f.imm16.toNat % 16
    let w := elemWidth F
    let at_ (k : Nat) : Option Fibre := exec.find? (·.lane == k)
    let o : Nat × Option Nat :=
      if f.imm16.getLsbD 9 then
        (packedElem w l.lane ((List.range w).foldl
          (fun x k => x + (((at_ k).map fun g => (g.src f.a.toNat).toNat).getD 0) * 2 ^ (32 * k)) 0),
         (at_ 0).map fun g => (g.src f.b.toNat).toNat)
      else ((l.src f.a.toNat).toNat % 2 ^ w, some (l.src f.b.toNat).toNat)
    word (lDest f) (BitVec.ofNat 32 (dqblkElem F (decide (f.imm16.toNat / 16 % 4 = 0)) o.1 o.2)))

/-- R147 to R149: shuffles, votes and reductions take their values from the lanes of `exec`. Lane j of a shuffle is the one of R147's table; a vote's
fields have the ranges of R148. Each has the
opcode of its rule. -/
def Obligations.CrossLaneResults : Prop :=
  (∀ l b, l < 32 → shufLane .idx l b = some (b % 32) ∧ shufLane .xor l b = some (l ^^^ (b % 32)) ∧
    shufLane .up l b = (if (l : Int) - b < 0 ∨ 31 < (l : Int) - b then none else some (l - b)) ∧
    shufLane .dn l b = (if 31 < l + b then none else some (l + b))) ∧
  (∀ c : LF → Instr, c ∈ [Instr.shufIdxL, .shufUpL, .shufDnL, .shufXorL] → ∀ f : LF, f.mod.getLsbD 3 = true → f.b ≠ 63 ∨ 32 ≤ f.imm16.toNat →
    (c f).staticCheck = some .reserved) ∧
  (∀ f : WF, f.b ≠ 63 ∨ 32 ≤ f.a.toNat ∧ f.a ≠ 63 → (Instr.voteAnyW f).staticCheck = some .reserved ∧ (Instr.voteAllW f).staticCheck = some .reserved ∧
    (Instr.voteBalW f).staticCheck = some .reserved) ∧
  (∀ f : WF, f.nw = 1 ∨ 32 ≤ f.d.toNat → (Instr.voteAnyW f).staticCheck = some .reserved ∧ (Instr.voteAllW f).staticCheck = some .reserved) ∧
  (∀ f : LF, f.b ≠ 63 ∨ 32 ≤ f.a.toNat ∧ f.a ≠ 63 → (Instr.voteAnyL f).staticCheck = some .reserved ∧ (Instr.voteAllL f).staticCheck = some .reserved ∧
    (Instr.voteBalL f).staticCheck = some .reserved) ∧
  (∀ f : LF, f.nw = 1 ∨ 32 ≤ f.d.toNat → (Instr.voteAnyL f).staticCheck = some .reserved ∧ (Instr.voteAllL f).staticCheck = some .reserved) ∧
  (ShufW .shufIdxW .idx ∧ ShufL .shufIdxL .idx) ∧ (ShufW .shufUpW .up ∧ ShufL .shufUpL .up) ∧
  (ShufW .shufDnW .dn ∧ ShufL .shufDnL .dn) ∧ (ShufW .shufXorW .xor ∧ ShufL .shufXorL .xor) ∧
  ((∀ f, Completes (.voteAnyW f) fun exec l => predicate (setBit l.pw f.d.toNat (exec.any (voteOf f.a)))) ∧
   ∀ f, Completes (.voteAnyL f) fun exec l => predicate (setBit l.pw f.d.toNat (exec.any (voteOf f.a)))) ∧
  ((∀ f, Completes (.voteAllW f) fun exec l => predicate (setBit l.pw f.d.toNat (exec.all (voteOf f.a)))) ∧
   ∀ f, Completes (.voteAllL f) fun exec l => predicate (setBit l.pw f.d.toNat (exec.all (voteOf f.a)))) ∧
  (let g := fun (a : BitVec 6) (exec : List Fibre) => (exec.filter (voteOf a)).foldl (fun m x => m ||| BitVec.ofNat 32 (2 ^ x.lane)) (0 : Word)
   (∀ f, Completes (.voteBalW f) fun exec _ => word (wDest f) (g f.a exec)) ∧
   ∀ f, Completes (.voteBalL f) fun exec _ => word (lDest f) (g f.a exec)) ∧
  (let g := fun k (a : BitVec 6) (ty : Nat) (exec : List Fibre) => redValue k ty (exec.map fun x => x.src a.toNat)
   ((∀ f, Completes (.redcAddW f) fun exec _ => word (wDest f) (g .add f.a 0 exec)) ∧
    ∀ f, Completes (.redcAddL f) fun exec _ => word (lDest f) (g .add f.a (f.mod.toNat % 4) exec)) ∧
   ((∀ f, Completes (.redcMinW f) fun exec _ => word (wDest f) (g .min f.a 0 exec)) ∧
    ∀ f, Completes (.redcMinL f) fun exec _ => word (lDest f) (g .min f.a (f.mod.toNat % 4) exec)) ∧
   ((∀ f, Completes (.redcMaxW f) fun exec _ => word (wDest f) (g .max f.a 0 exec)) ∧
    ∀ f, Completes (.redcMaxL f) fun exec _ => word (lDest f) (g .max f.a (f.mod.toNat % 4) exec))) ∧
  (∀ p ∈ [((Instr.shufIdxW : WF → Instr), (0x140 : BitVec 10)), (.shufUpW, 0x141), (.shufDnW, 0x142), (.shufXorW, 0x143), (.voteAnyW, 0x148), (.voteAllW, 0x149), (.voteBalW, 0x14A)],
    ∀ f, (p.1 f).enc = some (.w p.2 f)) ∧
  (∀ p ∈ [((Instr.shufIdxL : LF → Instr), (0x140 : BitVec 10)), (.shufUpL, 0x141), (.shufDnL, 0x142), (.shufXorL, 0x143), (.voteAnyL, 0x148), (.voteAllL, 0x149), (.voteBalL, 0x14A)],
    ∀ f, (p.1 f).enc = some (.l p.2 f)) ∧
  decode (natBytes 4 0x0910550D) = .ok (.shufXorW ⟨0, 0, 9, 4, 5⟩) 4 ∧ decode (natBytes 8 0x0001800F_FF10550F) = .ok (.shufXorL ⟨1, 8, 0, 0, 0, 0, 63, 63, 4, 5⟩) 8

/-- R75 to R77, R46: `br`, `call`, `brx` and `ret` send every lane of `exec` to their target, `bc.t` and `bc.f` the lanes whose bit of `pw` is 1 or
0, the others behind the branch; `call` writes `next_pc` to the pair D.
R75: a lane whose target has bit 0 or one of bits 63 to 57 set parks with BAD_TARGET at the branch, and a resume takes the branch again. -/
def Obligations.BranchResults : Prop :=
  (
    (∀ f, BranchesTo (.br f) (fun _ => true) (fun l => l.pc + 2 * f.imm32.signExtend 64) id) ∧
    (∀ f, BranchesTo (.bcT f) (fun l => l.pw.getLsbD f.d.toNat) (fun l => l.pc + 2 * f.imm32.signExtend 64) id) ∧
    (∀ f, BranchesTo (.bcF f) (fun l => !l.pw.getLsbD f.d.toNat) (fun l => l.pc + 2 * f.imm32.signExtend 64) id) ∧
    (∀ f, BranchesTo (.brx f) (fun _ => true) (fun l => l.src64 f.a.toNat) id) ∧
    (∀ f, BranchesTo (.ret f) (fun _ => true) (fun l => l.src64 f.a.toNat) id) ∧
    (∀ f, BranchesTo (.call f) (fun _ => true) (fun l => l.pc + 2 * f.imm32.signExtend 64)
      fun l => l.setRegs (dword (liDest f) (l.pc + 8)).writes) ∧
    (∀ f e u s, CanIssue (.bcT f) e u s → OnePc e s → (∀ l ∈ sources e s, l.pw.getLsbD f.d.toNat = false) →
      ∃ t, exec (.bcT f) s = .next t ∧ OnlyFibresNames s t ∧
        t.fibres = s.fibres.map fun l => if (execIds e s).contains l.id then laneBehind 8 ⟨[], .void⟩ l else l) ∧
    (∀ f e u s, CanIssue (.bcF f) e u s → OnePc e s → (∀ l ∈ sources e s, l.pw.getLsbD f.d.toNat = true) →
      ∃ t, exec (.bcF f) s = .next t ∧ OnlyFibresNames s t ∧
        t.fibres = s.fibres.map fun l => if (execIds e s).contains l.id then laneBehind 8 ⟨[], .void⟩ l else l)) ∧
  (
    let bad (x : DWord) : Prop := x.toNat % 2 = 1 ∨ 2 ^ 57 ≤ x.toNat
    let parks (i : Instr) (target : Fibre → DWord) : Prop := ∀ e u s l, SoleLane i e u s l → bad (target l) →
      ∃ t, exec i s = .next t ∧ FibreIs t l.id fun g => ∃ p, g.status = .parked p ∧ p.frec.code = 0x21 ∧ p.frec.pc = l.pc ∧ p.resume = l.pc ∧
        g.pc = l.pc
    (∀ f, parks (.br f) fun l => l.pc + 2 * f.imm32.signExtend 64) ∧ (∀ f, parks (.call f) fun l => l.pc + 2 * f.imm32.signExtend 64) ∧
    (∀ f, parks (.brx f) fun l => l.src64 f.a.toNat) ∧ (∀ f, parks (.ret f) fun l => l.src64 f.a.toNat) ∧
    (∀ f, parks (.fork f) fun l => l.pc + 2 * f.imm16.signExtend 64))


/-- R78, R46: where the lanes of a cohort stand at several program counters, each gives one cohort, and its lanes have void latches; lanes at one program
counter stay as they are. -/
def Obligations.SplitByProgramCounter : Prop :=
  ∀ (s : State) (ids : List Nat) (c : Nat),
    NamesOk s → (∀ f ∈ s.fibres, f.id ∈ ids → f.cohort = c) →
    (∀ f ∈ (regroup s ids).fibres, ∀ g ∈ (regroup s ids).fibres, f.id ∈ ids → g.id ∈ ids → (f.pc = g.pc ↔ f.cohort = g.cohort)) ∧
    (∀ f ∈ s.fibres, f.id ∉ ids → f ∈ (regroup s ids).fibres) ∧
    ((∃ f ∈ s.fibres, ∃ g ∈ s.fibres, f.id ∈ ids ∧ g.id ∈ ids ∧ f.pc ≠ g.pc) →
      ∀ f ∈ (regroup s ids).fibres, f.id ∈ ids → VoidLatches f) ∧
    ((∀ f ∈ s.fibres, ∀ g ∈ s.fibres, f.id ∈ ids → g.id ∈ ids → f.pc = g.pc) → regroup s ids = s) ∧
    (regroup s ids).mem = s.mem

/-- R82, R211: `fork` in one lane. With a window free, a fibre begins in the same crew, lane and partition with the same window size and map, at the
target, every register zero but v1, void latches; the parent receives its index; duplicates of the lane's registers may go (R224). Without one, no fibre
is created and D receives 0xFFFF_FFFF.
What the spec leaves open here is the model's choice: log 144. -/
def Obligations.ForkResults : Prop :=
  ∀ (f : LF) (e : Enc) (u : Usage) (s : State) (l : Fibre) (c : Crew), NamesOk s → SoleLane (.fork f) e u s l → s.fibreCrew l = some c →
    let target := l.pc + 2 * f.imm16.signExtend 64
    target.toNat % 2 = 0 → target.toNat < 2 ^ 57 →
    (∀ wb, freeBase (windowsIn s c.core l.part l.lane) l.ws = some wb → freeIndex s c < 65536 →
      ∃ t g, exec (.fork f) s = .next t ∧ g ∈ t.fibres ∧ g.id = s.nextId ∧ g.crew = c.id ∧ g.lane = l.lane ∧ g.part = l.part ∧
        g.ws = l.ws ∧ g.wb = wb ∧ g.map = l.map ∧ g.pc = target ∧ g.regs = (List.replicate l.ws 0).set 1 (l.src f.a.toNat) ∧ VoidLatches g ∧
        g.status = .ready ∧ g.copies = [] ∧ g.idx = freeIndex s c ∧
        (let b := laneBehind 8 (word (lDest f) (BitVec.ofNat 32 (freeIndex s c))) l
         FibreIs t l.id fun p => { p with dup := b.dup } = b) ∧ t.mem = s.mem ∧
        ∀ h ∈ s.fibres, (execIds e s).contains h.id = false → (offIds e s).contains h.id = false → FibreIs t h.id fun p =>
          { p with dup := h.dup } = h ∧ (p.dup = h.dup ∨ p.dup = [] ∧ h.lane = l.lane ∧ h.part = l.part)) ∧
    (freeBase (windowsIn s c.core l.part l.lane) l.ws = none →
      ∃ t, exec (.fork f) s = .next t ∧ t.fibres.length = s.fibres.length ∧
        laneBehind 8 (word (lDest f) 0xFFFFFFFF) l ∈ t.fibres ∧ t.mem = s.mem ∧ OthersSame e s t)

/-- R81, R83, R84, R45: `join` holds the cohort with void latches where it stands; `yield` lets it go on behind every other
that is ready in its partition, each of which may issue before it does; `nop` only shifts the
latches; `halt` ends the fibre and leaves memory as it was.
R81: the release of a join group. While a lane of it runs, nothing is released; when none runs, every lane held at a join goes on behind it with
void latches, and lanes held at one program counter become one cohort and one join group of their own, but for two fibres of one lane, which never share a
cohort (R79). -/
def Obligations.JoinYieldNopHaltResults : Prop :=
  (
    (∀ e u s, CanIssue .join e u s → ∃ t, exec .join s = .next t ∧ OnlyFibres s t ∧
      t.fibres = s.fibres.map fun f =>
        if (execIds e s ++ offIds e s).contains f.id then { f.voidLatches with status := .heldJoin } else f) ∧
    (∀ f e u s, CanIssue (.yield f) e u s → ∃ t, exec (.yield f) s = .next t ∧ OnlyFibres s { t with turns := s.turns } ∧
      (∀ c, s.cur = some c → ∀ n ∈ readyCohorts t c.core c.part, n ≠ c.num → yieldsTo t (readyCohorts t c.core c.part) c.num = true) ∧
      t.fibres = (s.fibres.filter fun g => !(execIds e s ++ offIds e s).contains g.id) ++
        (s.fibres.filter fun g => (execIds e s ++ offIds e s).contains g.id).map fun g =>
          { g.voidLatches with pc := g.pc + BitVec.ofNat 64 e.len }) ∧
    (Completes .nop fun _ _ => ⟨[], .void⟩) ∧ (Completes .nopG fun _ _ => ⟨[], .void⟩) ∧
    (∀ f e u s l, SoleLane (.halt f) e u s l → l.handlerFor = none → ∃ t, exec (.halt f) s = .next t ∧
      (∀ g ∈ t.fibres, g.id = l.id → g.status = .halted) ∧ t.mem = s.mem) ∧
    (∀ f e u s l x, SoleLane (.halt f) e u s l → l.handlerFor = some x →
      let v := cleanIssue e u s
      let p := passSwitch v (issueCounts e u s)
      exec (.halt f) s = .next (endFibre (checkHalt (verdict p l x) l) l.id))) ∧
  (
    ∀ (s : State) (crew part g : Nat),
      let t := joinRelease s crew part g
      ((∃ f ∈ s.fibres, f.crew = crew ∧ f.part = part ∧ f.jgrp = g ∧ f.status.isRunning = true) → t = s) ∧
      ((∀ f ∈ s.fibres, f.crew = crew → f.part = part → f.jgrp = g → f.status.isRunning = false) → NamesOk s →
        ∀ f ∈ s.fibres, f.crew = crew → f.part = part → f.jgrp = g → f.status = .heldJoin →
          FibreIs t f.id fun h => h.status = .ready ∧ h.pc = f.pc + 4 ∧ VoidLatches h ∧ s.nextId ≤ h.cohort ∧ s.nextId ≤ h.jgrp ∧ h.regs = f.regs) ∧
      ((∀ f ∈ s.fibres, f.crew = crew → f.part = part → f.jgrp = g → f.status.isRunning = false) → NamesOk s →
        ∀ f ∈ s.fibres, ∀ k ∈ s.fibres, heldIn crew part g f = true → heldIn crew part g k = true → f.pc = k.pc → f.id ≠ k.id →
          ∃ x y, t.fibre? f.id = some x ∧ t.fibre? k.id = some y ∧ x.jgrp = y.jgrp ∧ (f.lane = k.lane → x.cohort ≠ y.cohort) ∧
            ((∀ a ∈ s.fibres, ∀ b ∈ s.fibres, heldIn crew part g a = true → heldIn crew part g b = true → a.lane = b.lane → a.id = b.id) →
              x.cohort = y.cohort)))


/-- R86, R364: `trap` parks its lanes with 0x0100 + n and `brk` without a debugger with BREAK: the record holds the address and n, a resume continues
behind the instruction. Under a debugger `brk` holds the lanes at `next_pc` and tells it n and the address. -/
def Obligations.TrapAndBreakResults : Prop :=
  (∀ f e u s l, SoleLane (.trap f) e u s l → ∃ t, exec (.trap f) s = .next t ∧ t.mem = s.mem ∧
    FibreIs t l.id fun g => VoidLatches g ∧ g.pc = l.pc ∧ g.regs = l.regs ∧
      ∃ p, g.status = .parked p ∧ p.frec.code = 0x100 + f.imm8.toNat ∧ p.frec.pc = l.pc ∧ p.frec.arg = f.imm8.setWidth 64 ∧
        p.frec.lane = l.lane ∧ p.frec.op = s.fibreOp l ∧ p.resume = l.pc + 4) ∧
  (∀ f e u s l, SoleLane (.brk f) e u s l → debugged s l = false → ∃ t, exec (.brk f) s = .next t ∧ t.mem = s.mem ∧
    FibreIs t l.id fun g => VoidLatches g ∧ g.pc = l.pc ∧
      ∃ p, g.status = .parked p ∧ p.frec.code = 0x30 ∧ p.frec.pc = l.pc ∧ p.frec.arg = f.imm8.setWidth 64 ∧ p.resume = l.pc + 4) ∧
  (∀ f e u s l, SoleLane (.brk f) e u s l → debugged s l = true → ∃ t, exec (.brk f) s = .next t ∧ t.mem = s.mem ∧
    t.outbox = s.outbox ++ [Out.mgmt (natBytes 1 f.imm8.toNat ++ natBytes 8 l.pc.toNat)] ∧
    FibreIs t l.id fun g => g.status = .debugHeld ∧ g.pc = l.pc + 4 ∧ VoidLatches g)

/-- R131, R133, R135, R136, R50: `ld` at an address that passes its checks sends one read of its size to the home, its destination busy until the answer
lands, and goes on with void latches; nothing is stored. A plain load carries the order and scope of its fields; an `.nc` load carries none and no
line of L1 serves it here.
R136: `ld.rz` on a page that is not resident writes zero to D and sets bit C of `pw`, and goes on.
R145: `pf` never faults and writes neither a register nor memory: whatever its address, the cohort goes on.
What the spec leaves open here is the model's choice: log 12. -/
def Obligations.LoadResults : Prop :=
  (
    ∀ (z : LdSize) (f : LF) (e : Enc) (u : Usage) (s : State) (l : Fibre) (spa : Nat) (dev : Option Nat),
      SoleLane (.ld z f) e u s l → (checkAddr (issueCounts e u s) l (lAddr f l) (ldBytes z) .read).1 = .ok spa dev →
      (f.mod.getLsbD 2 = true → l1Hit (issueCounts e u s) l (lAddr f l) = none) →
      ∃ t a, exec (.ld z f) s = .next t ∧ a ∈ t.accesses ∧ a.agent = .fibre l.id ∧ a.va = lAddr f l ∧ a.spa = spa ∧ a.dev = dev ∧
        a.op = .read (ldBytes z) ∧ a.resp = .none ∧ a.nc = f.mod.getLsbD 2 ∧
        (f.mod.getLsbD 2 = false → a.order = lOrder f ∧ a.scope = lScope f) ∧
        a.dest = destOf e l (ldWords z) (ldSext z) (if f.mod.getLsbD 3 then some f.c.toNat else none) ∧
        FibreIs t l.id (fun g => Behind e l g ∧ g.regs = l.regs ∧ BusyWith g (lDest f) (ldWords z) a.ref) ∧ IssueFrame e s t ∧
        t.crews = s.crews) ∧
  (
    ∀ (z : LdSize) (f : LF) (e : Enc) (u : Usage) (s : State) (l : Fibre),
      SoleLane (.ld z f) e u s l → f.mod.getLsbD 3 = true →
      (checkAddr (issueCounts e u s) l (lAddr f l) (ldBytes z) .read).1 = .nonres →
      ∃ t, exec (.ld z f) s = .next t ∧ IssueFrame e s t ∧ t.accesses = s.accesses ∧
        FibreIs t l.id fun g => Behind e l g ∧
          g.regs = (let h := match lDest f with
            | some d => l.setRegs ((List.range (ldWords z)).map fun i => (d + i, 0))
            | none => l
           (h.setReg 0 (h.pw ||| BitVec.ofNat 32 (2 ^ f.c.toNat))).regs)) ∧
  (
    ∀ (f : LF) e u s l, SoleLane (.pf f) e u s l →
      ∃ t, exec (.pf f) s = .next t ∧ IssueFrame e s t ∧ t.crews = s.crews ∧ t.accesses = s.accesses ∧
        FibreIs t l.id fun g => Behind e l g ∧ g.regs = l.regs)


/-- R131, R133, R140, R141: `st` and `atom` at an address that passes its checks send one write, or one read-modify-write, to the home and go on with void
latches; memory changes only when the home performs it.
R141: what an atomic leaves in its word, at 32 bits: the sum wraps, `min` and `max` compare under the type, `cas` swaps on equality. -/
def Obligations.StoreAndAtomicResults : Prop :=
  (
    (∀ (z : StSize) (f : LF) (e : Enc) (u : Usage) (s : State) (l : Fibre) (spa : Nat) (dev : Option Nat),
      SoleLane (.st z f) e u s l → (checkAddr (fresh (issueCounts e u s)).2 l (lAddr f l) (stBytes z) .write).1 = .ok spa dev →
      ∃ t a, exec (.st z f) s = .next t ∧ a ∈ t.accesses ∧ a.agent = .fibre l.id ∧ a.va = lAddr f l ∧ a.spa = spa ∧ a.dev = dev ∧
        a.op = .write ((List.range (stBytes z)).zip (storeBytes e z l)) (f.mod.getLsbD 2) ∧ a.order = lOrder f ∧ a.scope = lScope f ∧
        a.dest = none ∧ a.resp = .none ∧ FibreIs t l.id (fun g => Behind e l g ∧ g.regs = l.regs) ∧ IssueFrame e s t) ∧
    (∀ (o : AtomOp) (f : LF) (e : Enc) (u : Usage) (s : State) (l : Fibre) (spa : Nat) (dev : Option Nat),
      let wide := atomIsWide o e
      SoleLane (.atom o f) e u s l → (checkAddr (issueCounts e u s) l (lAddr f l) (if wide then 8 else 4) .write).1 = .ok spa dev →
      ∃ t a, exec (.atom o f) s = .next t ∧ a ∈ t.accesses ∧ a.agent = .fibre l.id ∧ a.va = lAddr f l ∧ a.spa = spa ∧ a.dev = dev ∧
        a.op = .atom o (BitVec.ofNat 2 (f.mod.toNat / 4)) wide (atomArg wide l f.b.toNat) (atomArg wide l f.c.toNat) ∧
        a.order = lOrder f ∧ a.scope = lScope f ∧ a.resp = .none ∧
        FibreIs t l.id (fun g => Behind e l g ∧ g.regs = l.regs ∧ BusyWith g (lDest f) (if wide then 2 else 1) a.ref) ∧ IssueFrame e s t)) ∧
  (
    ∀ (old b c : Word) (w : Nat), w = 32 →
      atomNew .add 0 w old.toNat b.toNat c.toNat = (old + b).toNat ∧
      atomNew .min 0 w old.toNat b.toNat c.toNat = (if b.slt old then b else old).toNat ∧
      atomNew .min 1 w old.toNat b.toNat c.toNat = (if b.ult old then b else old).toNat ∧
      atomNew .max 0 w old.toNat b.toNat c.toNat = (if old.slt b then b else old).toNat ∧
      atomNew .max 1 w old.toNat b.toNat c.toNat = (if old.ult b then b else old).toNat ∧
      atomNew .and 0 w old.toNat b.toNat c.toNat = (old &&& b).toNat ∧
      atomNew .or 0 w old.toNat b.toNat c.toNat = (old ||| b).toNat ∧
      atomNew .xor 0 w old.toNat b.toNat c.toNat = (old ^^^ b).toNat ∧
      atomNew .xchg 0 w old.toNat b.toNat c.toNat = b.toNat ∧
      atomNew .cas 0 w old.toNat b.toNat c.toNat = (if old = b then c else old).toNat)

/-- R131, R132, R364: the checks of an address in their order, and the park of a lane that fails one: range, then alignment, then translation, each with its
code, the address in ARG, and the lane at the instruction. -/
def Obligations.MemoryFaultsPark : Prop :=
  (∀ (s : State) (l : Fibre) (va : DWord) (n : Nat) (need : Need), 2 ^ 57 ≤ va.toNat →
    (checkAddr s l va n need).1 = .bad ⟨0x41, l.pc, l.pc, va, 0, false⟩) ∧
  (∀ (s : State) (l : Fibre) (va : DWord) (n : Nat) (need : Need), va.toNat < 2 ^ 57 → n ≠ 0 → va.toNat % n ≠ 0 →
    (checkAddr s l va n need).1 = .bad ⟨0x40, l.pc, l.pc, va, 0, false⟩) ∧
  (∀ (s : State) (l : Fibre) (va : DWord) (n c st : Nat) (need : Need), va.toNat < 2 ^ 57 → n = 0 ∨ va.toNat % n = 0 →
    (translate (walkView s l.id) (coreCluster (s.fibreCore l)) (s.fibreVf l) (s.fibreAsid l) va.toNat need).1 = .fail c st →
    (checkAddr s l va n need).1 = .bad ⟨c, l.pc, l.pc, va, st, false⟩) ∧
  (∀ (z : LdSize) (f : LF) e u s l t, SoleLane (.ld z f) e u s l →
    (checkAddr (issueCounts e u s) l (lAddr f l) (ldBytes z) .read).1 = .bad t →
    ∃ s', exec (.ld z f) s = .next s' ∧ FibreIs s' l.id fun g => ∃ p, g.status = .parked p ∧ p.frec.code = t.code ∧ p.frec.arg = t.arg ∧
      g.pc = t.pc ∧ g.regs = l.regs) ∧
  (∀ (z : StSize) (f : LF) e u s l t, SoleLane (.st z f) e u s l →
    (checkAddr (fresh (issueCounts e u s)).2 l (lAddr f l) (stBytes z) .write).1 = .bad t →
    ∃ s', exec (.st z f) s = .next s' ∧ s'.accesses = s.accesses ∧ FibreIs s' l.id fun g => ∃ p, g.status = .parked p ∧
      p.frec.code = t.code ∧ p.frec.arg = t.arg ∧ g.pc = t.pc ∧ g.regs = l.regs) ∧
  (∀ (o : AtomOp) (f : LF) e u s l t, SoleLane (.atom o f) e u s l →
    (checkAddr (issueCounts e u s) l (lAddr f l) (if atomIsWide o e then 8 else 4) .write).1 = .bad t →
    ∃ s', exec (.atom o f) s = .next s' ∧ s'.accesses = s.accesses ∧ FibreIs s' l.id fun g => ∃ p, g.status = .parked p ∧
      p.frec.code = t.code ∧ p.frec.arg = t.arg ∧ g.pc = t.pc ∧ g.regs = l.regs)

/-- R142, R144: the scratchpad instructions at an offset that passes its checks. `lds` and `sldt` write to D the bytes the fibre sees, `sts` changes what
it sees at exactly its bytes, `atoms` replaces the word and writes the old one to D; memory is as before. They wait until what an acquire of their fibre
comes after has returned (R255): nothing happens before.
What the spec leaves open here is the model's choice: logs 13, 69. -/
def Obligations.ScratchpadResults : Prop :=
  (∀ (i : Instr) e u s l, (∃ z f, i = .lds z f) ∨ (∃ z f, i = .sts z f) ∨ (∃ f, i = .sldt f) ∨ (∃ o f, i = .atoms o f) →
    SoleLane i e u s l → acquired s l = false → exec i s = .next s) ∧
  (∀ (z : LdSize) (f : LF) e u s l, SoleLane (.lds z f) e u s l → acquired s l = true → scrCheck (issueCounts e u s) l (lScrAddr f l) (ldBytes z) true = none →
    NoPendingWrites s l (lScrAddr f l) (ldBytes z) →
    ∃ t, exec (.lds z f) s = .next t ∧ IssueFrame e s t ∧ t.crews = s.crews ∧ t.accesses = s.accesses ∧
      FibreIs t l.id fun g => Behind e l g ∧ g.scr = l.scr ∧
        g.regs = match lDest f with
          | some d => (l.setRegs (landWords ⟨l.id, d, ldWords z, ldSext z, none⟩ (scrRead (issueCounts e u s) l (lScrAddr f l) (ldBytes z)))).regs
          | none => l.regs) ∧
  (∀ (z : StSize) (f : LF) e u s l, SoleLane (.sts z f) e u s l → acquired s l = true → scrCheck (issueCounts e u s) l (lScrAddr f l) (stBytes z) false = none →
    ∃ t, exec (.sts z f) s = .next t ∧ IssueFrame e s t ∧ t.accesses = s.accesses ∧
      FibreIs t l.id fun g => Behind e l g ∧ g.regs = l.regs ∧
        (∀ i < stBytes z, some (scrGet t g (lScrAddr f l + i)) = (storeBytes e z l)[i]?) ∧
        (∀ o, o < lScrAddr f l ∨ lScrAddr f l + stBytes z ≤ o → scrGet t g o = scrGet s l o)) ∧
  (∀ (f : LF) e u s l, SoleLane (.sldt f) e u s l → acquired s l = true →
    let o := (l.src f.a.toNat).toNat
    let n := if f.mod.toNat % 2 = 0 then 2 else 4
    let ps := (List.range n).map (sldtOffset (f.imm16.toNat % 16) (f.imm16.toNat / 16 % 8) o)
    o % 2 = 0 → (∀ p ∈ ps, p + 2 ≤ scrBytes (issueCounts e u s) l ∧ scrEcc (issueCounts e u s) l p 2 = false ∧ NoPendingWrites s l p 2) →
    ∃ t, exec (.sldt f) s = .next t ∧ IssueFrame e s t ∧ t.crews = s.crews ∧
      FibreIs t l.id fun g => Behind e l g ∧
        g.regs = match lDest f with
          | some d => (l.setRegs (landWords ⟨l.id, d, n / 2, 0, none⟩ (ps.flatMap fun p => scrRead (issueCounts e u s) l p 2))).regs
          | none => l.regs) ∧
  (∀ (o : AtomOp) (f : LF) e u s l c, SoleLane (.atoms o f) e u s l → acquired s l = true → s.fibreCrew l = some c →
    let wide := atomIsWide o e
    let n := if wide then 8 else 4
    let a := lScrAddr f l
    scrCheck (issueCounts e u s) l a n true = none → NoPendingWrites s l a n → l.scr = [] →
    let old := scrRead (issueCounts e u s) l a n
    ∃ t new, exec (.atoms o f) s = .next t ∧ IssueFrame e s t ∧
      opNew (.atom o (BitVec.ofNat 2 (f.mod.toNat / 4)) wide (atomArg wide l f.b.toNat) (atomArg wide l f.c.toNat)) (bytesNat old) = some new ∧
      (∃ d, t.crew? c.id = some d ∧ d.scratch = memWrite c.scratch a (natBytes n new)) ∧
      FibreIs t l.id fun g => Behind e l g ∧
        g.regs = match lDest f with
          | some d => (l.setRegs (landWords ⟨l.id, d, if wide then 2 else 1, 0, none⟩ old)).regs
          | none => l.regs)



/-- R150 to R154: `cpa` counts a copy under its tag and sends its read, which will write the scratchpad when it lands, behind what the
fibre has written there before (R226), and without a valid byte reads and translates nothing; `cpq` writes a tag's counter to D;
`cpw` goes on at once where every counter is at most n, and holds the lane where it is not. -/
def Obligations.FibreCopyResults : Prop :=
  (∀ (f : LF) e u s l spa dev, SoleLane (.cpa f) e u s l →
    let s0 := issueCounts e u s
    let tag := f.imm16.toNat / 2 ^ 12 % 8
    let o := (l.src f.b.toNat).toNat
    let v := cpaValid e l
    l.tag tag < 63 → o % cpaSize e = 0 → o + cpaSize e ≤ scrBytes s0 l → 0 < v →
    (checkAddr s0 l (lAddr f l) (cpaSize e) .read).1 = .ok spa dev → spa / 2 ^ 49 < 5 →
    ∃ t a, exec (.cpa f) s = .next t ∧ a ∈ t.accesses ∧ a.cpa = true ∧ a.agent = .fibre l.id ∧ a.op = .read v ∧ a.va = lAddr f l ∧
      a.spa = spa ∧ a.dev = dev ∧ a.scrOff = o ∧ a.scrLen = cpaSize e ∧ a.resp = .none ∧ IssueFrame e s t ∧
      ((∀ p ∈ l.scr, p.1 < o ∨ o + cpaSize e ≤ p.1) → t.crews = s.crews) ∧
      FibreIs t l.id fun g => Behind e l g ∧ g.regs = l.regs ∧ g.tag tag = l.tag tag + 1 ∧
        (∀ p ∈ g.scr, p ∈ l.scr ∧ (p.1 < o ∨ o + cpaSize e ≤ p.1)) ∧ ∀ n, n ≠ tag → g.tag n = l.tag n) ∧
  (∀ (f : LF) e u s l, SoleLane (.cpa f) e u s l →
    let tag := f.imm16.toNat / 2 ^ 12 % 8
    let o := (l.src f.b.toNat).toNat
    l.tag tag < 63 → o % cpaSize e = 0 → o + cpaSize e ≤ scrBytes (issueCounts e u s) l → cpaValid e l = 0 →
    ∃ t a, exec (.cpa f) s = .next t ∧ a ∈ t.accesses ∧ a.scrOnly = true ∧ a.agent = .fibre l.id ∧ a.scrOff = o ∧ a.scrLen = cpaSize e ∧
      a.resp = .ok [] [] [] ∧ t.tlb = s.tlb ∧ IssueFrame e s t ∧ FibreIs t l.id fun g => Behind e l g ∧ g.regs = l.regs ∧ g.tag tag = l.tag tag + 1) ∧
  (∀ (f : LF) e u s l, SoleLane (.cpa f) e u s l → 63 ≤ l.tag (f.imm16.toNat / 2 ^ 12 % 8) → s.lanes = [l] → exec (.cpa f) s = .next s) ∧
  (∀ (f : WF) e u s l, SoleLane (.cpq f) e u s l → ∃ t, exec (.cpq f) s = .next t ∧ IssueFrame e s t ∧ t.crews = s.crews ∧
    FibreIs t l.id fun g => Behind e l g ∧ g.copies = l.copies ∧
      g.regs = (l.setRegs (word (wDest f) (BitVec.ofNat 32 (l.tag f.a.toNat))).writes).regs) ∧
  (∀ (f : WF) e u s l, SoleLane (.cpw f) e u s l → s.lanes = [l] → s.fibres.filter (·.cohort == l.cohort) = [l] →
    (l.tag f.d.toNat ≤ f.a.toNat → ∃ t, exec (.cpw f) s = .next t ∧ IssueFrame e s t ∧
      FibreIs t l.id fun g => Behind e l g ∧ g.regs = l.regs) ∧
    (f.a.toNat < l.tag f.d.toNat → ∃ t, exec (.cpw f) s = .next t ∧ IssueFrame e s t ∧
      FibreIs t l.id fun g => g.status = .waitTag f.d.toNat f.a.toNat true ∧ g.pc = l.pc ∧ g.regs = l.regs ∧ VoidLatches g))

/-- R157 to R160: `bcopy` with a valid descriptor and room in its channel puts the copy at the end of the channel of its cluster and goes on, its token
register busy; a bad descriptor parks with COPY_DESC.
What the spec leaves open here is the model's choice: logs 66, 74. -/
def Obligations.BulkCopyResults : Prop :=
  (∀ (f : LF) e u s l, SoleLane (.bcopy f) e u s l →
    let s0 := issueCounts e u s
    let o := (l.src f.a.toNat).toNat
    let d := copyDescOf (scrRecord s0 l o)
    let chan := 4 * coreCluster (s.fibreCore l) + d.chan
    bcopyCheck e s0 l = none → (s.channel chan).entries.length < 64 → l.scr = [] → s.cur.map (·.num) = some l.cohort →
    ∃ t x, exec (.bcopy f) s = .next t ∧ (t.channel chan).entries = (s.channel chan).entries ++ [x] ∧ x.kind = .copy d ∧ x.op = s.fibreOp l ∧
      x.crew = some l.crew ∧ MemSame s t ∧ OthersSame e s t ∧ t.crews = s.crews ∧
      FibreIs t l.id fun g => g.pc = nextPc e l ∧ VoidLatches g ∧ g.status = .ready ∧ g.regs = l.regs ∧
        ∀ r, lDest f = some r → ∃ ref, (r, ref) ∈ g.busy) ∧
  (∀ (f : LF) e u s l t, SoleLane (.bcopy f) e u s l → bcopyCheck e (issueCounts e u s) l = some t →
    ∃ s', exec (.bcopy f) s = .next s' ∧ s'.channels = s.channels ∧ MemSame s s' ∧
      FibreIs s' l.id fun g => ∃ p, g.status = .parked p ∧ p.frec.code = t.code ∧ g.pc = t.pc) ∧
  (∀ (f : LF) e u s l, SoleLane (.bcopy f) e u s l → bcopyCheck e (issueCounts e u s) l = none →
    64 ≤ (s.channel (4 * coreCluster (s.fibreCore l) + (copyDescOf (scrRecord (issueCounts e u s) l (l.src f.a.toNat).toNat)).chan)).entries.length →
    ∃ t, exec (.bcopy f) s = .next t ∧ t.channels = s.channels ∧ MemSame s t ∧ FibreIs t l.id fun g => g = l)

/-- R163, R164: `lease` on an aligned range answers the word the homes give: the identifier of a new lease of exactly its pages until the deadline, or a
refusal, and another range parks with MISALIGN; `unlease` ends the lease its word names, if the function holds it.
What the spec leaves open here is the model's choice: logs 65, 132. -/
def Obligations.LeaseResults : Prop :=
  (∀ (f : LF) e u s l, SoleLane (.lease f) e u s l →
    let va := l.src64 f.a.toNat
    va.toNat % 4096 = 0 →
    let r := grantLease (issueCounts e u s) (s.fibreVf l) (s.fibreAsid l) va (l.src f.b.toNat).toNat f.imm16.toNat
    ∃ t, exec (.lease f) s = .next t ∧ t.leases = r.2.leases ∧ MemSame s t ∧ OthersSame e s t ∧
      (∀ d, lDest f = some d → ∃ x ∈ t.owed, x.fibre = l.id ∧ x.reg = d ∧ x.words = 1 ∧ x.val = some (BitVec.ofNat 64 r.1)) ∧
      FibreIs t l.id fun g => Behind e l g ∧ g.regs = l.regs) ∧
  (∀ (f : LF) e u s l, SoleLane (.lease f) e u s l → (l.src64 f.a.toNat).toNat % 4096 ≠ 0 →
    ∃ t, exec (.lease f) s = .next t ∧ t.leases = s.leases ∧ MemSame s t ∧
      FibreIs t l.id fun g => ∃ p, g.status = .parked p ∧ p.frec.code = 0x40 ∧ g.pc = l.pc ∧ g.regs = l.regs) ∧
  (∀ (s : State) (vf asid : Nat) (va : DWord) (bytes us : Nat) (pages : List Nat),
    bytes % 4096 = 0 → 0 < bytes → bytes ≤ 2 ^ 24 → leasePages s vf asid va.toNat (bytes / 4096) = some pages →
    leaseQuota s vf pages = false → leaseNoSpace s pages = false → (s.leases.filter (·.vf == vf)).length < 2 ^ 24 - 1 →
    ∃ id, (grantLease s vf asid va bytes us).1 = id ∧ 1 ≤ id ∧ id < 2 ^ 24 ∧ (∀ x ∈ s.leases, x.vf = vf → x.id ≠ id) ∧
      (grantLease s vf asid va bytes us).2.leases = s.leases ++ [⟨id, vf, asid, va, bytes, pages, s.time.dtc + 4000 * us, []⟩]) ∧
  (∀ (f : WF) e u s l, SoleLane (.unlease f) e u s l →
    ∃ t, exec (.unlease f) s = .next t ∧
      t.leases = s.leases.filter (fun x => !(x.vf == s.fibreVf l && x.id == (l.src f.a.toNat).toNat)) ∧ MemSame s t ∧ OthersSame e s t ∧
      t.crews = s.crews ∧ FibreIs t l.id fun g => Behind e l g ∧ g.regs = l.regs)

/-- R165, R169, R174: the matrix instructions with valid operands put their operation at the end of their core's queue while it holds fewer than 16, and go
on, the token register busy. What the operation is comes from the record in the scratchpad, or from the row word and the offset; a failed check parks. -/
def Obligations.MatrixIssueResults : Prop :=
  let queued (i : Instr) (check : Enc → State → Fibre → Option Trap) (kind : Enc → State → Fibre → MxKind) (dest : Option Nat) : Prop :=
    (∀ e u s l, SoleLane i e u s l → check e (issueCounts e u s) l = none →
      ((issueCounts e u s).core (s.fibreCore l)).mxq.length < 16 → l.scr = [] → s.cur.map (·.num) = some l.cohort →
      ∃ t o, exec i s = .next t ∧ (t.core (s.fibreCore l)).mxq = ((issueCounts e u s).core (s.fibreCore l)).mxq ++ [o] ∧
        o.kind = kind e (issueCounts e u s) l ∧ o.crew = some l.crew ∧ o.op = s.fibreOp l ∧
        (t.core (s.fibreCore l)).acc = ((issueCounts e u s).core (s.fibreCore l)).acc ∧ MemSame s t ∧ OthersSame e s t ∧ t.crews = s.crews ∧
        FibreIs t l.id fun g => g.pc = nextPc e l ∧ VoidLatches g ∧ g.status = .ready ∧ g.regs = l.regs ∧
          ∀ r, dest = some r → ∃ ref, (r, ref) ∈ g.busy) ∧
    (∀ e u s l t, SoleLane i e u s l → check e (issueCounts e u s) l = some t →
      ∃ s', exec i s = .next s' ∧ MemSame s s' ∧ FibreIs s' l.id fun g => ∃ p, g.status = .parked p ∧ p.frec.code = t.code ∧ g.pc = t.pc)
  (∀ f : LF, queued (.mtask f) mtaskCheck (fun _ s l => .tile (tileRecOf (scrRecord s l (l.src f.a.toNat).toNat))) (lDest f)) ∧
  (∀ f : LF, queued (.accz f) (fun e => accCheck e 0)
    (fun _ _ l => .accz (rowWord (l.src f.a.toNat)).1 (rowWord (l.src f.a.toNat)).2.1 (rowWord (l.src f.a.toNat)).2.2) (lDest f)) ∧
  (∀ f : LF, queued (.accld f) (fun e => accCheck e 4)
    (fun _ _ l => .accld (rowWord (l.src f.a.toNat)).1 (rowWord (l.src f.a.toNat)).2.1 (rowWord (l.src f.a.toNat)).2.2
      (l.src f.b.toNat).toNat) (lDest f)) ∧
  (∀ f : LF, queued (.accst f) (fun e => accCheck e 4)
    (fun _ _ l => .accst (rowWord (l.src f.a.toNat)).1 (rowWord (l.src f.a.toNat)).2.1 (rowWord (l.src f.a.toNat)).2.2
      (l.src f.b.toNat).toNat) (lDest f)) ∧
  (∀ f : LF, queued (.accdrain f) (fun e => accCheck e (drainSize (f.imm16.toNat % 16)))
    (fun _ _ l => .drain (rowWord (l.src f.a.toNat)).1 (rowWord (l.src f.a.toNat)).2.1 (rowWord (l.src f.a.toNat)).2.2
      (l.src f.b.toNat).toNat (f.imm16.toNat % 16) (f.imm16.toNat / 16 % 8) (f.imm16.getLsbD 7)
      (if f.imm16.getLsbD 8 then some (l.src f.c.toNat).toNat else none)) (lDest f))

/-- R177, R178: the crew barriers. `bar` arrives and holds the fibre while another of the crew has not arrived; the last arrival completes the phase and lets
it go on. `bar.arv` arrives and goes on; `bar.wt` waits for the phase of its arrival or finds it complete. A second arrival, or a wait without one,
parks with BARRIER.
R179: the group barrier. `gbar` holds the fibre while a fibre of its crew has not arrived at the group; a number that is no group of the crew parks
with GROUP. With every crew and fibre of the group there, its phase completes and they go on. -/
def Obligations.BarrierResults : Prop :=
  (
    (∀ (f : WIF) e u s l c, SoleLane (.bar f) e u s l → s.crew? l.crew = some c → hasArrived s l f.imm8.toNat = false → fibreQuiet s 1 l.id = true →
      let n := f.imm8.toNat
      ((∃ g ∈ s.expected l.crew, g.id ≠ l.id ∧ (c.bar n).arrival g.id ≠ some (c.bar n).phase) →
        ∃ t, exec (.bar f) s = .next t ∧ MemSame s t ∧ OthersSame e s t ∧
          (FibreIs t l.id fun g => g.status = .waitBar n ∧ g.pc = l.pc ∧ VoidLatches g ∧ g.regs = l.regs) ∧
          ∃ d, t.crew? l.crew = some d ∧ (d.bar n).phase = (c.bar n).phase ∧ (d.bar n).arrival l.id = some (c.bar n).phase) ∧
      ((∀ g ∈ s.expected l.crew, g.id ≠ l.id → (c.bar n).arrival g.id = some (c.bar n).phase) →
        ∃ t, exec (.bar f) s = .next t ∧ MemSame s t ∧
          (FibreIs t l.id fun g => g.status = .ready ∧ g.pc = l.pc + 4 ∧ VoidLatches g ∧ g.regs = l.regs) ∧
          ∃ d, t.crew? l.crew = some d ∧ (d.bar n).phase = (c.bar n).phase + 1)) ∧
    (∀ (f : WIF) e u s l c, SoleLane (.barArv f) e u s l → s.crew? l.crew = some c → hasArrived s l f.imm8.toNat = false →
      fibreQuiet s 1 l.id = true →
      ∃ t, exec (.barArv f) s = .next t ∧ MemSame s t ∧ (FibreIs t l.id fun g => Behind e l g ∧ g.regs = l.regs) ∧
        ∃ d, t.crew? l.crew = some d ∧ (d.bar f.imm8.toNat).arrival l.id = some (c.bar f.imm8.toNat).phase) ∧
    (∀ (f : WIF) e u s l c p, SoleLane (.barWt f) e u s l → s.crew? l.crew = some c → (c.bar f.imm8.toNat).arrival l.id = some p →
      (p < (c.bar f.imm8.toNat).phase → ∃ t, exec (.barWt f) s = .next t ∧ MemSame s t ∧ OthersSame e s t ∧
        (FibreIs t l.id fun g => Behind e l g ∧ g.regs = l.regs) ∧
        ∃ d, t.crew? l.crew = some d ∧ (d.bar f.imm8.toNat).arrival l.id = none) ∧
      ((c.bar f.imm8.toNat).phase ≤ p → ∃ t, exec (.barWt f) s = .next t ∧ MemSame s t ∧ OthersSame e s t ∧ t.crews = s.crews ∧
        FibreIs t l.id fun g => g.status = .waitBar f.imm8.toNat ∧ g.pc = l.pc ∧ VoidLatches g ∧ g.regs = l.regs)) ∧
    (∀ (f : WIF) e u s l, SoleLane (.bar f) e u s l → hasArrived s l f.imm8.toNat = true → fibreQuiet s 1 l.id = true →
      ∃ t, exec (.bar f) s = .next t ∧ FibreIs t l.id fun g => ∃ p, g.status = .parked p ∧ p.frec.code = 0x70 ∧ g.pc = l.pc) ∧
    (∀ (f : WIF) e u s l c, SoleLane (.barWt f) e u s l → s.crew? l.crew = some c → (c.bar f.imm8.toNat).arrival l.id = none →
      ∃ t, exec (.barWt f) s = .next t ∧ FibreIs t l.id fun g => ∃ p, g.status = .parked p ∧ p.frec.code = 0x70 ∧ g.pc = l.pc)) ∧
  (
    (∀ (f : WIF) e u s l, SoleLane (.gbar f) e u s l → fibreQuiet s 5 l.id = true →
      let v := (l.src f.a.toNat).toNat
      (groupOk s l v = true → (∃ g ∈ s.expected l.crew, g.id ≠ l.id ∧ g.status ≠ .waitGbar v) →
        ∃ t, exec (.gbar f) s = .next t ∧ MemSame s t ∧
          FibreIs t l.id fun g => g.status = .waitGbar v ∧ g.pc = l.pc ∧ VoidLatches g ∧ g.regs = l.regs) ∧
      (groupOk s l v = false → ∃ t, exec (.gbar f) s = .next t ∧ MemSame s t ∧
        FibreIs t l.id fun g => ∃ p, g.status = .parked p ∧ p.frec.code = 0x71 ∧ g.pc = l.pc)) ∧
    (∀ (s : State) (grid num : Nat) (gr : Grid) (x : GroupSt), NamesOk s → s.grid? grid = some gr → gr.groups.find? (·.num == num) = some x →
      (∀ lin ∈ groupLeft s gr x, ∃ c ∈ s.crews, c.grid = grid ∧ c.linear = lin) →
      (∀ c ∈ s.crews, c.grid = grid → c.linear ∈ groupLeft s gr x → ∀ g ∈ s.expected c.id, g.status = .waitGbar num) →
      ∀ g ∈ s.fibres, g.status = .waitGbar num → (∃ c ∈ s.crews, c.id = g.crew ∧ c.grid = grid ∧ c.linear ∈ groupLeft s gr x) →
        FibreIs (gbarEval s grid num) g.id fun h => h.status = .ready ∧ h.pc = g.pc + 4 ∧ VoidLatches h ∧ h.regs = g.regs))


/-- R180, R181, R256, R259: the fences. A release holds the cohort until the fibre's writes at its scope are applied; behind an acquire every later access waits for
the loads in flight. `vfence` waits for the fibre's decoded writes and empties its core's L1 of its address space. No register or byte changes. -/
def Obligations.FenceResults : Prop :=
  (∀ (f : WIF) e u s l, SoleLane (.fence f) e u s l →
    let order := f.imm8.toNat % 4
    let scope := f.imm8.toNat / 4 % 8
    ((isRelease order = true → fibreApplied s scope l.id = true) → ∃ t, exec (.fence f) s = .next t ∧ IssueFrame e s t ∧ t.accesses = s.accesses ∧
      FibreIs t l.id fun g => Behind e l g ∧ g.regs = l.regs ∧ (isRelease order = true → g.scr = []) ∧
        (isAcquire order = true →
          g.acqSet = (s.accesses.filter fun a => decide (a.agent = .fibre l.id) && a.op.reads && !a.nc && !a.cpa).map (·.ref))) ∧
    (isRelease order = true → fibreApplied s scope l.id = false → exec (.fence f) s = .next s)) ∧
  (∀ (f : WF) e u s l, SoleLane (.vfence f) e u s l → (∀ a ∈ s.accesses, a.agent = .fibre l.id → a.decodedWrite = false) →
    ∃ t, exec (.vfence f) s = .next t ∧ IssueFrame e s t ∧ t.crews = s.crews ∧ t.accesses = s.accesses ∧
      (FibreIs t l.id fun g => Behind e l g ∧ g.regs = l.regs) ∧
      ∀ c ∈ t.cores, c.num = s.fibreCore l → ∀ x ∈ c.l1, x.asid ≠ s.fibreAsid l)

/-- R183 to R185: the signal instructions at an address that passes the checks of an atomic of 8 bytes. Each sends its operation to the home; `sigw` waits with
its condition, comparand and cone while a read of the signal is on its way. A bad abort code parks with SIG_CODE.
R184, R183: what a fibre in `sigw` sees. A value that meets its condition, or is negative, lands in D and the fibre goes on alone behind the
instruction; any other leaves it waiting. The conditions are at most, at least and unequal; a signal's sum is clamped and a negative value stays.
What the spec leaves open here is the model's choice: log 48. -/
def Obligations.SignalResults : Prop :=
  (
    let sends (i : Instr) (f : LF) (need : Need) (op : Fibre → MemOp) (words : Nat) : Prop :=
      ∀ e u s l spa dev, SoleLane i e u s l → (checkAddr (issueCounts e u s) l (lAddr f l) 8 need).1 = .ok spa dev →
        ∃ t a, exec i s = .next t ∧ a ∈ t.accesses ∧ a.agent = .fibre l.id ∧ a.va = lAddr f l ∧ a.spa = spa ∧ a.dev = dev ∧ a.op = op l ∧
          a.order = lOrder f ∧ a.scope = lScope f ∧ a.resp = .none ∧
          a.dest = (if words = 0 then none else destOf e l words 0 none) ∧
          FibreIs t l.id (fun g => Behind e l g ∧ g.regs = l.regs ∧ BusyWith g (lDest f) words a.ref) ∧ IssueFrame e s t
    (∀ f, sends (.sigAdd f) f .write (fun l => .sigAdd (l.src64 f.b.toNat)) 2) ∧
    (∀ f, sends (.sigRead f) f .read (fun _ => .sigRead false) 2) ∧
    (∀ f : LF, f.mod.getLsbD 2 = false → sends (.sigSet f) f .write (fun l => .sigSet (l.src64 f.b.toNat)) 0) ∧
    (∀ (f : LF) e u s l spa dev, f.mod.getLsbD 2 = true → SoleLane (.sigSet f) e u s l → 1 ≤ (l.src f.b.toNat).toNat → (l.src f.b.toNat).toNat ≤ 7 →
      (checkAddr (issueCounts e u s) l (lAddr f l) 8 .write).1 = .ok spa dev →
      ∃ t a, exec (.sigSet f) s = .next t ∧ a ∈ t.accesses ∧ a.agent = .fibre l.id ∧ a.va = lAddr f l ∧ a.spa = spa ∧ a.dev = dev ∧
        a.op = .sigAbort (l.src f.b.toNat).toNat ∧ a.dest = none ∧ a.resp = .none ∧
        FibreIs t l.id (fun g => Behind e l g ∧ g.regs = l.regs) ∧ IssueFrame e s t) ∧
    (∀ (f : LF) e u s l, f.mod.getLsbD 2 = true → SoleLane (.sigSet f) e u s l → (l.src f.b.toNat).toNat = 0 ∨ 7 < (l.src f.b.toNat).toNat →
      ∃ t, exec (.sigSet f) s = .next t ∧ MemSame s t ∧ t.accesses = s.accesses ∧
        FibreIs t l.id fun g => ∃ p, g.status = .parked p ∧ p.frec.code = 0x76 ∧ g.pc = l.pc) ∧
    (∀ (f : LF) e u s l spa dev, SoleLane (.sigw f) e u s l → (checkAddr (issueCounts e u s) l (lAddr f l) 8 .read).1 = .ok spa dev →
      ∃ t a x, exec (.sigw f) s = .next t ∧ a ∈ t.accesses ∧ a.agent = .fibre l.id ∧ a.va = lAddr f l ∧ a.spa = spa ∧ a.dev = dev ∧
        a.op = .sigRead true ∧ a.resp = .none ∧ MemSame s t ∧ OthersSame e s t ∧ x.va = lAddr f l ∧ x.cond = f.mod.toNat % 4 ∧
        x.cmp = l.src64 f.b.toNat ∧ x.scope = lScope f ∧ x.next = l.pc + 8 ∧ x.reg = (lDest f).getD 63 ∧
        (f.c = 63 → x.deadline = none) ∧
        (f.c ≠ 63 → (l.src f.c.toNat).toNat ≠ 0 → x.deadline = some (s.time.dtc + 4000 * (l.src f.c.toNat).toNat)) ∧
        FibreIs t l.id fun g => g.status = .waitSig x ∧ g.pc = l.pc ∧ VoidLatches g ∧ g.regs = l.regs)) ∧
  (
    (∀ (v b : DWord), sigMet 0 v b = (v.slt 0 || v.sle b) ∧ sigMet 1 v b = (v.slt 0 || b.sle v) ∧ sigMet 2 v b = (v.slt 0 || v != b)) ∧
    (∀ (s : State) (f : Fibre) (x : SigWait) (v : DWord) (st : Stamp), s.fibre? f.id = some f → f.status = .waitSig x →
      (sigMet x.cond v x.cmp = true → FibreIs (sigwSee s f.id v st) f.id fun g => g.status = .ready ∧ g.pc = x.next ∧ VoidLatches g ∧
        g.cohort = s.nextId ∧
        g.regs = if x.reg = 63 then f.regs else (f.setRegs [(x.reg, v.setWidth 32), (x.reg + 1, (v >>> 32).setWidth 32)]).regs) ∧
      (sigMet x.cond v x.cmp = false → sigwSee s f.id v st = s.setFibre f.id fun g => { g with status := .waitSig { x with last := v } })) ∧
    (∀ (old : Nat) (b : DWord), old < 2 ^ 63 → (sigAddVal old b : Int) = max 0 (min (2 ^ 63 - 1) ((old : Int) + b.toInt))) ∧
    (∀ (old : Nat) (b : DWord), 2 ^ 63 ≤ old → old < 2 ^ 64 → sigAddVal old b = old))


/-- R186, R187: `enq` with an aligned descriptor of a queue of its function that lets it, and a slot free, writes its packet and goes on, its status 0;
a full queue gives 1 and a queue that may not be used 2, with nothing written; an empty packet parks. `wwait` returns 1 where the value is
already another, 2 where no entry is free, else arms an entry and waits, with the core registered at the line's home; a line outside the HBM of this
device parks with WAKE_HOME.
What the spec leaves open here is the model's choice: logs 49, 71. -/
def Obligations.EnqueueAndWakeResults : Prop :=
  let owes (t : State) (l : Fibre) (d : Option Nat) (v : DWord) : Prop := ∀ r, d = some r → ∃ o ∈ t.owed, o.fibre = l.id ∧ o.reg = r ∧ o.words = 1 ∧ o.val = some v
  (∀ (f : LF) e u s l spa dev, SoleLane (.enq f) e u s l → fibreQuiet s 5 l.id = true → enqHeld e s l = false → l.scr = [] →
    let va := l.src64 f.a.toNat
    let s0 := issueCounts e u s
    let r := checkAddr s0 l va 64 .write
    va.toNat % 64 = 0 → (packetBytes e l).getD 0 0 ≠ 0 → r.1 = .ok spa dev →
    (∀ q spa' stor, queueAt r.2 spa dev = some q → s.queue? q.qnum = some q → q.vf = s.fibreVf l → q.enqOk = true →
      s.wridx q - q.rdidx < 2 ^ q.logsz → s.wridx q < 2 ^ 64 - 1 →
      translateWalk r.2 q.vf q.asid (slotVa q (s.wridx q)).toNat .write = .ok spa' none → writable r.2 spa' 64 = .ok stor → spa' / 2 ^ 49 < 3 → stor.Nodup →
      (∀ a ∈ stor, a < q.desc ∨ q.desc + 64 ≤ a) →
      ∃ t, exec (.enq f) s = .next t ∧ owes t l (lDest f) 0 ∧ (FibreIs t l.id fun g => Behind e l g ∧ g.regs = l.regs) ∧
        (∀ i < 64, t.getByte (stor.getD i 0) = (packetBytes e l).getD i 0) ∧ t.wridx q = s.wridx q + 1 ∧
        MemSameBut (stor ++ (List.range 64).map (q.desc + ·)) s t) ∧
    (∀ q, queueAt r.2 spa dev = some q → q.vf = s.fibreVf l → q.enqOk = true → 2 ^ q.logsz ≤ s.wridx q - q.rdidx →
      ∃ t, exec (.enq f) s = .next t ∧ owes t l (lDest f) 1 ∧ MemSame s t ∧ t.queues = s.queues ∧ OthersSame e s t ∧
        FibreIs t l.id fun g => Behind e l g ∧ g.regs = l.regs) ∧
    ((∀ q, queueAt r.2 spa dev = some q → q.vf ≠ s.fibreVf l ∨ q.enqOk = false) →
      ∃ t, exec (.enq f) s = .next t ∧ owes t l (lDest f) 2 ∧ MemSame s t ∧ t.queues = s.queues ∧ OthersSame e s t ∧
        FibreIs t l.id fun g => Behind e l g ∧ g.regs = l.regs)) ∧
  (∀ (f : LF) e u s l, SoleLane (.enq f) e u s l → fibreQuiet s 5 l.id = true → enqHeld e s l = false →
    (l.src64 f.a.toNat).toNat < 2 ^ 57 → (l.src64 f.a.toNat).toNat % 64 = 0 → (packetBytes e l).getD 0 0 = 0 →
    ∃ t, exec (.enq f) s = .next t ∧ MemSame s t ∧ FibreIs t l.id fun g => ∃ p, g.status = .parked p ∧ p.frec.code = 0x72 ∧ g.pc = l.pc) ∧
  (∀ (f : LF) e u s l spa st off bs c, SoleLane (.wwait f) e u s l → wwaitReady s e l = true →
    let r := checkAddr (issueCounts e u s) l (lAddr f l) 8 .read
    let line := homeByte (issueCounts e u s) spa / 64
    r.1 = .ok spa none → s.place spa = .hbm st off → readAt r.2 spa 8 = .ok bs →
    wakeArm ((issueCounts e u s).core (s.fibreCore l)) line (s.fibreAsid l) l.id = some c →
    (BitVec.ofNat 64 (bytesNat bs) ≠ l.src64 f.b.toNat → ∃ t, exec (.wwait f) s = .next t ∧ MemSame s t ∧ t.registrations = s.registrations ∧
      FibreIs t l.id fun g => Behind e l g ∧ g.regs = (l.setRegs (word (lDest f) 1).writes).regs) ∧
    (BitVec.ofNat 64 (bytesNat bs) = l.src64 f.b.toNat → ∃ t x, exec (.wwait f) s = .next t ∧ MemSame s t ∧
      (line, s.fibreCore l) ∈ t.registrations ∧ (∃ w ∈ (t.core (s.fibreCore l)).wake, w.line = line ∧ l.id ∈ w.waiters) ∧
      x.line = line ∧ x.next = l.pc + 8 ∧ x.reg = (lDest f).getD 63 ∧
      FibreIs t l.id fun g => g.status = .waitWake x ∧ g.pc = l.pc ∧ VoidLatches g ∧ g.regs = l.regs)) ∧
  (∀ (f : LF) e u s l spa st off bs, SoleLane (.wwait f) e u s l → wwaitReady s e l = true →
    let r := checkAddr (issueCounts e u s) l (lAddr f l) 8 .read
    r.1 = .ok spa none → s.place spa = .hbm st off → readAt r.2 spa 8 = .ok bs →
    wakeArm ((issueCounts e u s).core (s.fibreCore l)) (homeByte (issueCounts e u s) spa / 64) (s.fibreAsid l) l.id = none →
    ∃ t, exec (.wwait f) s = .next t ∧ MemSame s t ∧ t.registrations = s.registrations ∧
      FibreIs t l.id fun g => Behind e l g ∧ g.regs = (l.setRegs (word (lDest f) 2).writes).regs) ∧
  (∀ (f : LF) e u s l spa dev, SoleLane (.wwait f) e u s l → wwaitReady s e l = true →
    (checkAddr (issueCounts e u s) l (lAddr f l) 8 .read).1 = .ok spa dev → dev ≠ none ∨ (∀ st off, s.place spa ≠ .hbm st off) →
    ∃ t, exec (.wwait f) s = .next t ∧ MemSame s t ∧ t.registrations = s.registrations ∧
      FibreIs t l.id fun g => ∃ p, g.status = .parked p ∧ p.frec.code = 0x73 ∧ g.pc = l.pc ∧ g.regs = l.regs)

/-- R189 to R191: receive counters and triggered sends. `ctr.add` adds a signed 32-bit value, clamped, and D receives the new value; `ctr.set` sets the count and
clears ERR; `ctr.read` changes nothing. A word that names no counter of the function parks with CTR. `tsend` arms its record below the
threshold, D receiving 0; without a free place D receives 2; a bad record parks.
What the spec leaves open here is the model's choice: log 23. -/
def Obligations.CounterAndSendResults : Prop :=
  let quiet (s : State) (w : Nat) (v : Nat) : Prop := ∀ x ∈ s.sends, x.state = .held → ctrDie x.tctr = ctrDie w → ctrIdx x.tctr = ctrIdx w → v < x.thresh
  (∀ (f : LF) e u s l, SoleLane (.ctrRead f) e u s l → counterOk s (s.fibreVf l) (l.src f.a.toNat).toNat = true →
    ∃ t, exec (.ctrRead f) s = .next t ∧ IssueFrame e s t ∧ t.sends = s.sends ∧
      FibreIs t l.id fun g => Behind e l g ∧
        g.regs = (l.setRegs (dword (lDest f) (counterValue (s.counter (l.src f.a.toNat).toNat))).writes).regs) ∧
  (∀ (f : LF) e u s l, SoleLane (.ctrAdd f) e u s l → fibreQuiet s 5 l.id = true →
    let w := (l.src f.a.toNat).toNat
    let n := clampCount ((s.counter w).count + (l.src f.b.toNat).toInt)
    counterOk s (s.fibreVf l) w = true → quiet s w n →
    ∃ t, exec (.ctrAdd f) s = .next t ∧ MemSame s t ∧ OthersSame e s t ∧ t.sends = s.sends ∧ t.accesses = s.accesses ∧
      t.counter w = { s.counter w with count := n } ∧
      FibreIs t l.id fun g => Behind e l g ∧ g.regs = (l.setRegs (dword (lDest f) (counterValue { s.counter w with count := n })).writes).regs) ∧
  (∀ (f : LF) e u s l, SoleLane (.ctrSet f) e u s l → fibreQuiet s 5 l.id = true →
    let w := (l.src f.a.toNat).toNat
    let n := (l.src64 f.b.toNat).toNat % 2 ^ 48
    counterOk s (s.fibreVf l) w = true → quiet s w n →
    ∃ t, exec (.ctrSet f) s = .next t ∧ MemSame s t ∧ OthersSame e s t ∧ t.sends = s.sends ∧ t.accesses = s.accesses ∧
      t.counter w = { s.counter w with count := n, err := false } ∧ FibreIs t l.id fun g => Behind e l g ∧ g.regs = l.regs) ∧
  (∀ i (f : LF), i = .ctrRead f ∨ i = .ctrAdd f ∨ i = .ctrSet f → ∀ e u s l, SoleLane i e u s l → fibreQuiet s 5 l.id = true →
    counterOk s (s.fibreVf l) (l.src f.a.toNat).toNat = false →
    ∃ t, exec i s = .next t ∧ MemSame s t ∧ t.counters = s.counters ∧
      FibreIs t l.id fun g => ∃ p, g.status = .parked p ∧ p.frec.code = 0x74 ∧ g.pc = l.pc) ∧
  (∀ (f : LF) e u s l, SoleLane (.tsend f) e u s l →
    let o := (l.src f.a.toNat).toNat
    let n := scrRecord s l o
    recordCheck (issueCounts e u s) l o = none →
    (sendBad s (s.fibreVf l) n = true → ∃ t, exec (.tsend f) s = .next t ∧ MemSame s t ∧ t.sends = s.sends ∧
      FibreIs t l.id fun g => ∃ p, g.status = .parked p ∧ p.frec.code = 0x75 ∧ g.pc = l.pc) ∧
    (sendBad s (s.fibreVf l) n = false → ∀ v : Nat,
      v = (if sendsFull s (sendOf n 0 0 0).die (s.fibreVf l) then 2 else 0) →
      (sendsFull s (sendOf n 0 0 0).die (s.fibreVf l) = false → (s.counter (sendOf n 0 0 0).tctr).count < (sendOf n 0 0 0).thresh) →
      ∃ t, exec (.tsend f) s = .next t ∧ MemSame s t ∧ OthersSame e s t ∧
        t.sends = (if v = 2 then s.sends else s.sends ++ [sendOf n s.nextId (s.fibreVf l) (s.fibreAsid l)]) ∧
        (∀ r, lDest f = some r → ∃ x ∈ t.owed, x.fibre = l.id ∧ x.reg = r ∧ x.words = 1 ∧ x.val = some (BitVec.ofNat 64 v)) ∧
        FibreIs t l.id fun g => Behind e l g ∧ g.regs = l.regs))

/-- R193, R194: `invoke` mints a handle on its die's table and starts the invocation, D receiving the handle; without quota or entry it receives the refusal, and no
entry changes. `hstat` of a handle of this device writes its status at once; `hwait` waits while it is unfired, else writes the status. Of
a handle of another device both ask its origin: `hstat` goes on, its register busy, and `hwait` waits. -/
def Obligations.GreenwareInstructionResults : Prop :=
  let cone (f : LF) (s : State) (l : Fibre) (x : HandleWait) : Prop := (f.c = 63 → x.deadline = none) ∧
    (f.c ≠ 63 → (l.src f.c.toNat).toNat ≠ 0 → x.deadline = some (s.time.dtc + 4000 * (l.src f.c.toNat).toNat))
  let elsewhere (s : State) (h : DWord) : Prop := h.toNat % 256 = 0 ∧ handleDev h ≠ s.dev.dev
  let asks (s t : State) (l : Fibre) (h : DWord) (wait : Bool) (x : GwQuery) : Prop := MemSame s t ∧ t.green = s.green ∧
    t.gwQueries = s.gwQueries ++ [x] ∧ x.fibre = l.id ∧ x.handle = h ∧ x.wait = wait ∧ x.dev = none ∧ x.since = some s.time.dtc
  (∀ (f : LF) e u s l, SoleLane (.invoke f) e u s l → fibreQuiet s 6 l.id = true → l.scr = [] →
    let s0 := issueCounts e u s
    let va := l.src64 f.a.toNat
    va.toNat < 2 ^ 57 → va.toNat % 64 = 0 →
    let gives (t : State) (v : DWord) : Prop := ∀ r, lDest f = some r → ∃ x ∈ t.owed, x.fibre = l.id ∧ x.reg = r ∧ x.words = 2 ∧ x.val = some v
    (∀ h t0, gwMint s0 (coreDie (s.fibreCore l)) (s.fibreVf l) (s.fibreOp l) = .ok (h, t0) →
      ∃ t, exec (.invoke f) s = .next t ∧ gives t h ∧ MemSame s t ∧ OthersSame e s t ∧
        t.green = (gwStart t0 (coreDie (s.fibreCore l)) h (s.fibreVf l) (s.fibreAsid l) va).green ∧
        FibreIs t l.id fun g => Behind e l g ∧ g.regs = l.regs) ∧
    (∀ n, gwMint s0 (coreDie (s.fibreCore l)) (s.fibreVf l) (s.fibreOp l) = .error n →
      ∃ t, exec (.invoke f) s = .next t ∧ gives t (BitVec.ofNat 64 n) ∧ IssueFrame e s t ∧
        FibreIs t l.id fun g => Behind e l g ∧ g.regs = l.regs)) ∧
  (∀ (f : LF) e u s l, SoleLane (.hstat f) e u s l →
    let h := l.src64 f.a.toNat
    (h.toNat % 256 ≠ 0 ∨ handleDev h = s.dev.dev) →
    ∃ t, exec (.hstat f) s = .next t ∧ IssueFrame e s t ∧
      FibreIs t l.id fun g => Behind e l g ∧ g.regs = (l.setRegs (word (lDest f) (gwAnswer s h (s.fibreVf l))).writes).regs) ∧
  (∀ (f : LF) e u s l, SoleLane (.hwait f) e u s l →
    let h := l.src64 f.a.toNat
    (h.toNat % 256 ≠ 0 ∨ handleDev h = s.dev.dev) →
    ((gwAnswer s h (s.fibreVf l)).toNat % 256 ≠ 0 → ∃ t, exec (.hwait f) s = .next t ∧ MemSame s t ∧ t.green = s.green ∧ OthersSame e s t ∧
      FibreIs t l.id fun g => Behind e l g ∧ g.regs = (l.setRegs (word (lDest f) (gwAnswer s h (s.fibreVf l))).writes).regs) ∧
    ((gwAnswer s h (s.fibreVf l)).toNat % 256 = 0 → ∃ t x, exec (.hwait f) s = .next t ∧ MemSame s t ∧ t.green = s.green ∧ OthersSame e s t ∧
      x.handle = h ∧ x.next = l.pc + 8 ∧ x.reg = (lDest f).getD 63 ∧ cone f s l x ∧
      FibreIs t l.id fun g => g.status = .waitHandle x ∧ g.pc = l.pc ∧ VoidLatches g ∧ g.regs = l.regs)) ∧
  (∀ (f : LF) e u s l, SoleLane (.hstat f) e u s l → elsewhere s (l.src64 f.a.toNat) →
    ∃ t x, exec (.hstat f) s = .next t ∧ asks s t l (l.src64 f.a.toNat) false x ∧ OthersSame e s t ∧
      (∀ r, lDest f = some r → ∃ o ∈ t.owed, o.fibre = l.id ∧ o.reg = r ∧ o.words = 1 ∧ o.val = none ∧ o.ref = x.ref) ∧
      FibreIs t l.id fun g => Behind e l g ∧ g.regs = l.regs) ∧
  (∀ (f : LF) e u s l, SoleLane (.hwait f) e u s l → elsewhere s (l.src64 f.a.toNat) →
    ∃ t x y, exec (.hwait f) s = .next t ∧ asks s t l (l.src64 f.a.toNat) true x ∧ OthersSame e s t ∧
      y.handle = l.src64 f.a.toNat ∧ y.ref = x.ref ∧ y.next = l.pc + 8 ∧ y.reg = (lDest f).getD 63 ∧ cone f s l y ∧
      FibreIs t l.id fun g => g.status = .waitHandle y ∧ g.pc = l.pc ∧ VoidLatches g ∧ g.regs = l.regs)

/-- R195 to R199: `time` owes D the device time, which has gone on by a free amount at its issue (the spec names no moment, log 57), and shifts the latches; `evt` hands the Flue one record
a lane; `perf` writes its counter and under `.clr` zeroes it; `sysr` writes the value of its number; `resreq` answers 0 for a
resident page and hands the firmware every other request; an address outside the range parks. -/
def Obligations.SystemResults : Prop :=
  (∀ (f : WF) e u s l, SoleLane (.timeI f) e u s l → ∃ t, exec (.timeI f) s = .next t ∧
    IssueFrame e s { t with time := s.time } ∧ { t.time with dtc := s.time.dtc } = s.time ∧ s.time.dtc ≤ t.time.dtc ∧ t.crews = s.crews ∧ t.accesses = s.accesses ∧
    (∀ r, wDest f = some r → ∃ x ∈ t.owed, x.fibre = l.id ∧ x.reg = r ∧ x.words = 2 ∧ x.isTime = true ∧
      x.val = some (max64 t.time.dtc)) ∧
    FibreIs t l.id fun g => g.pc = l.pc + 4 ∧ g.regs = l.regs ∧ g.status = l.status ∧ g.b1 = l.b0 ∧ g.b2 = l.b1 ∧ g.b0 = ⟨.w64, max64 t.time.dtc⟩) ∧
  (∀ (f : LF) e u s l, SoleLane (.evt f) e u s l → s.flue.find? (·.src == coreSrc (s.fibreCore l)) = none →
    ∃ t, exec (.evt f) s = .next t ∧ IssueFrame e s t ∧ t.accesses = s.accesses ∧
      t.flue = s.flue ++ [⟨coreSrc (s.fibreCore l), [⟨0x1000 + f.imm16.toNat % 256, (l.src f.a.toNat).toNat % 2 ^ 16, s.fibreVf l,
        coreSrc (s.fibreCore l), s.fibreOp l, l.src64 f.b.toNat, s.time.dtc⟩]⟩] ∧
      FibreIs t l.id fun g => g = laneBehind 8 ⟨[], .void⟩ l) ∧
  (∀ (f : LF) e u s l, SoleLane (.perf f) e u s l →
    let s0 := issueCounts e u s
    let n := f.imm16.toNat % 16
    let v := (perfValue s0 (s.fibreCore l) n).1
    ∃ t, exec (.perf f) s = .next t ∧ IssueFrame e s t ∧ t.accesses = s.accesses ∧ t.crews = s.crews ∧
      (f.mod.getLsbD 0 = true → (t.core (s.fibreCore l)).perfCounts = (s0.core (s.fibreCore l)).perfCounts.set n 0) ∧
      (f.mod.getLsbD 0 = false → t.cores = s0.cores) ∧
      FibreIs t l.id fun g => g = laneBehind 8 (dword (lDest f) (BitVec.ofNat 64 v)) l) ∧
  (∀ (f : WIF) e u s l c g, SoleLane (.sysr f) e u s l → s.fibreCrew l = some c → s.fibreGrid l = some g →
    ∃ t, exec (.sysr f) s = .next t ∧ IssueFrame e s t ∧ t.accesses = s.accesses ∧ t.crews = s.crews ∧
      FibreIs t l.id fun h => h = laneBehind 4 (word (wiDest f) (BitVec.ofNat 32 (sysValue s l c g f.imm8.toNat))) l) ∧
  (∀ (f : LF) e u s l, SoleLane (.resreq f) e u s l →
    let va := l.src64 f.a.toNat
    va.toNat < 2 ^ 57 →
    (∀ spa dev, translateWalk (issueCounts e u s) (s.fibreVf l) (s.fibreAsid l) va.toNat .read = .ok spa dev →
      ∃ t, exec (.resreq f) s = .next t ∧ IssueFrame e s t ∧ t.resReqs = s.resReqs ∧
        (∀ r, lDest f = some r → ∃ x ∈ t.owed, x.fibre = l.id ∧ x.reg = r ∧ x.words = 1 ∧ x.val = some 0) ∧
        FibreIs t l.id fun g => Behind e l g ∧ g.regs = l.regs) ∧
    ((∀ spa dev, translateWalk (issueCounts e u s) (s.fibreVf l) (s.fibreAsid l) va.toNat .read ≠ .ok spa dev) →
      ∃ t x, exec (.resreq f) s = .next t ∧ IssueFrame e s t ∧ t.resReqs = s.resReqs ++ [x] ∧ x.vf = s.fibreVf l ∧ x.asid = s.fibreAsid l ∧
        x.va = va.toNat / 4096 * 4096 ∧ x.asked = false ∧
        (∀ r, lDest f = some r → ∃ y ∈ t.owed, y.fibre = l.id ∧ y.reg = r ∧ y.words = 1 ∧ y.val = none ∧ y.ref = x.ref) ∧
        FibreIs t l.id fun g => Behind e l g ∧ g.regs = l.regs)) ∧
  (∀ (f : LF) e u s l, SoleLane (.resreq f) e u s l → 2 ^ 57 ≤ (l.src64 f.a.toNat).toNat →
    ∃ t, exec (.resreq f) s = .next t ∧ MemSame s t ∧ t.resReqs = s.resReqs ∧
      FibreIs t l.id fun g => ∃ p, g.status = .parked p ∧ p.frec.code = 0x41 ∧ g.pc = l.pc ∧ g.regs = l.regs)

/-- R131, R133, R141, R240, R247, R249: an access is performed at its home in one step. A read is answered with the bytes that stand there, one through a
view of elements perhaps in several steps; a store changes exactly its bytes and leaves, an atomic or signal operation replaces its word and is answered with
the old one. An access of an old generation is turned back, one to another device leaves as a request, and at once fails if that device is lost; one that misses
in a throttled row waits in its channel's side buffer, or with that full is refused and sent again. Fibres that waited for its replay go on.
What the spec leaves open here is the model's choice: logs 33, 122. -/
def Obligations.AccessPerformedResults : Prop :=
  (∀ (s : State) (ref : Nat) (a : Access) (n : Nat) (bytes : List Byte), Performs s ref a → a.op = .read n →
    readAt (eccNote s (storageBytes s a n)) a.spa n = .ok bytes →
    ∃ t b, exec (.accessPerformed ref) s = .next t ∧ t.access? ref = some b ∧ MemSame s t ∧ t.queues = s.queues ∧
      t.fibres = (endReplays { s with accesses := t.accesses }).fibres ∧
      (a.sel = 0 ∨ a.sel = 2 → ∃ st ap, b.resp = .ok bytes st ap ∧ b = { a with resp := b.resp }) ∧
      (b.resp = .none ∨ ∃ val st ap, b.resp = .ok val st ap ∧ val.length = n)) ∧
  (∀ (s : State) (ref : Nat) (a : Access) (n c : Nat), Performs s ref a → a.op = .read n →
    readAt (eccNote s (storageBytes s a n)) a.spa n = .error c →
    ∃ t b, exec (.accessPerformed ref) s = .next t ∧ t.access? ref = some b ∧ b.resp = .err c ∧ MemSame s t ∧
      t.fibres = (endReplays { s with accesses := t.accesses }).fibres) ∧
  (∀ (s : State) (ref : Nat) (a : Access) (d : List (Nat × Byte)) (wake : Bool) (bs : List Nat), MemCanonical s → Performs s ref a →
    a.op = .write d wake → a.sel ≤ 2 → storageOf s a.spa (opSize a.op) = .ok bs →
    ∃ t, exec (.accessPerformed ref) s = .next t ∧ MemSameBut (d.map fun p => bs.getD p.1 0) s t ∧
      t.fibres.map (·.regs) = s.fibres.map (·.regs) ∧
      (a.sel ≠ 1 → Gone t ref ∧ (bs.Nodup → (d.map (·.1)).Nodup → ∀ p ∈ d, t.getByte (bs.getD p.1 0) = p.2))) ∧
  (∀ (s : State) (ref : Nat) (a : Access) (bs : List Nat) (new : Nat), MemCanonical s → Performs s ref a → (∀ n, a.op ≠ .read n) →
    (∀ d w, a.op ≠ .write d w) → a.sel ≠ 3 → a.sel ≠ 4 → atomStorage s a.spa (opSize a.op) = .ok bs → eccFails s bs = false → bs.Nodup →
    opNew a.op (bytesNat (bs.map s.getByte)) = some new →
    ∃ t, exec (.accessPerformed ref) s = .next t ∧ bs.map t.getByte = natBytes (opSize a.op) new ∧ MemSameBut bs s t ∧
      (a.op.reads = true → ∃ b st ap, t.access? ref = some b ∧ b.resp = .ok (bs.map s.getByte) st ap) ∧
      (a.op.reads = false → Gone t ref)) ∧
  (∀ (s : State) (ref : Nat) (a : Access), s.access? ref = some a → canPerform s a = true → apertureStore s a = none → a.dev = none →
    (∀ x ∈ s.served, x.1 ≠ ref) → a.gen ≠ s.gen a.asid →
    ∃ t b, exec (.accessPerformed ref) s = .next t ∧ t.access? ref = some b ∧ b.resp = .stale ∧ MemSame s t ∧
      t.fibres = (endReplays { s with accesses := t.accesses }).fibres) ∧
  (∀ (s : State) (ref : Nat) (a : Access) (r : RowThrottle), s.access? ref = some a → canPerform s a = true → apertureStore s a = none →
    a.dev = none → (∀ x ∈ s.served, x.1 ≠ ref) → a.gen = s.gen a.asid → (rowsOf s a).find? s.throttled.contains = some r →
    s.sideBuf.any (·.1 == ref) = false →
    ∃ t, exec (.accessPerformed ref) s = .next t ∧ ((choose s 2).1 = 1 → ∃ b, t.access? ref = some b ∧ MemSame s t ∧
      if (s.sideBuf.filter fun x => x.2.1 == r.stack && x.2.2 == r.channel && s.accesses.any (·.ref == x.1)).length < 64 then
        b = a ∧ t.sideBuf = s.sideBuf ++ [(ref, r.stack, r.channel)]
      else b = { a with resp := .retry } ∧ t.sideBuf = s.sideBuf)) ∧
  (∀ (s : State) (ref d : Nat) (a : Access), s.access? ref = some a → canPerform s a = true → apertureStore s a = none → a.dev = some d →
    (d ∈ s.dev.lostDevs → ∃ t b, exec (.accessPerformed ref) s = .next t ∧ t.access? ref = some b ∧ b.resp = .err 0xA0 ∧ MemSame s t ∧
      t.fibres = (endReplays { s with accesses := t.accesses }).fibres) ∧
    (d ∉ s.dev.lostDevs → a.gen ≠ s.gen a.asid → ∃ t b, exec (.accessPerformed ref) s = .next t ∧ t.access? ref = some b ∧ b.resp = .stale ∧
      t.outbox = s.outbox ∧ MemSame s t) ∧
    (∀ t0, d ∉ s.dev.lostDevs → a.gen = s.gen a.asid → sendRequest s d a.vf (accessPkt s a d) (.access ref) = some t0 →
      ∃ t b, exec (.accessPerformed ref) s = .next t ∧ t.access? ref = some b ∧ b = { a with sent := true } ∧ t.outbox = t0.outbox ∧
        t.remote = t0.remote ∧ MemSame s t ∧ t.fibres = (endReplays { s with accesses := t.accesses }).fibres)) ∧
  (∀ (s : State) (ref : Nat) (a : Access), s.access? ref = some a → a.resp = .retry →
    ∃ t b, exec (.throttleRetry ref) s = .next t ∧ t.access? ref = some b ∧ b = { a with resp := .none, replays := a.replays + 1 } ∧
      { t with accesses := s.accesses, samples := s.samples, cores := s.cores } = s ∧ t.cores.map Core.noCounts = s.cores.map Core.noCounts)

/-- R50, R133, R152, R252, R398: an answer reaches its source. The value of a load or atomic lands in its registers, which are no longer busy; a result an engine
owes lands in the same way, a value that is causally stale is read again; an error response writes nothing and parks the lane with the code, the address and AUX 1; a per-fibre copy writes its
scratchpad bytes as one unit. No byte of memory changes.
What the spec leaves open here is the model's choice: log 52. -/
def Obligations.AnswerResults : Prop :=
  (∀ (s : State) (ref : Nat) (a : Access) (l : Fibre) (d : Dest) (val : List Byte) (st : Stamp) (ap : List (Nat × Nat)),
    PlainAnswer s ref a l → a.resp = .ok val st ap → a.dest = some d → d.fibre = l.id → d.flag = none →
    landTurn s a = true → a.nc = true ∨ a.dev ≠ none ∨ isStale s a ap = false →
    ∃ t, exec (.responseArrival ref) s = .next t ∧ Gone t ref ∧ MemSame s t ∧
      FibreIs t l.id fun g => g.regs = (l.setRegs (landWords d val)).regs ∧ (∀ p ∈ g.busy, p.2 ≠ ref) ∧ g.pc = l.pc ∧
        (g.status = l.status ∨ (∃ rs, l.status = .replay rs) ∧ g.status = .ready)) ∧
  (∀ (s : State) (ref : Nat) (a : Access) (l : Fibre) (val : List Byte) (st : Stamp) (ap : List (Nat × Nat)), PlainAnswer s ref a l →
    a.resp = .ok val st ap → landTurn s a = true → a.nc = false → a.dev = none → isStale s a ap = true →
    ∃ t b, exec (.responseArrival ref) s = .next t ∧ t.access? ref = some b ∧ b = { a.again with replays := a.replays + 1 } ∧ MemSame s t ∧
      t.fibres.map (·.regs) = s.fibres.map (·.regs)) ∧
  (∀ (s : State) (ref : Nat) (o : Owed) (v : DWord) (l : Fibre), s.access? ref = none → s.owed.find? (·.ref == ref) = some o → o.val = some v →
    (o.isTime = true → v.toNat ≤ s.time.dtc) → s.isSaved o.fibre = false → retryHolds s v = false → o.fibre = l.id → s.fibre? l.id = some l → l.status ≠ .halted →
    ∃ t, exec (.responseArrival ref) s = .next t ∧ MemSame s t ∧ t.accesses = s.accesses ∧ (∀ x ∈ t.owed, x.ref ≠ ref) ∧
      FibreIs t l.id fun g => g.regs = (l.setRegs (landWords ⟨l.id, o.reg, o.words, 0, none⟩ (natBytes (4 * o.words) v.toNat))).regs ∧
        (∀ p ∈ g.busy, p.2 ≠ ref) ∧ g.pc = l.pc ∧ g.status = l.status) ∧
  (∀ (s : State) (ref : Nat) (o : Owed) (v : DWord), s.access? ref = none → s.owed.find? (·.ref == ref) = some o → o.val = some v →
    (o.isTime = true ∧ s.time.dtc < v.toNat) ∨ (o.words = 2 ∧ o.isTime = false ∧ retryHolds s v = true) →
    exec (.responseArrival ref) s = .next s) ∧
  (∀ (s : State) (ref c : Nat) (a : Access) (l : Fibre), PlainAnswer s ref a l → a.resp = .err c → answerTurn s a = true → l.status = .ready →
    ∃ t, exec (.errorResponse ref) s = .next t ∧ Gone t ref ∧ MemSame s t ∧
      FibreIs t l.id fun g => (∃ p, g.status = .parked p ∧ p.frec.code = c ∧ p.frec.pc = l.pc ∧ p.frec.arg = a.va ∧ p.frec.aux = 1) ∧
        g.pc = l.pc ∧ g.regs = l.regs ∧ ∀ p ∈ g.busy, p.2 ≠ ref) ∧
  (∀ (s : State) (ref : Nat) (a : Access) (l : Fibre) (c : Crew) (val : List Byte) (st : Stamp) (ap : List (Nat × Nat)),
    s.access? ref = some a → a.cpa = true → a.resp = .ok val st ap →
    a.scrOnly = true ∨ copyTurn s a = true ∧ (a.dev ≠ none ∨ isStale s a ap = false) →
    a.agent = .fibre l.id → s.fibre? l.id = some l → l.status ≠ .halted → s.crew? l.crew = some c →
    (∀ p ∈ l.scr, p.1 < a.scrOff ∨ a.scrOff + a.scrLen ≤ p.1) →
    ∃ t, exec (.cpaLand ref) s = .next t ∧ Gone t ref ∧ MemSame s t ∧
      (∃ d, t.crew? l.crew = some d ∧ d.scratch = memWriteAt c.scratch a.scrOff (copyBytes a val)) ∧
      FibreIs t l.id fun g => g.regs = l.regs ∧
        g.copies = creditAll (l.copies.map fun k => if k.ref == ref then { k with landed := true, st := st } else k))

/-- R184, R185, R187, R194, R319, R338: the waits of fibres end. A wake lets every fibre of its core that waits on its line with an arming made before the write go on with WOKEN; an update notified to a
fibre in `sigw` makes it see the signal again; a cone that has run out ends `sigw` with the last value read and `hwait` with TIMEOUT; a
signal of another device is read again. No byte of memory changes. -/
def Obligations.WaitEventResults : Prop :=
  (∀ (s : State) (k : Wake), NamesOk s → s.wakes.find? (·.ref == k.ref) = some k →
    ∃ t, exec (.wakeDelivery k.ref) s = .next t ∧ MemSame s t ∧ t.wakes = s.wakes.filter (·.ref != k.ref) ∧
      (∀ f ∈ s.fibres, ∀ x, f.status = .waitWake x → x.line = k.line → s.fibreCore f = k.core → (∀ l, k.arms = some l → x.arm ∈ l) →
        GoesOn t f.id x.next (if x.reg = 63 then f.regs else (f.setReg x.reg 0).regs)) ∧
      ∀ f ∈ s.fibres, (∀ x, f.status = .waitWake x → x.line ≠ k.line ∨ s.fibreCore f ≠ k.core ∨ ∃ l, k.arms = some l ∧ x.arm ∉ l) → f ∈ t.fibres) ∧
  (∀ (s : State) (f : Fibre) (x : SigWait) (v : DWord) (st : Stamp) (n : DWord), s.fibre? f.id = some f → f.status = .waitSig x →
    (s.notifs.find? fun y => match y with | .fibre g _ => g == f.id | _ => false) = some (.fibre f.id n) → signalNow s x = some (v, st) →
    exec (.sigwEvaluate f.id) s = .next (sigwSee { s with notifs := s.notifs.erase (.fibre f.id n) } f.id v st)) ∧
  (∀ (s : State) (f : Fibre) (x : SigWait) (d : Nat), s.fibre? f.id = some f → f.status = .waitSig x → x.deadline = some d → d ≤ s.time.dtc →
    (∀ a ∈ s.accesses, isWaitRead s a ≠ some f.id) →
    ∃ t, exec (.sigwTimeout f.id) s = .next t ∧ MemSame s t ∧
      GoesOn t f.id x.next (if x.reg = 63 then f.regs else (f.setRegs [(x.reg, x.last.setWidth 32), (x.reg + 1, (x.last >>> 32).setWidth 32)]).regs)) ∧
  (∀ (s : State) (f : Fibre) (x : HandleWait) (d : Nat), s.fibre? f.id = some f → f.status = .waitHandle x → x.deadline = some d → d ≤ s.time.dtc →
    ∃ t, exec (.hwaitTimeout f.id) s = .next t ∧ MemSame s t ∧ t.green = s.green ∧
      GoesOn t f.id x.next (if x.reg = 63 then f.regs else (f.setReg x.reg 5).regs)) ∧
  (∀ (s : State) (f : Fibre) (x : SigWait), s.fibre? f.id = some f → f.status = .waitSig x → x.dev ≠ none →
    (∀ a ∈ s.accesses, isWaitRead s a ≠ some f.id) →
    ∃ t a, exec (.remoteSignalPoll f.id) s = .next t ∧ t.accesses = s.accesses ++ [a] ∧ a.op = .sigRead true ∧ a.va = x.va ∧ a.spa = x.spa ∧
      a.dev = x.dev ∧ a.agent = .fibre f.id ∧ { t with accesses := s.accesses, nextId := s.nextId } = s)

/-- R79 to R81, R215, R223: cohorts. A held join group is released; two cohorts merge into one, their join groups united; the lanes with a busy operand split
from the rest, every latch void; a bank that holds a live window and is not accessed becomes drowsy. No byte of memory changes.
What the spec leaves open here is the model's choice: log 98. -/
def Obligations.CohortEventResults : Prop :=
  (∀ (s : State) (crew part g : Nat), exec (.joinRelease crew part g) s = .next (joinRelease s crew part g)) ∧
  (∀ (s : State) (a b : Nat) (x : Fibre) (xs : List Fibre), a ≠ b → s.fibres.filter (·.cohort == a) = x :: xs →
    canMerge (x :: xs) (s.fibres.filter (·.cohort == b)) = true →
    ∃ t, exec (.cohortMerge a b) s = .next t ∧ { t with fibres := s.fibres } = s ∧
      (∀ f ∈ s.fibres, f.cohort = a ∨ f.cohort = b → { f with cohort := a, jgrp := x.jgrp } ∈ t.fibres) ∧
      (∀ f ∈ s.fibres, f.crew ≠ x.crew → f.cohort ≠ b → f ∈ t.fibres)) ∧
  (∀ (s : State) (cohort : Nat) (l : Fibre) (rest : List Fibre) (i : Instr) (e : Enc) (u : Usage),
    s.cohortLanes cohort = l :: rest → peekInstr s l = some i → i.enc = some e → i.usage = some u →
    let late := (l :: rest).filter fun f => isGuarded e && f.isBusy 0 || laneGuard e f && laneBusy e u f
    late ≠ [] → late.length ≠ (l :: rest).length → ((s.fibreGrid l).map (·.llwait)).getD 0 ≠ 0xFFFF →
    ∃ t, exec (.lateWriteSplit cohort) s = .next t ∧ MemSame s t ∧ t.accesses = s.accesses ∧
      t.fibres = s.fibres.map fun f =>
        let g := if f.cohort = cohort then f.voidLatches else f
        if (late.map (·.id)).contains f.id then { g with cohort := s.nextId } else g) ∧
  (∀ (s : State) (core part bank : Nat) (f : Fibre), f ∈ s.fibres → f.part = part → s.fibreCore f = core → f.hasWindow = true →
    f.wb < 64 * bank + 64 → 64 * bank < f.wb + f.ws → bank < 16 →
    ∃ t, exec (.bankDrowsy core part bank) s = .next t ∧ (core, part, bank) ∈ t.drowsy ∧ { t with drowsy := s.drowsy } = s)

/-- R207 to R212, R219, R365 to R367: crews. The dispatcher places the next crew of a grid, whose fibres begin at the entry with zero registers and void latches; a crew
without fibres and operations retires, its grid counting it; the firmware kills a grid marked for it, or one with a park no handler answers; a parked
fibre's handler begins with the fault record in v8 to v15, and without a window for it the grid is killed.
What the spec leaves open here is the model's choice: logs 73, 80, 150. -/
def Obligations.CrewEventResults : Prop :=
  (∀ (s t : State) (g : Grid) (lin core p : Nat), NamesOk s → placeCrew s g lin core p = some t →
    MemSame s t ∧ (∃ c, t.crews = s.crews ++ [c] ∧ c.id = s.nextId ∧ c.grid = g.id ∧ c.linear = lin ∧ c.core = core ∧ c.scratch = [] ∧
      c.scrSize = g.scratch ∧ c.nStart = g.crewf ∧ c.bars = []) ∧
    t.fibres.length = s.fibres.length + g.crewf ∧ (∀ f ∈ s.fibres, ∃ d, { f with dup := d } ∈ t.fibres) ∧
    (∀ f ∈ t.fibres, s.nextId ≤ f.id → f.crew = s.nextId ∧ f.pc = g.entry ∧ f.ws = g.ws ∧ f.map = g.map ∧
      f.regs = List.replicate g.ws 0 ∧ f.status = .ready ∧ VoidLatches f ∧ f.copies = [] ∧ f.lane = f.idx % 32)) ∧
  (∀ (s t : State) (g : Grid) (grid core part lin : Nat), s.grid? grid = some g → g.killed = none → g.doom = none → asidRuns s g.asid = true →
    g.nextCrew = some lin → tileOk s g lin = true →
    (g.coresident = false → placeCrew s g lin core part = some t →
      exec (.crewStart grid core part) s = .next (afterPlace (t.setGrid grid Grid.placed) grid)) ∧
    (g.coresident = true → placeAll (core :: (gridCores s g).filter (· != core)) part grid g.total s = some t →
      exec (.crewStart grid core part) s = .next (afterPlace t grid))) ∧
  (∀ (s : State) (crew : Nat) (c : Crew) (g : Grid), s.crew? crew = some c → (∀ f ∈ s.fibres, f.crew ≠ crew) → crewOwes s crew = false →
    s.grid? c.grid = some g → (∀ gr n, g.src ≠ .node gr n) → (∃ x ∈ s.crews, x.grid = g.id ∧ x.id ≠ crew) →
    ∃ t, exec (.crewRetire crew) s = .next t ∧ MemSame s t ∧ t.crews = s.crews.filter (·.id != crew) ∧
      ∃ h, t.grid? g.id = some h ∧ h.retired = g.retired ++ [c.linear]) ∧
  (∀ (s : State) (grid c : Nat) (d : DWord) (g : Grid), s.grid? grid = some g → g.killed = none → g.doom = some (c, d) →
    exec (.gridKill grid) s = .next (killGrid s grid c)) ∧
  (∀ (s : State) (grid : Nat) (d : DWord) (g : Grid), s.grid? grid = some g → g.killed = none → g.doom = none → fatalPark s grid = some d →
    exec (.gridKill grid) s = .next (killGrid (s.setGrid grid fun g => { g with doom := some (2, d) }) grid 2)) ∧
  (∀ (s : State) (id : Nat), ∀ f ∈ (endFibre s id).fibres, f.id = id → f.status = .halted) ∧
  (∀ (s : State) (x : Fibre) (p : Parked) (g : Grid) (c : Crew) (part lane wb : Nat), NamesOk s → s.fibre? x.id = some x →
    wantsHandler s x = some (p, g, c) →
    (handlerPlace s c.core x = some (part, lane, wb) → freeIndex s c < 65536 →
      ∃ t, exec (.handlerFibreStart x.id) s = .next t ∧ MemSame s t ∧
        (FibreIs t s.nextId fun h => h.crew = c.id ∧ h.idx = freeIndex s c ∧ h.part = part ∧ h.lane = lane ∧ h.wb = wb ∧ h.ws = 16 ∧
          h.map = g.map ∧ h.pc = g.handler ∧ h.handlerFor = some x.id ∧ h.status = .ready ∧ VoidLatches h ∧
          (∀ j < 8, h.reg j = 0) ∧ ∀ j < 8, h.reg (8 + j) = BitVec.ofNat 32 (natBits (recBits p.frec) (32 * j + 31) (32 * j))) ∧
        FibreIs t x.id fun h => h.status = .parked { p with started := true } ∧ h.regs = x.regs ∧ h.pc = x.pc) ∧
    (handlerPlace s c.core x = none → p.since + usTicks 1000 ≤ s.time.dtc →
      exec (.handlerWindowTimeout x.id) s =
        .next (killGrid (s.setGrid g.id fun y => { y with doom := some (2, p.lp) }) g.id 2)))

/-- R17, R19 to R21, R31, R34 to R38, R399: queues. A doorbell of its function makes a queue's head be read, and gives an IDLE queue with a packet a free slot; a fetch takes the packet at
RDIDX, which moves on, and aborts the queue where the slot cannot be read; the scheduler maps the waiting queue that comes next, takes the slot of one whose quantum is
over, and raises the priority of one that waits; a packet of an ABORTED queue ends with UPSTREAM.
What the spec leaves open here is the model's choice: logs 71, 75, 139 to 141. -/
def Obligations.QueueResults : Prop :=
  (∀ (s : State) (vf : Nat) (value : DWord) (q : Queue), s.queue? value.toNat = some q → value.toNat < 65536 → q.vf = vf →
    exec (.doorbell vf value) s = .next (queueBell s q.qnum)) ∧
  (∀ (s : State) (vf : Nat) (value : DWord) (q : Queue), s.queue? value.toNat = some q → 65536 ≤ value.toNat ∨ q.vf ≠ vf →
    exec (.doorbell vf value) s = .next s) ∧
  (∀ (s : State) (q : Queue), s.queue? q.qnum = some q →
    (q.state = .active ∨ q.state = .blocked → QueueIs (queueBell s q.qnum) q.qnum fun x => x = { q with look := true }) ∧
    (∀ n, q.state = .idle → headFound s q = true → freeHwSlot s q.vf = some n → QueueIs (queueBell s q.qnum) q.qnum fun x =>
      x.state = .active ∧ x.slot = some n ∧ x.look = true ∧ x.rdidx = q.rdidx) ∧
    (q.state = .idle → headFound s q = true → freeHwSlot s q.vf = none → QueueIs (queueBell s q.qnum) q.qnum fun x =>
      x.state = .unmapped ∧ x.slot = q.slot ∧ x.rdidx = q.rdidx) ∧
    (q.state = .idle → headFound s q = false → queueBell s q.qnum = s) ∧
    (q.state = .unmapped → q.look = false → headFound s q = true → QueueIs (queueBell s q.qnum) q.qnum fun x =>
      x = { q with look := true, waitSince := s.time.dtc }) ∧
    (q.state = .unmapped → q.look = true ∨ headFound s q = false → queueBell s q.qnum = s) ∧ (q.state = .aborted → queueBell s q.qnum = s.setQueue q.qnum fun x => { x with look := true })) ∧
  (∀ (s : State) (q : Queue) (h : Nat) (bs : List Byte), s.queue? q.qnum = some q → mayFetch s q = true → headWord s q = .ok h → h % 256 ≠ 0 →
    devRead s q.vf q.asid (slotVa q q.rdidx) 64 = .ok bs → pktMalformed s q.vf (bytesNat bs) = false →
    ∃ t, exec (.packetFetch q.qnum) s = .next t ∧ (QueueIs t q.qnum fun x => x.rdidx = q.rdidx + 1 ∧ x.state = q.state ∧ x.slot = q.slot) ∧
      ∃ k, t.packets = s.packets ++ [k] ∧ k.queue = q.qnum ∧ k.index = q.rdidx ∧ k.bytes = bs ∧ k.state = .fetched ∧ k.cause = pktCause q q.rdidx) ∧
  (∀ (s : State) (q : Queue) (c : Nat), s.queue? q.qnum = some q → mayFetch s q = true → headWord s q = .error c →
    exec (.packetFetch q.qnum) s = .next (slotFault s q)) ∧
  (∀ (s : State) (q : Queue) (k : Packet), s.queue? q.qnum = some q → q.state = .aborted →
    s.packets.find? (fun p => p.queue == q.qnum && decide (p.state = .fetched)) = some k →
    exec (.queueDrain q.qnum) s = .next (upstreamPacket s k)) ∧
  (∀ (s : State) (q : Queue), s.queue? q.qnum = some q → q.state = .aborted → (∀ p ∈ s.packets, p.queue = q.qnum → p.state ≠ .fetched) →
    q.rdidx < s.wridx q → (∀ h, headWord s q = .ok h → h % 256 ≠ 0) →
    ∃ t, exec (.queueDrain q.qnum) s = .next t ∧ QueueIs t q.qnum fun x => x.rdidx = q.rdidx + 1 ∧ x.state = .aborted) ∧
  (∀ (s : State) (q : Queue) (slot : Nat), slot < 128 → slot / 16 ∉ s.dev.lostDies → (∀ x ∈ s.queues, x.slot ≠ some slot) → nextQueue s = some q → s.queue? q.qnum = some q →
    (∀ p ∈ s.packets, p.queue = q.qnum → p.state ≠ .waiting) →
    ∃ t, exec (.queueMap slot) s = .next t ∧ QueueIs t q.qnum fun x =>
      x.state = .active ∧ x.slot = some slot ∧ x.effPrio = q.prio ∧ x.mappedAt = s.time.dtc ∧ x.rdidx = q.rdidx) ∧
  (∀ (s : State) (q : Queue) (slot : Nat), s.queues.find? (fun q => q.slot == some slot) = some q → s.queue? q.qnum = some q →
    q.mappedAt + 4000 * quantumOf s q.vf ≤ s.time.dtc → (∃ w ∈ s.queues, queueWaits s w = true ∧ effOf s q ≤ effOf s w) →
    q.state = .active ∨ q.state = .blocked →
    ∃ t, exec (.quantumEnd slot) s = .next t ∧ QueueIs t q.qnum fun x => x.state = .unmapped ∧ x.slot = none ∧ x.waitSince = s.time.dtc ∧ x.rdidx = q.rdidx) ∧
  (∀ (s : State) (q : Queue), s.queue? q.qnum = some q → queueWaits s q = true →
    ∃ t, exec (.priorityAging q.qnum) s = .next t ∧ { t with queues := s.queues } = s ∧
      QueueIs t q.qnum fun x =>
        x = { q with effPrio := if q.look then min 7 (q.prio + (s.time.dtc - q.waitSince) / 80000000) else q.prio }) ∧
  (∀ (s : State) (q : Queue), nextQueue s = some q → q ∈ s.queues ∧ queueWaits s q = true ∧
    ∀ w ∈ s.queues, queueWaits s w = true → (freeHwSlot s w.vf).isSome = true →
      effOf s w < effOf s q ∨ effOf s w = effOf s q ∧ q.waitSince ≤ w.waitSince)

/-- R11: the updates of a signal by packets, each one atomic operation at the signal's home: a completion decrement and a SIGNAL DEC take one from a
positive value and leave any other; an abort write replaces a value that is zero or positive by minus the code and leaves a negative one. -/
def Obligations.SignalUpdatesAtHome : Prop :=
  (∀ (s : State) (die spa vf : Nat) (id : DWord) (bs : List Nat), MemCanonical s → spa / 2 ^ 49 < 3 → atomStorage s spa 8 = .ok bs → eccFails s bs = false → bs.Nodup →
    let old : DWord := BitVec.ofNat 64 (bytesNat (bs.map s.getByte))
    (∃ t, sigAtHome s die spa .sigDec id vf = .ok t ∧ MemSameBut bs s t ∧
      bs.map t.getByte = natBytes 8 (if 0 < old.toInt then old - 1 else old).toNat) ∧
    (∀ code, 1 ≤ code → code ≤ 7 → ∃ t, sigAtHome s die spa (.sigAbort code) id vf = .ok t ∧ MemSameBut bs s t ∧
      bs.map t.getByte = natBytes 8 (if 0 ≤ old.toInt then BitVec.ofInt 64 (-(code : Int)) else old).toNat)) ∧
  (∀ (s : State) (vf asid die spa : Nat) (va id : DWord) (op : MemOp), va.toNat % 8 = 0 → va.toNat < 2 ^ 57 →
    translateWalk s vf asid va.toNat .write = .ok spa none → sigUpdate s vf asid die va op id = sigAtHome s die spa op id vf) ∧
  (∀ (s t : State) (k : Packet) (cause : DWord), s.packet? k.id = some k → k.csig ≠ 0 → k.csig.toNat % 8 = 0 →
    (sigUpdate (packetRelease s k) k.vf k.asid (queueDie (packetRelease s k) k.queue) k.csig .sigDec k.op = .ok t →
      completePacket s k.id 0 cause =
        queueIdle (emit (dropPacket t k.id) (queueSrc (packetRelease s k) k.queue) 0x0102 k.op cause 0 k.vf) k.queue) ∧
    (∀ code, code ≠ 0 → sigUpdate s k.vf k.asid (queueDie s k.queue) k.csig (.sigAbort code) k.op = .ok t →
      completePacket s k.id code cause =
        emit (abortQueue (dropPacket t k.id) k.queue code k.index k.op) (queueSrc s k.queue) 0x0103 k.op cause code k.vf))

/-- R9 to R12, R24, R27 to R32, R206, R285, R340, R352: packets. A fetched packet of a type starts with PKT_START. A kernel packet launches its grid, or aborts with the code of its
check; a graph, copy, tile or collective packet hands its work to the Wheels, a channel, a core, the collective engines; an invoke packet stores the handle it mints;
a signal packet updates its signal; a barrier packet completes, aborts or waits as its signals say, and with TIMEOUT when its cone has run out. Completion
leaves the packet out; an abort leaves its queue ABORTED with the code.
What the spec leaves open here is the model's choice: logs 71, 77, 90, 142. -/
def Obligations.PacketResults : Prop :=
  (∀ (s : State) (p typ : Nat) (k : Packet), s.packet? p = some k → k.state = .fetched → k.typ = typ → mayStart s k = true →
    ∃ s1, Starts s p typ { k with state := .running } s1 ∧ MemSame s s1 ∧ s1.queues = s.queues ∧ s1.packet? p = some { k with state := .running } ∧
      (s.flue.find? (·.src == queueSrc s k.queue) = none →
        ⟨queueSrc s k.queue, [⟨0x0101, typ % 2 ^ 16, k.vf, queueSrc s k.queue, k.op, k.cause, s.time.dtc⟩]⟩ ∈ s1.flue)) ∧
  (∀ (s s1 : State) (p : Nat) (k : Packet), Starts s p 1 k s1 →
    let r := makeGrid s1 (.packet k.id) k.op k.vf k.asid k.num 255 (k.num.testBit 16) (pktDetail s1 k) false
    (∀ g, r = .ok g → couldHold s1 g = true → exec (.kernelPacket p) s = .next { s1 with grids := s1.grids ++ [g], nextId := s1.nextId + 1 }) ∧
    (∀ g, r = .ok g → couldHold s1 g = false → exec (.kernelPacket p) s = .next (abortPacket s1 k 7 k.op)) ∧
    (∀ c, r = .error c → exec (.kernelPacket p) s = .next (abortPacket s1 k c k.op))) ∧
  (∀ (s s1 : State) (p : Nat) (k : Packet), Starts s p 2 k s1 →
    (∀ g, readGraph s1 k = .ok g → exec (.graphPacket p) s = .next (rootsReady (reserveCores g.id g.asid g.scr g.waiting
      (setWork { s1 with graphs := s1.graphs ++ [g], nextId := s1.nextId + 1 } g)) g.id)) ∧
    (∀ c, readGraph s1 k = .error c → exec (.graphPacket p) s = .next (abortPacket s1 k c k.op))) ∧
  (∀ (s s1 : State) (p : Nat) (k : Packet), pktRuns s p = true → Starts s p 3 k s1 →
    (natBits k.num 255 192 = 0 → exec (.copyPacket p) s = .next (completePacket s1 k.id 0 k.op)) ∧
    (natBits k.num 255 192 ≠ 0 → ∃ t e, exec (.copyPacket p) s = .next t ∧ MemSame s1 t ∧
      (t.channel (packetChan s1 k.vf k.num).1).entries = (s1.channel (packetChan s1 k.vf k.num).1).entries ++ [e] ∧
      e.kind = .copy (packetCopy k.num (packetChan s1 k.vf k.num).1) ∧ e.waiter = .packet k.id ∧ e.op = k.op)) ∧
  (∀ (s s1 : State) (p : Nat) (k k0 : Packet) (n : Nat), s.packet? p = some k0 → pktRuns s p = true → Starts s p 4 k s1 →
    let all := tileCores s k0.vf k0.asid
    let cs := if natBits k0.num 47 32 = 0xFFFF then all else all.filter (· == natBits k0.num 47 32)
    let core := cs.getD (choose s1 cs.length).1 0
    cs ≠ [] → devNat s1 k.vf k.asid (k.u64 8) 64 = .ok n →
    (tileCheck n (packetScr s1 k.vf k.asid core).2 = none → ∃ t o, exec (.tilePacket p) s = .next t ∧ MemSame s1 t ∧
      (t.core core).mxq = (s1.core core).mxq ++ [o] ∧ o.kind = .tile (tileRecOf n) ∧ o.waiter = .packet k.id ∧ o.op = k.op) ∧
    (∀ c, tileCheck n (packetScr s1 k.vf k.asid core).2 = some c →
      exec (.tilePacket p) s = .next (abortPacket (choose s1 cs.length).2 k 7 k.op))) ∧
  (∀ (s s1 : State) (p : Nat) (k k0 : Packet), s.packet? p = some k0 → Starts s p 5 k s1 →
    let r := makeColl s (.packet p) k0.op k0.vf k0.asid (k0.u64 8) 255
    (∀ c, r = .ok c → collFull s c.vf (c.parts.map (·.die)) = false → exec (.collectivePacket p) s = .next (startColl s1 { c with
      id := s1.nextId, op := k.op, parts := c.parts.map fun q => { q with seq := if c.comm = 0 then s1.nextId else q.seq } })) ∧
    (∀ c, r = .ok c → collFull s c.vf (c.parts.map (·.die)) = true → exec (.collectivePacket p) s = .next s) ∧
    (∀ c, r = .error c → exec (.collectivePacket p) s = .next (abortPacket s1 k c k.op))) ∧
  (∀ (s s1 s2 s3 : State) (p : Nat) (k k0 : Packet) (h : DWord), s.packet? p = some k0 → Starts s p 6 k s1 →
    gwMint s1 (queueDie s1 k0.queue) k0.vf k0.op = .ok (h, s2) →
    let s4 := gwStart s2 (queueDie s1 k0.queue) h k0.vf k0.asid (k0.u64 8)
    let s5 := if k0.rel = 0 then s4 else (s4.passClock (.op k0.op) (.op (handleOp s2 h))).passClock (.op k0.op) (.handle h)
    devWrite s5 k0.vf k0.asid (queueDie s1 k0.queue) (handleOp s2 h) (k0.u64 16) (natBytes 8 h.toNat) = .ok s3 →
    exec (.invokePacket p) s = .next (endPacket s3 p (handleOp s2 h))) ∧
  (∀ (s : State) (k : Packet) (op : DWord), s.packet? k.id = some k →
    (opWrites s op = false → endPacket s k.id op = completePacket s k.id 0 op) ∧
    (opWrites s op = true → k.rel = 2 → ∃ x, (endPacket s k.id op).packet? k.id = some x ∧ x = { k with state := .ending op })) ∧
  (∀ (s s1 t : State) (p : Nat) (k k0 : Packet), s.packet? p = some k0 → Starts s p 9 k s1 →
    (k0.num.testBit 16 = false →
      sigUpdate s1 k.vf k.asid (queueDie s1 k.queue) (k.u64 8) (.sigSet (k.u64 16)) k.op = .ok t →
      exec (.signalSet p) s = .next (endPacket t k.id k.op)) ∧
    (k0.num.testBit 16 = true → sigUpdate s1 k.vf k.asid (queueDie s1 k.queue) (k.u64 8) .sigDec k.op = .ok t →
      exec (.signalDec p) s = .next (endPacket t k.id k.op))) ∧
  (∀ (s s1 : State) (p : Nat) (k : Packet), (Starts s p 7 k s1 → exec (.barrierAll p) s = .next (barrierStart s1 k)) ∧
    (Starts s p 8 k s1 → exec (.barrierAny p) s = .next (barrierStart s1 k))) ∧
  (∀ (s : State) (k : Packet), s.packet? k.id = some k →
    let seen := barrierScan (k.typ == 8) (waitValue { s with free := s.free + 1 } k) k.waits []
    (seen = none → ∃ x, (barrierStart s k).packet? k.id = some x ∧ x.state = .waiting ∧ x.bytes = k.bytes ∧
      x.deadline = some (barrierCone s k)) ∧
    (∀ c, seen = some c → barrierStart s k = barrierEnd { s with free := s.free + 1 } k c none)) ∧
  (∀ (any : Bool) (look : DWord → Except Nat Int) (ws : List (Nat × DWord)) (vs : List Int), (ws.mapM fun w => look w.2) = .ok vs →
    barrierScan any look ws [] = barrierDecides any vs ∧
    ((∀ v ∈ vs, if any then v ≠ 0 else 0 ≤ v) → ∀ w post,
      (∀ c, look w.2 = .error c → barrierScan any look (ws ++ w :: post) [] = some 2) ∧
      (any = true → look w.2 = .ok 0 → barrierScan any look (ws ++ w :: post) [] = some 0) ∧
      (∀ v, any = false → look w.2 = .ok v → v < 0 → barrierScan any look (ws ++ w :: post) [] = some 1))) ∧
  (∀ vs : List Int, (barrierDecides false vs = some 0 ↔ ∀ v ∈ vs, v = 0) ∧ (barrierDecides false vs = some 1 ↔ ∃ v ∈ vs, v < 0)) ∧
  (∀ vs : List Int, vs ≠ [] → (barrierDecides true vs = some 0 ↔ ∃ v ∈ vs, v = 0) ∧ (barrierDecides true vs = some 1 ↔ ∀ v ∈ vs, v < 0)) ∧
  (∀ (s : State) (k : Packet) (op : DWord), s.packet? k.id = some k → barrierActive s k = true → Notif.packet k.id op ∈ s.notifs →
    (∀ o, Notif.packet k.id o ∈ s.notifs → o = op) →
    exec (.barrierEvaluate k.id) s = .next (barrierLook { s with free := s.free + 1, notifs := s.notifs.erase (.packet k.id op) } k (some op)).2) ∧
  (∀ (s : State) (k : Packet) (d : Nat), s.packet? k.id = some k → k.state = .waiting → k.deadline = some d → d ≤ s.time.dtc →
    (barrierActive s k = true → (barrierLook s k none).1 = false) →
    ∃ first, exec (.barrierPacketTimeout k.id) s =
      .next (completePacket (emit s (queueSrc s k.queue) 0x0605 k.op 0 first k.vf) k.id 5 k.op)) ∧
  (∀ (s : State) (k : Packet) (cause : DWord), s.packet? k.id = some k → k.csig = 0 →
    (∀ x ∈ (completePacket s k.id 0 cause).packets, x.id ≠ k.id) ∧
    (∀ code q, code ≠ 0 → s.queue? k.queue = some q → q.qnum = k.queue →
      (∀ x ∈ (completePacket s k.id code cause).packets, x.id ≠ k.id) ∧
      QueueIs (completePacket s k.id code cause) k.queue fun x => x.state = .aborted ∧ x.slot = none ∧
        (q.abort = 0 → x.abort = BitVec.ofNat 64 (code * 2 ^ 56 + k.index % 2 ^ 56) ∧ x.abcid = k.op) ∧
        (q.abort ≠ 0 → x.abort = q.abort ∧ x.abcid = q.abcid))) ∧
  (∀ (s : State) (die spa new vf : Nat) (op : MemOp) (id : DWord) (bs : List Nat), MemCanonical s → spa / 2 ^ 49 < 3 → atomStorage s spa 8 = .ok bs → eccFails s bs = false →
    bs.Nodup → opNew op (bytesNat (bs.map s.getByte)) = some new →
    ∃ t, sigAtHome s die spa op id vf = .ok t ∧ bs.map t.getByte = natBytes 8 new ∧ MemSameBut bs s t)

/-- R15, R35, R36, R381, R382: the step of a command serves the head of its function's list: an unknown code or a nonzero zero field ends with BADCMD, a command that its function may not
give with DENIED, whatever it asks; completion writes STATUS. The queue commands have their effect and end with OK, or end with the status of R36 and no effect.
What the spec leaves open here is the model's choice: logs 38, 39, 40, 42, 65. -/
def Obligations.QueueCommandResults : Prop :=
  (∀ (vf : Nat) (s : State) (f : Fn) (c : Cmd) (b : CmdBlock), headCmd s vf = some (f, c, some b) → cmdKnown b.code = false ∨ b.zero ≠ 0 →
    ∀ i ∈ ([.queueSet vf, .genBump vf, .kill vf, .healthRead vf, .ckptTake vf, .exportMem vf, .vfReset vf, .imageStage vf] : List Instr), Fails i s f b 0xFFFE) ∧
  (∀ (vf : Nat) (s : State) (f : Fn) (c : Cmd) (b : CmdBlock), headCmd s vf = some (f, c, some b) → b.zero = 0 → vf ≠ 0 →
    (∀ i k, (i, k) ∈ ([(.traceLevel vf, 0x10), (.ringSize vf, 0x11), (.saggarRead vf, 0x12), (.saggarClear vf, 0x13), (.healthRead vf, 0x18),
      (.dbgAttach vf, 0x1A), (.greenQuota vf, 0x1C), (.partSet vf, 0x30), (.vfSlice vf, 0x31), (.vfQuota vf, 0x32), (.vfReset vf, 0x33),
      (.profileSet vf, 0x34), (.imageStage vf, 0x38), (.imageActivate vf, 0x39)] : List (Instr × Nat)) → b.code = k → Fails i s f b 0xFFFD)) ∧
  (∀ (s t : State) (f : Fn) (b : CmdBlock) (st : Nat), b.csig = 0 →
    devWrite (hostSettle (s.setFn f.vf fun g => { g with cmds := g.cmds.drop 1 })) f.vf f.asid 0 0 (b.va + 2) (natBytes 2 st) = .ok t → cmdEnd s f b st = t) ∧
  (∀ (vf : Nat) (s : State) (f : Fn) (c : Cmd) (b : CmdBlock), MemCanonical s → Serves s vf 1 f c b → 3 ≤ b.arg 2 → b.arg 2 ≤ 16 → b.arg 3 ≤ 7 → b.arg 4 ≤ 1 →
    (∀ n spa x s1 y, (s.queues.filter (·.vf == vf)).length < f.quotaQueues → freeQueue s = (some n, s1) → b.arg 0 % 64 = 0 → b.arg 0 < 2 ^ 57 →
      inWindow s f (b.arg 0) = true → translateWalk s vf f.asid (b.arg 0) .write = .ok spa x → b.arg 1 % 4096 = 0 → b.arg 1 < 2 ^ 57 →
      (∃ a, translateWalk s vf f.asid (b.arg 1) .read = .ok a y) →
      Ends (.queueCreate vf) s f b 0 fun u => (∀ q ∈ s.queues, q.qnum ≠ n) ∧ MemSameBut ((List.range 64).map (spa % 2 ^ 49 + ·)) s u ∧
        ∃ q, u.queues = s.queues ++ [q] ∧ q.qnum = n ∧ q.vf = vf ∧ q.state = .idle ∧ q.rdidx = 0 ∧ q.abort = 0 ∧ q.logsz = b.arg 2 ∧ q.prio = b.arg 3 ∧
          q.enqOk = (b.arg 4 == 1) ∧ q.ring = BitVec.ofNat 64 (b.arg 1) ∧ q.desc = spa % 2 ^ 49 ∧ q.slot = none) ∧
    (f.quotaQueues ≤ (s.queues.filter (·.vf == vf)).length → Fails (.queueCreate vf) s f b 1) ∧
    ((s.queues.filter (·.vf == vf)).length < f.quotaQueues → (freeQueue s).1.isSome = true → b.arg 0 % 64 ≠ 0 → Fails (.queueCreate vf) s f b 2)) ∧
  (∀ (vf : Nat) (s : State) (f : Fn) (c : Cmd) (b : CmdBlock) (q : Queue), s.queue? (b.arg 0) = some q → q.vf = f.vf →
    (Serves s vf 2 f c b → q.state = .aborted ∨ q.state = .idle → isDrained s q (if c.phase = 0 then s.wridx q else c.due) = true →
      Ends (.queueReset vf) s f b 0 fun u => QueueIs u (b.arg 0) fun x => x.state = .idle ∧ x.abort = 0 ∧ x.abcid = 0 ∧ x.rdidx = q.rdidx) ∧
    (Serves s vf 2 f c b → q.state = .aborted → isDrained s q (if c.phase = 0 then s.wridx q else c.due) = false →
      Waits (.queueReset vf) s fun u => u.queues = s.queues ∧ MemSame s u) ∧
    (Serves s vf 2 f c b → q.state = .active ∨ q.state = .blocked ∨ q.state = .unmapped → Fails (.queueReset vf) s f b 3) ∧
    (Serves s vf 3 f c b → b.arg 1 ≤ 7 → b.arg 2 ≤ 1 → Ends (.queueSet vf) s f b 0 fun u => QueueIs u (b.arg 0) fun x =>
      x.prio = b.arg 1 ∧ x.enqOk = (b.arg 2 == 1) ∧ x.state = q.state ∧ x.rdidx = q.rdidx ∧ x.slot = q.slot) ∧
    (Serves s vf 13 f c b → q.state = .idle → Ends (.queueDestroy vf) s f b 0 fun u =>
      u.queue? (b.arg 0) = none ∧ { u with queues := s.queues, packets := s.packets, clocks := s.clocks } = s ∧
      (∀ x ∈ s.queues, x.qnum ≠ b.arg 0 → x ∈ u.queues) ∧ (∀ p ∈ s.packets, p.queue ≠ b.arg 0 → p ∈ u.packets) ∧
      ∀ p ∈ s.packets, p.queue = b.arg 0 → { p with queue := 65536 } ∈ u.packets) ∧
    (Serves s vf 13 f c b → q.state = .active ∨ q.state = .blocked ∨ q.state = .unmapped → Fails (.queueDestroy vf) s f b 3)) ∧
  (∀ (vf : Nat) (s : State) (f : Fn) (c : Cmd) (b : CmdBlock), (∀ q, s.queue? (b.arg 0) = some q → q.vf ≠ f.vf) →
    (Serves s vf 2 f c b → Fails (.queueReset vf) s f b 0xFFFD) ∧ (Serves s vf 3 f c b → Fails (.queueSet vf) s f b 0xFFFD) ∧
    (Serves s vf 13 f c b → Fails (.queueDestroy vf) s f b 0xFFFD))

/-- R53, R241, R262, R270, R273, R301, R368, R384: commands over decode maps, view regions, copy templates, generations, residency and KILL. Each has its effect and
ends with OK, or ends with the status of its rule and no effect; REGION_CLEAR, TEMPLATE_CLEAR and GEN_BUMP wait for what is under way.
What the spec leaves open here is the model's choice: logs 38, 41, 42, 83. -/
def Obligations.ObjectCommandResults : Prop :=
  (∀ (vf : Nat) (s : State) (f : Fn) (c : Cmd) (b : CmdBlock) (bs : List Byte), Serves s vf 4 f c b → ownAsid s f (b.arg 0) = true →
    devRead s vf f.asid (BitVec.ofNat 64 (b.arg 2)) 2048 = .ok bs → 3 ≤ b.arg 1 → b.arg 1 ≤ 7 →
    let es := (List.range 1024).map fun i => bytesNat ((bs.drop (2 * i)).take 2)
    ((∃ e ∈ es.take 0x380, entryValid e = false) → Fails (.decodeLoad vf) s f b 1) ∧
    ((∀ e ∈ es.take 0x380, entryValid e = true) → (∃ e ∈ es.drop 0x380, e ≠ 0xFFFF) → Fails (.decodeLoad vf) s f b 2) ∧
    ((∀ e ∈ es.take 0x380, entryValid e = true) → (∀ e ∈ es.drop 0x380, e = 0xFFFF) → mapBusy s (b.arg 0) (b.arg 1) = true →
      Fails (.decodeLoad vf) s f b 3) ∧
    ((∀ e ∈ es.take 0x380, entryValid e = true) → (∀ e ∈ es.drop 0x380, e = 0xFFFF) → mapBusy s (b.arg 0) (b.arg 1) = false →
      Ends (.decodeLoad vf) s f b 0 fun u => { u with ctxs := s.ctxs } = s ∧ ∀ x ∈ u.ctxs, x.asid = b.arg 0 →
        ∀ i < 1024, ((x.maps.find? fun m => m.map == b.arg 1 && m.idx == i).map (·.val)).getD 0xFFFF = es.getD i 0xFFFF)) ∧
  (∀ (vf : Nat) (s : State) (f : Fn) (c : Cmd) (b : CmdBlock) (n : Nat), Serves s vf 5 f c b →
    devNat s vf f.asid (BitVec.ofNat 64 (b.arg 2)) 16 = .ok n → b.arg 0 ≤ 15 → b.arg 1 ≤ 63 →
    let r := regionOf (b.arg 0) n
    let taken := s.regions.any fun g => g.stack == b.arg 0 && g.slot == b.arg 1 && g.image.getLsbD 127
    let count := (s.regions.filter fun g => g.stack == b.arg 0 && g.vf == vf && g.image.getLsbD 127).length
    (taken = true → Fails (.regionSet vf) s f b 1) ∧ (taken = false → regionFieldBad n = true → Fails (.regionSet vf) s f b 2) ∧
    (taken = false → regionFieldBad n = false → regionRangeBad s r = true → Fails (.regionSet vf) s f b 3) ∧
    (taken = false → regionFieldBad n = false → regionRangeBad s r = false → regionOverlap s r = true → Fails (.regionSet vf) s f b 4) ∧
    (taken = false → regionFieldBad n = false → regionRangeBad s r = false → regionOverlap s r = false → count < f.quotaRegions →
      Ends (.regionSet vf) s f b 0 fun u => { u with regions := s.regions } = s ∧
        (∃ g ∈ u.regions, g.stack = b.arg 0 ∧ g.slot = b.arg 1 ∧ g.vf = vf ∧ g.image = BitVec.ofNat 128 (n % 2 ^ 127 + 2 ^ 127)) ∧
        ∀ x ∈ s.regions, x.stack ≠ b.arg 0 ∨ x.slot ≠ b.arg 1 → x ∈ u.regions) ∧
    (taken = false → regionFieldBad n = false → regionRangeBad s r = false → regionOverlap s r = false → f.quotaRegions ≤ count →
      Fails (.regionSet vf) s f b 5)) ∧
  (∀ (vf : Nat) (s : State) (f : Fn) (c : Cmd) (b : CmdBlock) (g : RegionReg), Serves s vf 6 f c b →
    (s.regions.find? fun g => g.stack == b.arg 0 && g.slot == b.arg 1 && g.image.getLsbD 127) = some g →
    (g.vf ≠ vf → Fails (.regionClear vf) s f b 0xFFFD) ∧
    (g.vf = vf → regionInFlight s (regionOf g.stack g.image.toNat) = true → exec (.regionClear vf) s = .next s) ∧
    (g.vf = vf → regionInFlight s (regionOf g.stack g.image.toNat) = false →
      Ends (.regionClear vf) s f b 0 fun u => { u with regions := s.regions } = s ∧ g ∉ u.regions ∧
        { g with image := BitVec.ofNat 128 (g.image.toNat % 2 ^ 127) } ∈ u.regions ∧ ∀ x ∈ s.regions, x ≠ g → x ∈ u.regions)) ∧
  (∀ (vf : Nat) (s : State) (f : Fn) (c : Cmd) (b : CmdBlock) (n : Nat), Serves s vf 7 f c b → foreignCluster s vf (b.arg 0) = false →
    devNat s vf f.asid (BitVec.ofNat 64 (b.arg 4)) 64 = .ok n → slotBad b = false →
    let d := copyDescOf n
    let ch := s.channel (4 * b.arg 0 + b.arg 1)
    let bad := copyDescBad n 0 false || d.skind != 0 || (d.dkind != 0 && d.dkind != 3) || d.ck == 1 || d.ck == 3
    ((∃ t ∈ ch.templates, t.idx = b.arg 2 ∧ t.vf ≠ vf) → Fails (.templateSet vf) s f b 1) ∧
    ((∀ t ∈ ch.templates, t.idx = b.arg 2 → t.vf = vf) → bad = true → Fails (.templateSet vf) s f b 2) ∧
    ((∀ t ∈ ch.templates, t.idx = b.arg 2 → t.vf = vf) → bad = false → ownAsid s f (b.arg 3) = false → Fails (.templateSet vf) s f b 3) ∧
    ((∀ t ∈ ch.templates, t.idx = b.arg 2 → t.vf = vf) → bad = false → ownAsid s f (b.arg 3) = true →
      Ends (.templateSet vf) s f b 0 fun u => { u with channels := s.channels } = s ∧
        ((u.channel (4 * b.arg 0 + b.arg 1)).templates.find? (·.idx == b.arg 2)) = some ⟨b.arg 2, vf, b.arg 3, d⟩ ∧
        (u.channel (4 * b.arg 0 + b.arg 1)).entries = ch.entries)) ∧
  (∀ (vf : Nat) (s : State) (f : Fn) (c : Cmd) (b : CmdBlock) (t : Template), Serves s vf 8 f c b → foreignCluster s vf (b.arg 0) = false →
    ((s.channel (4 * b.arg 0 + b.arg 1)).templates.find? (·.idx == b.arg 2)) = some t →
    (t.vf ≠ vf → Fails (.templateClear vf) s f b 0xFFFD) ∧
    (t.vf = vf → (∃ e ∈ (s.channel (4 * b.arg 0 + b.arg 1)).entries, e.tmpl = some (b.arg 2)) → exec (.templateClear vf) s = .next s) ∧
    (t.vf = vf → (∀ e ∈ (s.channel (4 * b.arg 0 + b.arg 1)).entries, e.tmpl ≠ some (b.arg 2)) →
      (∀ x ∈ s.ctxs, x.image = none) → Ends (.templateClear vf) s f b 0 fun u => { u with channels := s.channels } = s ∧
        ∀ y ∈ (u.channel (4 * b.arg 0 + b.arg 1)).templates, y.idx ≠ b.arg 2)) ∧
  (∀ (vf : Nat) (s : State) (f : Fn) (c : Cmd) (b : CmdBlock), Serves s vf 9 f c b →
    (ownAsid s f (b.arg 0) = false → Fails (.genBump vf) s f b 0xFFFD) ∧
    (ownAsid s f (b.arg 0) = true → (∃ a ∈ s.accesses, a.asid = b.arg 0 ∧ a.gen ≠ s.gen (b.arg 0)) → exec (.genBump vf) s = .next s) ∧
    (ownAsid s f (b.arg 0) = true → (∀ a ∈ s.accesses, a.asid = b.arg 0 → a.gen = s.gen (b.arg 0) ∧ (a.resp ≠ .none ∨ a.done = 0 ∧ a.half = none)) →
      Ends (.genBump vf) s f b 0 fun u => MemSame s u ∧ u.gen (b.arg 0) = (s.gen (b.arg 0) + 1) % 256 ∧ (∀ x ∈ u.tlb, x.asid ≠ b.arg 0) ∧
        ∀ n, n ≠ b.arg 0 → u.gen n = s.gen n)) ∧
  (∀ (vf : Nat) (s : State) (f : Fn) (c : Cmd) (b : CmdBlock) (r : ResReq), Serves s vf 10 f c b → ownAsid s f (b.arg 0) = true →
    (s.resReqs.find? fun r => r.covers s vf (b.arg 0) (b.arg 1) && r.asked) = some r →
    (b.arg 2 = 1 → Ends (.resDone vf) s f b 0 fun u => r ∉ u.resReqs ∧ MemSame s u ∧ ∀ o ∈ s.owed, o.ref = r.ref → { o with val := some 2 } ∈ u.owed) ∧
    (1 < b.arg 2 → Fails (.resDone vf) s f b 0xFFFC)) ∧
  (∀ (vf : Nat) (s : State) (f : Fn) (c : Cmd) (b : CmdBlock), Serves s vf 11 f c b → vf ≤ 256 →
    let bad (va n align : Nat) : Bool := va % align != 0 || 2 ^ 57 < va + n || (pagesOf va n).any fun p => !inWindow s f p.1
    (bad (b.arg 0) 65536 16 = false → bad (b.arg 1) 8 8 = false → bad (b.arg 2) 8 8 = false → Ends (.resringSet vf) s f b 0 fun u =>
      OnlyFn s u vf fun g => g.resRing = some ⟨BitVec.ofNat 64 (b.arg 0), BitVec.ofNat 64 (b.arg 1), BitVec.ofNat 64 (b.arg 2)⟩ ∧ g.cmds = f.cmds) ∧
    (bad (b.arg 0) 65536 16 = true → Fails (.resringSet vf) s f b 0xFFFC)) ∧
  (∀ (vf : Nat) (s : State) (f : Fn) (c : Cmd) (b : CmdBlock), Serves s vf 12 f c b →
    (∀ q, b.arg 0 = 0 → s.queue? (b.arg 1) = some q → q.vf = f.vf → q.qnum = b.arg 1 →
      exec (.kill vf) s = .next (cmdEnd (((s.grids.filter (ofQueue s (b.arg 1))).map (·.id)).foldl (fun s g => killGrid s g 6) s) f b 0)) ∧
    (b.arg 0 = 1 → ownAsid s f (b.arg 2) = true → exec (.kill vf) s = .next (cmdEnd (killCtx s (b.arg 2) 6) f b 0)) ∧
    (b.arg 0 = 1 → ownAsid s f (b.arg 2) = false → Fails (.kill vf) s f b 0xFFFD) ∧ (1 < b.arg 0 → Fails (.kill vf) s f b 0xFFFC))

/-- R311, R314, R316 to R318, R320, R322 to R325, R339, R344, R350, R352, R356, R402: commands that observe, and communicators. Trace levels and ring sizes change for the function named, a ring is
cleared; the reads of records, waits, counters, health, check log and greenware answer with the bytes of their rule at the destination; DBG_ATTACH attaches a context;
COMM_CREATE makes a communicator, and COMM_ADMIT puts a rank in it at its new place.
What the spec leaves open here is the model's choice: logs 38, 42, 107. -/
def Obligations.ObservingCommandResults : Prop :=
  (∀ (vf : Nat) (s : State) (f : Fn) (c : Cmd) (b : CmdBlock), Serves s vf 0x10 f c b →
    (b.arg 0 ≤ 256 → b.arg 1 ≤ 1 → Ends (.traceLevel vf) s f b 0 fun u => OnlyFn s u (b.arg 0) fun g => g.trace = b.arg 1) ∧
    (256 < b.arg 0 ∨ 1 < b.arg 1 → Fails (.traceLevel vf) s f b 0xFFFC)) ∧
  (∀ (vf : Nat) (s : State) (f : Fn) (c : Cmd) (b : CmdBlock), Serves s vf 0x11 f c b → b.arg 0 ≤ 256 → b.arg 1 ≠ 0 → b.arg 1 % 2 ^ 24 = 0 →
    let others := (((List.range 257).filter (· != b.arg 0)).map (ringBytes s)).foldl (· + ·) 0
    ((s.ring (b.arg 0)).recs = [] → others + b.arg 1 ≤ 30 * 2 ^ 30 → Ends (.ringSize vf) s f b 0 fun u => { u with rings := s.rings } = s ∧
      (u.ring (b.arg 0)).size = (b.arg 1 - 64) / 32 ∧ ∀ n, n ≠ b.arg 0 → u.ring n = s.ring n) ∧
    ((s.ring (b.arg 0)).recs ≠ [] ∨ 30 * 2 ^ 30 < others + b.arg 1 → Fails (.ringSize vf) s f b 0xFFFC)) ∧
  (∀ (vf : Nat) (s : State) (f : Fn) (c : Cmd) (b : CmdBlock), Serves s vf 0x12 f c b → b.arg 0 ≤ 256 ∨ b.arg 0 = 0xFFFF → b.arg 1 % 64 = 0 →
    let r := s.ring (b.arg 0)
    let first := max (b.arg 2) (r.widx - r.recs.length)
    let sel := (r.recs.drop (first - (r.widx - r.recs.length))).take (b.arg 3)
    Answers (.saggarRead vf) s f b (b.arg 1) (readHeader (first + sel.length) first r.drops sel.length r.gen ++ sel.flatMap recBytes)) ∧
  (∀ (vf : Nat) (s : State) (f : Fn) (c : Cmd) (b : CmdBlock), Serves s vf 0x13 f c b →
    (b.arg 0 ≤ 256 → Ends (.saggarClear vf) s f b 0 fun u => { u with rings := s.rings } = s ∧ (u.ring (b.arg 0)).recs = [] ∧
      (u.ring (b.arg 0)).widx = 0 ∧ (u.ring (b.arg 0)).drops = 0 ∧ (u.ring (b.arg 0)).gen = 0 ∧ (u.ring (b.arg 0)).size = (s.ring (b.arg 0)).size ∧
      (u.ring (b.arg 0)).dtcw = (s.ring (b.arg 0)).dtcw) ∧
    (256 < b.arg 0 → Fails (.saggarClear vf) s f b 0xFFFC)) ∧
  (∀ (vf : Nat) (s : State) (f : Fn) (c : Cmd) (b : CmdBlock), Serves s vf 0x14 f c b → b.arg 0 ≤ 7 → b.arg 1 % 64 = 0 → b.arg 2 ≤ 65535 →
    let all := waitTable s (b.arg 0) vf (b.arg 2)
    (all.length ≤ b.arg 3 → Answers (.waitRead vf) s f b (b.arg 1)
      (readHeader 65536 0 (waitLost s (b.arg 0)) all.length 0 ++ all.flatMap (·.2))) ∧
    (∀ x, b.arg 3 < all.length → (all.take (b.arg 3)).getLast? = some x → Answers (.waitRead vf) s f b (b.arg 1)
      (readHeader (x.1 + 1) 0 (waitLost s (b.arg 0)) (b.arg 3) 0 ++ (all.take (b.arg 3)).flatMap (·.2)))) ∧
  (∀ (s : State) (die vf first : Nat) (x : Nat × List Byte), x ∈ waitTable s die vf first → first ≤ x.1 ∧ ∃ w ∈ s.waits, w.die = die ∧ w.slot = x.1 ∧
    ∃ v, waitView s w = some v ∧ (vf = 0 ∨ v.vf = vf) ∧ x.2 = waitBytes w v ∧ x.2.length = 64) ∧
  (∀ (vf : Nat) (s : State) (f : Fn) (c : Cmd) (b : CmdBlock), Serves s vf 0x15 f c b → vf ≤ 256 →
    (6 ≤ b.arg 1 → b.arg 1 ≤ 20 → (∃ k, 12 ≤ k ∧ k ≤ 30 ∧ b.arg 3 = 2 ^ k) → b.arg 2 % 64 = 0 → Ends (.sampleSet vf) s f b 0 fun u =>
      OnlyFn s u vf fun g => g.sampleK = b.arg 1 ∧ g.sampleBuf = some (BitVec.ofNat 64 (b.arg 2), b.arg 3)) ∧
    (b.arg 1 < 6 ∨ 20 < b.arg 1 ∨ b.arg 2 % 64 ≠ 0 → Fails (.sampleSet vf) s f b 0xFFFC)) ∧
  (∀ (vf : Nat) (s : State) (f : Fn) (c : Cmd) (b : CmdBlock), Serves s vf 0x16 f c b →
    (∀ n, coreUnit (b.arg 0) = some n → b.arg 3 ≤ 15 → b.arg 1 ≤ 15 → Ends (.perfSelect vf) s f b 0 fun u => { u with cores := s.cores } = s ∧
      (u.core n).perfEvents = (s.core n).perfEvents.set (b.arg 3) (b.arg 1) ∧ ∀ m, m ≠ n → u.core m = s.core m) ∧
    (coreUnit (b.arg 0) = none → sharedUnit (b.arg 0) = true → vf = 0 ∨ b.arg 4 = vf → b.arg 4 ≤ 256 → b.arg 3 ≤ 3 → 0x40 ≤ b.arg 1 → b.arg 1 ≤ 0x46 →
      Ends (.perfSelect vf) s f b 0 fun u => { u with shared := s.shared } = s ∧
        (sharedOf u (b.arg 0)).picks = (sharedOf s (b.arg 0)).picks.set (b.arg 3) ⟨b.arg 4, b.arg 1, 0⟩ ∧
        ∀ n, n ≠ b.arg 0 → sharedOf u n = sharedOf s n) ∧
    (coreUnit (b.arg 0) = none → vf ≠ 0 → b.arg 4 ≠ vf → Fails (.perfSelect vf) s f b 0xFFFD)) ∧
  (∀ (vf : Nat) (s : State) (f : Fn) (c : Cmd) (b : CmdBlock), Serves s vf 0x17 f c b → sharedUnit (b.arg 0) = true → b.arg 3 ≤ 256 →
    (vf ≠ 0 → b.arg 3 ≠ vf → Fails (.perfRead vf) s f b 0xFFFD) ∧
    (vf = 0 ∨ b.arg 3 = vf → Answers (.perfRead vf) s f b (b.arg 2)
      ((sharedOf s (b.arg 0)).picks.flatMap fun p => natBytes 8 (if p.vf = b.arg 3 then p.count else 0)))) ∧
  (∀ (vf : Nat) (s : State) (f : Fn) (c : Cmd) (b : CmdBlock), Serves s vf 0x18 f c b → Answers (.healthRead vf) s f b (b.arg 2) (healthBytes s)) ∧
  (∀ (vf : Nat) (s : State) (f g : Fn) (c : Cmd) (b : CmdBlock), Serves s vf 0x19 f c b →
    (vf = 0 ∨ b.arg 0 = vf → b.arg 1 % 64 = 0 → s.fn? (b.arg 0) = some g → b.arg 0 ≤ 256 → Answers (.checkRead vf) s f b (b.arg 1)
      (readHeader g.checkCount 0 0 g.checkLog.length 0 ++ g.checkLog.flatMap checkBytes)) ∧
    (vf ≠ 0 → b.arg 0 ≠ vf → Fails (.checkRead vf) s f b 0xFFFD)) ∧
  (∀ (vf : Nat) (s : State) (f : Fn) (c : Cmd) (b : CmdBlock), Serves s vf 0x1A f c b →
    ((∃ x ∈ s.ctxs, x.asid = b.arg 1 ∧ x.vf = b.arg 0) → Ends (.dbgAttach vf) s f b 0 fun u => { u with ctxs := s.ctxs } = s ∧
      isAttached u (b.arg 1) = true ∧ ∀ x ∈ s.ctxs, x.asid ≠ b.arg 1 → x ∈ u.ctxs) ∧
    ((∀ x ∈ s.ctxs, x.asid = b.arg 1 → x.vf ≠ b.arg 0) → Fails (.dbgAttach vf) s f b 0xFFFC)) ∧
  (∀ (vf : Nat) (s : State) (f : Fn) (c : Cmd) (b : CmdBlock), Serves s vf 0x1B f c b →
    let e := s.gwEntry (b.arg 0) (b.arg 1)
    (vf = 0 ∨ e.vf = vf → b.arg 0 ≤ 7 → b.arg 1 ≤ 65535 → Answers (.greenRead vf) s f b (b.arg 2) (gwBytes e)) ∧
    (vf ≠ 0 → e.vf ≠ vf → Fails (.greenRead vf) s f b 0xFFFD)) ∧
  (∀ (vf : Nat) (s : State) (f : Fn) (c : Cmd) (b : CmdBlock), Serves s vf 0x1C f c b →
    (b.arg 0 ≤ 256 → b.arg 1 ≤ 65536 → 1000 ≤ b.arg 2 → b.arg 2 ≤ 3600000000 → Ends (.greenQuota vf) s f b 0 fun u =>
      OnlyFn s u (b.arg 0) fun g => g.quotaGreen = b.arg 1 ∧ g.retention = b.arg 2) ∧
    (b.arg 2 < 1000 ∨ 3600000000 < b.arg 2 → Fails (.greenQuota vf) s f b 0xFFFC)) ∧
  (∀ (vf : Nat) (s : State) (f : Fn) (c : Cmd) (b : CmdBlock) (bs : List Byte), Serves s vf 0x20 f c b → 1 ≤ b.arg 0 → b.arg 0 ≤ 4095 → 2 ≤ b.arg 2 →
    b.arg 2 ≤ 32768 → b.arg 3 ≤ 1 → (∀ x ∈ s.comms, x.vf = vf → x.id ≠ b.arg 0) → (s.comms.filter (·.vf == vf)).length < f.quotaComms →
    devRead s vf f.asid (BitVec.ofNat 64 (b.arg 1)) (8 * b.arg 2) = .ok bs →
    let es := (List.range (b.arg 2)).map fun i => bytesNat ((bs.drop (8 * i)).take 8)
    ((∀ e ∈ es, e % 65536 ≤ 4095 ∧ e / 65536 % 65536 ≤ 7 ∧ e / 2 ^ 48 = 0) → Ends (.commCreate vf) s f b 0 fun u => { u with comms := s.comms } = s ∧
      ∃ m, u.comms = s.comms ++ [m] ∧ m.vf = vf ∧ m.id = b.arg 0 ∧ m.ranks.length = b.arg 2 ∧ m.excluded = [] ∧ m.started = [] ∧
        ∀ (r e : Nat), es[r]? = some e → m.ranks[r]? = some (e % 65536, e / 65536 % 65536, e / 2 ^ 32 % 65536)) ∧
    ((∃ e ∈ es, 4095 < e % 65536) → Fails (.commCreate vf) s f b 0xFFFC)) ∧
  (∀ (vf : Nat) (s : State) (f : Fn) (c : Cmd) (b : CmdBlock) (m : Comm) (old : Nat × Nat × Nat), Serves s vf 0x21 f c b →
    s.comms.find? (fun c => c.vf == vf && c.id == b.arg 0) = some m → m.ranks[b.arg 1]? = some old → b.arg 2 ≤ 4095 → b.arg 3 ≤ 7 →
    b.arg 2 ≠ s.dev.dev ∨ old.1 = s.dev.dev →
    exec (.commAdmit vf) s = .next (cmdEnd (collGo (s.setComm vf (b.arg 0) fun m => { m with
      ranks := m.ranks.set (b.arg 1) (b.arg 2, b.arg 3, old.2.2), excluded := m.excluded.filter (· != b.arg 1) })) f b 0)) ∧
  (∀ (vf : Nat) (s : State) (f : Fn) (c : Cmd) (b : CmdBlock), Serves s vf 0x21 f c b → (∀ x ∈ s.comms, x.vf = vf → x.id ≠ b.arg 0) →
    Fails (.commAdmit vf) s f b 0xFFFC)

/-- R393 to R396, R403: commands of checkpoints, spares and exports. A checkpoint asks its partner, copies the state set and marks the slot; a spare is filled from the partner or
the caller; an export is listed until it is withdrawn, or 200 ms after that without the missing answers.
What the spec leaves open here is the model's choice: logs 38, 42, 109 to 112. -/
def Obligations.CheckpointExportCommandResults : Prop :=
  (∀ (vf : Nat) (s : State) (f : Fn) (c : Cmd) (b : CmdBlock) (bs : List Byte), Serves s vf 0x22 f c b → ownAsid s f (b.arg 0) = true → b.arg 1 ≤ 4095 →
    b.arg 1 ≠ s.dev.dev → 1 ≤ b.arg 3 → b.arg 3 ≤ 64 → devRead s vf f.asid (BitVec.ofNat 64 (b.arg 2)) (16 * b.arg 3) = .ok bs →
    (∀ e ∈ stateSet bs, setEntryBad e = false) → setBytes (stateSet bs) ≤ 160 * 2 ^ 30 → vf ≤ 256 →
    (c.phase = 0 → b.arg 1 ∉ s.dev.lostDevs → Waits (.ckptSet vf) s fun u =>
      u.outbox = s.outbox ++ [Out.peer (b.arg 1) (f.pkey.getD 0) (.reserve vf (setBytes (stateSet bs)))] ∧ MemSame s u ∧
      ∃ g, u.fn? vf = some g ∧ g.cmds = { c with phase := 1, due := s.time.dtc + usTicks 200 } :: f.cmds.drop 1) ∧
    (c.phase = 2 → Ends (.ckptSet vf) s f b 0 fun u => OnlyFn s u vf fun g => g.ckpt = some ⟨b.arg 0, b.arg 1, stateSet bs, 0, 0⟩) ∧
    (c.phase = 3 → Fails (.ckptSet vf) s f b 1) ∧ (c.phase = 1 → b.arg 1 ∈ s.dev.lostDevs ∨ c.due ≤ s.time.dtc → Fails (.ckptSet vf) s f b 1) ∧
    (c.phase = 1 → b.arg 1 ∉ s.dev.lostDevs → s.time.dtc < c.due → exec (.ckptSet vf) s = .next s)) ∧
  (∀ (vf : Nat) (s : State) (f : Fn) (c : Cmd) (b : CmdBlock) (k : Ckpt), Serves s vf 0x23 f c b → ownAsid s f (b.arg 0) = true → f.ckpt = some k →
    k.asid = b.arg 0 →
    (c.phase = 0 → b.arg 1 ≤ k.epoch → Fails (.ckptTake vf) s f b 0xFFFC) ∧ (c.phase ≠ 0 → exec (.ckptTake vf) s = .next s) ∧
    (∀ n s1 t, c.phase = 0 → k.epoch < b.arg 1 → choose s (k.set.length + 1) = (n, s1) → sendSet f k (k.set.take n) s1 = some t →
      exec (.ckptTake vf) s = .next (setCmd t vf fun c => { c with phase := 5, due := n })) ∧
    (∀ t, c.phase = 5 → k.partner ∉ s.dev.lostDevs → sendSet f k (k.set.drop c.due) s = some t →
      exec (.ckptTakeDone vf) s = .next (setCmd (tellPeer t f k.partner (.slotComplete vf k.slot (b.arg 1))) vf fun c => { c with phase := 1 })) ∧
    (c.phase = 2 → vf ≤ 256 → Ends (.ckptTakeDone vf) s f b 0 fun u => OnlyFn s u vf fun g => g.ckpt = some { k with epoch := b.arg 1, slot := 1 - k.slot }) ∧
    (c.phase = 0 ∨ (c.phase = 1 ∧ k.partner ∉ s.dev.lostDevs) → exec (.ckptTakeDone vf) s = .next s) ∧
    ∃ st, 0 < st ∧ st < 0xFFFC ∧ (c.phase = 3 ∨ (c.phase = 1 ∧ k.partner ∈ s.dev.lostDevs) → Fails (.ckptTakeDone vf) s f b st)) ∧
  (∀ (vf : Nat) (s : State) (f : Fn) (c : Cmd) (b : CmdBlock), Serves s vf 0x24 f c b →
    (∀ x, newestFlash s vf (b.arg 0) = some x → Answers (.ckptRead vf) s f b (b.arg 1) (x.2.flatMap (·.2))) ∧
    (newestFlash s vf (b.arg 0) = none → Fails (.ckptRead vf) s f b 0xFFFC)) ∧
  (∀ (s : State) (vf dev e : Nat) (l : List (Nat × List Byte)), newestFlash s vf dev = some (e, l) →
    (∃ x ∈ s.dev.partner, x.vf = vf ∧ x.dev = dev ∧ x.flash = some (e, l)) ∧
    ∀ x ∈ s.dev.partner, x.vf = vf → x.dev = dev → ∀ y, x.flash = some y → y.1 ≤ e) ∧
  (∀ (vf : Nat) (s : State) (f : Fn) (c : Cmd) (b : CmdBlock), Serves s vf 0x25 f c b → ownAsid s f (b.arg 2) = true → b.arg 0 ≤ 4095 → b.arg 1 ≤ 4095 →
    b.arg 3 = 0 → vf ≤ 256 →
    (c.phase = 0 → b.arg 1 ∈ s.dev.lostDevs → Fails (.spareFill vf) s f b 0x8001) ∧
    (c.phase = 0 → b.arg 1 ∉ s.dev.lostDevs → Waits (.spareFill vf) s fun u =>
      u.outbox = s.outbox ++ [Out.peer (b.arg 1) (f.pkey.getD 0) (.fillAsk vf (b.arg 0))] ∧ MemSame s u ∧
      ∃ g, u.fn? vf = some g ∧ g.spareFrom = some (b.arg 1, b.arg 2)) ∧
    (c.phase = 2 → Ends (.spareFillDone vf true) s f b (c.due % 65536) fun u => OnlyFn s u vf fun g => g.spareFrom = none) ∧
    (c.phase = 3 → Ends (.spareFillDone vf true) s f b 0x8001 fun u => OnlyFn s u vf fun g => g.spareFrom = none) ∧
    (c.phase ≠ 0 → Ends (.spareFillDone vf false) s f b 0x8001 fun u => OnlyFn s u vf fun g => g.spareFrom = none)) ∧
  (∀ (vf : Nat) (s : State) (f : Fn) (c : Cmd) (b : CmdBlock), Serves s vf 0x26 f c b →
    (∀ t, b.arg 0 % 65536 = 0 → b.arg 1 % 65536 = 0 → b.arg 1 ≠ 0 → vf ≤ 256 →
      exportPages vf ((List.range (b.arg 1 / 4096)).map fun i => b.arg 0 + 4096 * i) s = some t →
      Ends (.exportMem vf) s f b 0 fun u => OnlyFn t u vf fun g => (b.arg 0, b.arg 1) ∈ g.exports) ∧
    (b.arg 0 % 65536 ≠ 0 ∨ b.arg 1 % 65536 ≠ 0 ∨ b.arg 1 = 0 → Fails (.exportMem vf) s f b 0xFFFC) ∧
    (exportPages vf ((List.range (b.arg 1 / 4096)).map fun i => b.arg 0 + 4096 * i) s = none → Fails (.exportMem vf) s f b 0xFFFC)) ∧
  (∀ (vf : Nat) (s : State) (f : Fn) (c : Cmd) (b : CmdBlock), Serves s vf 0x27 f c b → (b.arg 0, b.arg 1) ∈ f.exports → vf ≤ 256 →
    (c.phase = 0 → Waits (.unexportMem vf) s fun u => u.outbox = s.outbox ++ [Out.withdraw vf (b.arg 0) (b.arg 1)] ∧ MemSame s u ∧
      ∃ g, u.fn? vf = some g ∧ g.exports = f.exports ∧ g.cmds = { c with phase := 1, due := s.time.dtc + usTicks 200000 } :: f.cmds.drop 1) ∧
    (c.phase = 2 → Ends (.unexportMem vf) s f b 0 fun u => OnlyFn s u vf fun g => (b.arg 0, b.arg 1) ∉ g.exports) ∧
    (c.phase = 1 → exec (.unexportMem vf) s = .next s) ∧
    (c.phase = 1 → c.due ≤ s.time.dtc → Ends (.unexportTimeout vf) s f b 0 fun u => OnlyFn s u vf fun g => (b.arg 0, b.arg 1) ∉ g.exports) ∧
    (c.phase = 1 → s.time.dtc < c.due → exec (.unexportTimeout vf) s = .next s))

/-- R376 to R380, R386, R387, R391, R392: commands of partitioning, quotas, resets, profiles and firmware images. The PF's settings change the function they name; a reset of a function begins and
ends, and leaves nothing of the function; a profile changes behind its pause; an image is staged, marked, or pinned at a slice boundary.
What the spec leaves open here is the model's choice: logs 38, 42, 44, 45, 99, 102, 106, 118, 120, 121. -/
def Obligations.PartitionCommandResults : Prop :=
  (∀ (vf : Nat) (s : State) (f : Fn) (c : Cmd) (b : CmdBlock), Serves s vf 0x30 f c b → b.arg 0 ≤ 256 → b.arg 1 < 65536 →
    let cl := (List.range 16).filter (b.arg 1).testBit
    (∀ x ∈ s.ctxs, x.vf ≠ 0 → ctxLive s x = false) →
    (b.arg 0 ≠ 0 → (∀ g ∈ s.fns, g.vf ≠ 0 → g.vf ≠ b.arg 0 → ∀ k ∈ cl, k ∉ g.clusters) → Ends (.partSet vf) s f b 0 fun u =>
      u.dev.spatial = true ∧ OnlyFn { s with dev := { s.dev with spatial := true } } u (b.arg 0) fun g => g.clusters = cl) ∧
    (b.arg 0 = 0 → b.arg 1 = 0 → Ends (.partSet vf) s f b 0 fun u => u.dev.spatial = false ∧ ∀ g ∈ u.fns, g.clusters = [])) ∧
  (∀ (vf : Nat) (s : State) (f : Fn) (c : Cmd) (b : CmdBlock), Serves s vf 0x31 f c b →
    (b.arg 0 ≤ 256 → 100 ≤ b.arg 1 → b.arg 1 ≤ 100000 → Ends (.vfSlice vf) s f b 0 fun u => OnlyFn s u (b.arg 0) fun g => g.slice = b.arg 1) ∧
    (256 < b.arg 0 ∨ b.arg 1 < 100 ∨ 100000 < b.arg 1 → Fails (.vfSlice vf) s f b 0xFFFC)) ∧
  (∀ (vf : Nat) (s : State) (f g h : Fn) (c : Cmd) (b : CmdBlock), Serves s vf 0x32 f c b → s.fn? (b.arg 0) = some g → b.arg 0 ≤ 256 →
    (setQuota g (b.arg 1 / 2 ^ 56) (b.arg 1 % 2 ^ 56) = some h → b.arg 1 / 2 ^ 56 ≠ 2 ∨ g.counterBase = none →
      Ends (.vfQuota vf) s f b 0 fun u => OnlyFn s u (b.arg 0) fun x => x = h)) ∧
  (∀ (vf : Nat) (s : State) (f : Fn) (c : Cmd) (b : CmdBlock), Serves s vf 0x33 f c b →
    (256 < b.arg 0 → Fails (.vfReset vf) s f b 0xFFFC) ∧
    (b.arg 0 ≤ 256 → b.arg 0 ≠ vf → c.phase = 0 → exec (.vfReset vf) s = .next (setCmd (beginReset s (b.arg 0)) vf fun c => { c with phase := 1 })) ∧
    (b.arg 0 ≤ 256 → b.arg 0 ≠ vf → c.phase ≠ 0 → isResetting s (b.arg 0) = true →
      exec (.vfReset vf) s = .next (cmdEnd (resetFn (mint s 0).2 (b.arg 0) (mint s 0).1) f b 0))) ∧
  (∀ (s : State) (f : Fn), ∀ q ∈ (stopQueues s f).queues, q.vf ≠ f.vf) ∧
  (∀ (s : State) (vf : Nat), (∀ g ∈ (stopContexts s vf).grids, g.vf ≠ vf) ∧ (∀ x ∈ (stopContexts s vf).ctxs, x.vf ≠ vf) ∧
    (∀ x ∈ (stopContexts s vf).tlb, x.vf ≠ vf)) ∧
  (∀ (s : State) (vf : Nat), vf ≤ 256 → (∀ x ∈ (finishFn s vf).leases, x.vf ≠ vf) ∧ (∀ x ∈ (finishFn s vf).sends, x.vf ≠ vf) ∧
    (∀ x ∈ (finishFn s vf).regions, x.vf ≠ vf) ∧
    ∃ g, (finishFn s vf).fn? vf = some g ∧ g.resetting = false ∧ g.cmds = [] ∧ g.exports = [] ∧ g.featctl = 0) ∧
  (∀ (vf : Nat) (s : State) (f : Fn) (c : Cmd) (b : CmdBlock), Serves s vf 0x34 f c b → b.arg 0 ≤ 3 → (∀ a ∈ b.args.drop 1, a = 0) →
    (s.dev.dstate ≠ 2 → s.dev.changing = none → b.arg 0 ≠ 3 → b.arg 0 ≠ s.dev.profile → Ends (.profileSet vf) s f b 0 fun u =>
      u = { s with dev := { s.dev with changing := some (b.arg 0) } }) ∧
    (s.dev.dstate ≠ 2 → s.dev.changing ≠ none → Fails (.profileSet vf) s f b 1) ∧
    (s.dev.dstate ≠ 2 → s.dev.changing = none → b.arg 0 = 3 → (∃ x ∈ s.ctxs, ctxLive s x = true) → Fails (.profileSet vf) s f b 2) ∧
    (s.dev.dstate ≠ 2 → s.dev.changing = none → b.arg 0 = 3 → (∀ x ∈ s.ctxs, ctxLive s x = false) → Ends (.profileSet vf) s f b 0 fun u =>
      u.dev.dstate = 2 ∧ u.dev.reason = 3 ∧ u.dev.profile = 3 ∧ ∀ n < 24, (u.port n).lanes = 0)) ∧
  (∀ (s : State) (p : Nat), s.dev.changing = some p → p < 3 → ∃ t, exec .profilePauseEnd s = .next t ∧ { t with dev := s.dev } = s ∧ t.dev.profile = p ∧
    t.dev.changing = none ∧ t.dev.clockMHz = [4000, 3200, 2400].getD p 0) ∧
  (∀ (s : State) (p : Nat), s.dev.changing = some p → (memHeld s = true ↔ p = 2 ∨ s.dev.profile = 2) ∧ ∀ core part num, mayIssue s core part num = false) ∧
  (∀ s : State, memHeld s = true → (∀ a, a.dev = none → canPerform s a = false) ∧ ∀ asid, asidRuns s asid = false) ∧
  (∀ (vf : Nat) (s : State) (f : Fn) (c : Cmd) (b : CmdBlock) (bs : List Byte), Serves s vf 0x38 f c b →
    devRead s vf f.asid (BitVec.ofNat 64 (b.arg 0)) (b.arg 1) = .ok bs →
    let h := bytesNat (bs.take 256)
    let kind := natBits h 39 32
    256 ≤ b.arg 1 → natBits h 31 0 = 0x4A5A4657 → natBits h 47 40 = 0 → natBits h 2047 1472 = 0 → 1 ≤ kind → kind ≤ 3 → natBits h 191 128 ≤ 2 ^ 26 →
    (bs.drop 256).length = natBits h 191 128 → kind = 2 ∨ natBits h 63 48 = 0 →
    (Config.imageValid (bs.take 256) = false → Fails (.imageStage vf) s f b 1) ∧
    (Config.imageValid (bs.take 256) = true → Config.digest (bs.drop 256) ≠ natBytes 32 (natBits h 447 192) → Fails (.imageStage vf) s f b 2) ∧
    (Config.imageValid (bs.take 256) = true → Config.digest (bs.drop 256) = natBytes 32 (natBits h 447 192) → s.dev.monitor < natBits h 127 96 →
      Fails (.imageStage vf) s f b 3) ∧
    (Config.imageValid (bs.take 256) = true → Config.digest (bs.drop 256) = natBytes 32 (natBits h 447 192) → natBits h 127 96 ≤ s.dev.monitor →
      ((flashRoom s kind (natBits h 95 64)).filter (·.kind == kind)).length < imageSlots kind →
      Ends (.imageStage vf) s f b 0 fun u => { u with dev := s.dev } = s ∧
        ∃ i ∈ u.dev.images, i.kind = kind ∧ i.version = natBits h 95 64 ∧ i.digest = Config.digest (bs.drop 256))) ∧
  (∀ (vf : Nat) (s : State) (f : Fn) (c : Cmd) (b : CmdBlock), Serves s vf 0x39 f c b →
    ((∃ i ∈ s.dev.images, i.kind = 1 ∧ i.version = b.arg 0) → Ends (.imageActivate vf) s f b 0 fun u =>
      u = { s with dev := { s.dev with nextMonitor := some (b.arg 0) } }) ∧
    ((∀ i ∈ s.dev.images, i.kind = 1 → i.version ≠ b.arg 0) → Fails (.imageActivate vf) s f b 0xFFFC)) ∧
  (∀ (vf : Nat) (s : State) (f : Fn) (c : Cmd) (b : CmdBlock) (i : FwImage), Serves s vf 0x3A f c b →
    s.dev.images.find? (fun i => i.kind == 2 && i.version == b.arg 0) = some i → b.arg 1 = 0 → vf ≤ 256 →
    (sliceOver s f = false → exec (.schedPin vf) s = .next s) ∧
    (sliceOver s f = true → layoutHeld s vf i.layouts = true → Ends (.schedPin vf) s f b 4 fun u =>
      OnlyFn { s with free := u.free } u vf fun g => g.schedPin = f.schedPin ∧ g.pluginPin = f.pluginPin ∧ g.sliceAt = s.time.dtc) ∧
    (sliceOver s f = true → layoutHeld s vf i.layouts = false → Ends (.schedPin vf) s f b 0 fun u =>
      OnlyFn { s with free := u.free } u vf fun g => g.schedPin = b.arg 0 ∧ g.pluginPin = 0 ∧ g.sliceAt = s.time.dtc)) ∧
  (∀ (vf : Nat) (s : State) (f : Fn), s.fn? vf = some f → vf ≤ 256 → f.pluginPin ≠ 0 → sliceOver s f = true → ∃ t, exec (.pluginCallTimeout vf) s = .next t ∧
    OnlyFn s t vf fun g => g.pluginFails = f.pluginFails + 1) ∧
  (∀ (vf : Nat) (s : State) (k : BitVec 16), vf ≤ 256 → ∃ t, exec (.pkeyInstall vf (.key k)) s = .next t ∧ OnlyFn s t vf fun g => g.pkey = some k.toNat) ∧
  (∀ (s : State) (dev slot : Nat), ∃ t, exec (.slotDrainDone dev slot) s = .next t ∧ { t with dev := s.dev } = s ∧
    ∀ x ∈ s.dev.partner, x.dev = dev → x.slot = slot → x.complete = true → { x with flash := some (x.epoch, x.data) } ∈ t.dev.partner)

/-- R263, R264, R381 to R383, R385, R389, R390: the host link. While the device is up, a CMDBELL write issues a command unless 64 are outstanding, FEATACC takes bits until a set is committed,
and other offsets are ignored; a commit is accepted when CORE is in it and every bit of it is offered, and then stands. A flush write waits its turn; each completion discards
the read-ahead buffer where it asks so and puts its SEQ in FLSTAT, once the BAR writes before it have been applied. A write of the memory BAR goes on its way to its home, a
read answers with the bytes there; registers, a function's ring and the management path answer with their bytes; an access to the coherent window writes the bytes of the
window alone, or reads them, or what the host has cached of them.
What the spec leaves open here is the model's choice: logs 36, 37, 136, 149. -/
def Obligations.HostLinkResults : Prop :=
  (∀ (s : State) (vf : Nat) (f : Fn) (v : DWord), s.fn? vf = some f → vf ≤ 256 → hostUp s = true → f.resetting = false →
    (f.cmds.length < 64 → ∃ t, exec (.registerWrite vf 0x1030 v) s = .next t ∧ OnlyFn s t vf fun g => g = { f with cmds := f.cmds ++ [⟨v, 0, 0⟩] }) ∧
    (64 ≤ f.cmds.length → exec (.registerWrite vf 0x1030 v) s = .next s) ∧
    (∀ k i, k < 4 → f.featctl ≠ 1 → ∃ t, exec (.registerWrite vf (0x1120 + 8 * k) v) s = .next t ∧ OnlyFn s t vf fun g => g.featctl = f.featctl ∧ g.cmds = f.cmds ∧
      (i ∈ g.feat ↔ if i / 64 = k then v.getLsbD (i % 64) = true else i ∈ f.feat)) ∧
    (∀ off, off < 0x1120 → off ≠ 0x1030 → exec (.registerWrite vf off v) s = .next s) ∧
    (∀ op, 1 ≤ op → op ≤ 3 → v.toNat / 2 ^ 34 = 0 → v.toNat / 2 ^ 32 % 4 = op →
      ∃ t, exec (if op = 1 then .flushInbound vf v else if op = 2 then .flushOutbound vf v else .flushBoth vf v) s = .next t ∧
        OnlyFn s t vf fun g => g = { f with flushes := f.flushes ++ [⟨op, v.toNat % 2 ^ 32,
          if op = 2 then [] else (s.accesses.filter fun a => decide (a.agent = .host vf)).map (·.ref)⟩] }) ∧
    (v.toNat / 2 ^ 34 ≠ 0 → exec (.flushInbound vf v) s = .next s ∧ exec (.flushOutbound vf v) s = .next s ∧ exec (.flushBoth vf v) s = .next s)) ∧
  (∀ (s : State) (vf : Nat) (f : Fn) (x : FlushReq) (xs : List FlushReq), s.fn? vf = some f → vf ≤ 256 → f.flushes = x :: xs →
    ((∀ r ∈ x.waits, ∀ a ∈ s.accesses, a.ref ≠ r) → ∃ t, exec (.flushDone vf) s = .next t ∧ OnlyFn s t vf fun g =>
      g = { f with flushes := xs, flushSeq := x.seq, readAhead := if x.op = 2 ∨ x.op = 3 then [] else f.readAhead }) ∧
    ((∃ r ∈ x.waits, ∃ a ∈ s.accesses, a.ref = r) → exec (.flushDone vf) s = .next s)) ∧
  (∀ (s : State) (vf : Nat) (f : Fn), s.fn? vf = some f → vf ≤ 256 → hostUp s = true → f.resetting = false →
    (f.featctl = 1 → exec (.featureCommit vf) s = .next s) ∧
    (f.featctl ≠ 1 → 0 ∈ f.feat → (∀ b ∈ f.feat, b ∈ offered s) → 15 ∉ f.feat → ∃ t, exec (.featureCommit vf) s = .next t ∧
      OnlyFn s t vf fun g => g = { f with featctl := 1, counterBase := none }) ∧
    (∀ b, f.featctl ≠ 1 → 0 ∈ f.feat → (∀ b ∈ f.feat, b ∈ offered s) → 15 ∈ f.feat → freeCounters s vf f.quotaCounters = some b →
      ∃ t, exec (.featureCommit vf) s = .next t ∧ OnlyFn s t vf fun g => g = { f with featctl := 1, counterBase := some b }) ∧
    (f.featctl ≠ 1 → 0 ∉ f.feat ∨ (∃ b ∈ f.feat, b ∉ offered s) → ∃ t, exec (.featureCommit vf) s = .next t ∧ OnlyFn s t vf fun g => g = { f with featctl := 2 })) ∧
  (∀ (s : State) (vf : Nat) (v : DWord), hostUp s = false → exec (.registerWrite vf 0x1030 v) s = .next s ∧ exec (.featureCommit vf) s = .next s ∧
    ∀ gpa d n, exec (.barWrite vf gpa d) s = .next s ∧ exec (.barRead vf (.mem gpa) n) s = .next s ∧ exec (.barRead vf (.reg gpa) n) s = .next s ∧
      exec (.barRead vf (.ring gpa) n) s = .next s) ∧
  (∀ (s : State) (vf gpa e : Nat) (d : List Byte), barOpen s vf gpa d.length = true → pagesOf gpa d.length = [(gpa, d.length)] →
    stage2 s vf gpa = .ok (e, 1) → e.testBit 5 = true → e.testBit 3 = true →
    ∃ t l, exec (.barWrite vf gpa d) s = .next t ∧ { t with accesses := s.accesses, nextId := s.nextId } = s ∧ t.accesses = s.accesses ++ l ∧
      (∀ a ∈ l, a.agent = .host vf ∧ a.dev = if e.testBit 11 then some (natBits e 63 52) else none) ∧
      (e.testBit 11 = false → ∃ a, l = [a] ∧ a.ref = s.nextId ∧ a.spa = leafAddr e 1 gpa ∧ a.resp = .none ∧
        a.op = .write ((List.range d.length).zip d) false)) ∧
  (∀ (s : State) (vf gpa n : Nat), barOpen s vf gpa n = false → exec (.barRead vf (.mem gpa) n) s = .next s) ∧
  (∀ (s : State) (vf gpa n : Nat), barOpen s vf gpa n = true →
    ∃ t bs, exec (.barRead vf (.mem gpa) n) s = .next t ∧ Out.host vf bs ∈ t.outbox ∧ bs.length = n) ∧
  (∀ (s : State) (vf off n : Nat) (f : Fn), hostUp s = true → s.fn? vf = some f →
    exec (.barRead vf (.reg off) n) s = .next { s with outbox := s.outbox ++ [.host vf ((natBytes 8 (regRead s vf off)).take n)] } ∧
    exec (.barRead vf (.ring off) n) s = .next { s with outbox := s.outbox ++ [.host vf (ringRead (s.ring vf) off n)] }) ∧
  (∀ (s : State) (vf : Nat) (f : Fn), s.fn? vf = some f → f.resetting = false →
    regRead s vf 0x1010 = (if f.flushes = [] then 0 else 2 ^ 32) + f.flushSeq % 2 ^ 32 ∧ regRead s vf 0x1020 = tstat s ∧ regRead s vf 0x1040 = devstat s ∧
    (∀ k < 4, regRead s vf (0x1100 + 8 * k) = bitsWord (offered s) k ∧ regRead s vf (0x1120 + 8 * k) = bitsWord f.feat k) ∧
    regRead s vf 0x1140 = if f.featctl = 1 then 2 else if f.featctl = 2 then 4 else 0) ∧
  (∀ (s : State) (vf n : Nat) (p : PathRead), ∃ t, exec (.barRead vf (.path p) n) s = .next t ∧ { t with outbox := s.outbox } = s ∧
    t.outbox = s.outbox ++ [Out.mgmt (pathBytes s n p)]) ∧
  (∀ (s : State) (vf line e : Nat) (bs : List Byte), vf ≤ 256 → stage2 s vf (64 * line) = .ok (e, 1) → e.testBit 5 = true → e.testBit 11 = false → hasLine s vf line = false →
    readAt s (leafAddr e 1 (64 * line)) 64 = .ok bs → bs.length = 64 → ((s.fn? vf).map (·.readAhead)) = some [] → (barLine s vf line).1 = bs) ∧
  (∀ (s : State) (off : Nat) (d : List Byte), MemCanonical s → hostUp s = true → off + d.length ≤ 2 ^ 23 →
    ∃ t, exec (.hostWindowAccess off d.length (some d)) s = .next t ∧ ((List.range d.length).map fun i => t.getByte (2 ^ 40 + off + i)) = d ∧
      MemSameBut ((List.range d.length).map (2 ^ 40 + off + ·)) s t) ∧
  (∀ (s : State) (off n : Nat), hostUp s = true → 0 < n → off + n ≤ 2 ^ 23 → ∃ t, exec (.hostWindowAccess off n none) s = .next t ∧
    { t with outbox := s.outbox, free := s.free, hostLines := s.hostLines } = s ∧ (s.hostLines = [] →
    t.outbox = s.outbox ++ [.host 0 ((List.range n).map fun i => s.getByte (2 ^ 40 + off + i))])) ∧
  (∀ (s : State) (line : Nat), { (hostLine s line).2 with free := s.free, hostLines := s.hostLines } = s ∧
    ((hostLine s line).1 = s.getBytes (64 * line) 64 ∨ ∃ h ∈ s.hostLines, h.line = line ∧ (hostLine s line).1 = h.data))

/-- R158, R160, R161, R170, R174, R277, R285, R287 to R289, R299 to R302: the engines' own steps. A channel starts its first accepted entry under a new identifier, copies its rows and completes it with its status; a waiting entry
is accepted when there is room; a START store enters the template's copy, a JOIN store an entry that names what its mask's channels hold, and a bad one parks its lane
with COPY_DESC. A matrix engine starts and ends the head of its queue. A ready node goes to the engine of its kind, and a node whose work is over becomes DONE.
What the spec leaves open here is the model's choice: logs 67, 83, 94, 137, 143. -/
def Obligations.EngineEventResults : Prop :=
  (∀ (s : State) (chan : Nat) (e : ChanEntry) (d : CopyDesc), headEntry s chan = some e → e.kind = .copy d → e.started = false → asidRuns s e.asid = true →
    let m := mint s (chan / 8)
    let x := startDesc s e d
    let s1 := setEntry (startClock m.2 e.id m.1 (stampMerge (s.clockOf (.chan chan)) (s.clockOf (.op e.op)))) chan e.id fun y =>
      { y with started := true, op := m.1, kind := .copy x.1, status := x.2, row := if x.2 == 0 then y.row else y.row + y.left d }
    (clockNeeds s e.id ≠ [] → exec (.copyStart chan) s = .next s) ∧
    (clockNeeds s e.id = [] → e.detail = false → exec (.copyStart chan) s = .next (copyRows chan e.id x.1 (choose s1 (d.rows + 1)).1 (choose s1 (d.rows + 1)).2)) ∧
    (clockNeeds s e.id = [] → e.detail = true → ∃ s2, s2 = emit s1 (chanSrc chan) 0x0401 m.1 e.op 0 e.vf ∧
      exec (.copyStart chan) s = .next (copyRows chan e.id x.1 (choose s2 (d.rows + 1)).1 (choose s2 (d.rows + 1)).2))) ∧
  (∀ (s : State) (e : ChanEntry) (d : CopyDesc), (d.dkind ≠ 3 → startDesc s e d = (d, 0)) ∧
    (∀ va, d.dkind = 3 → leaseBase s e d = some va → startDesc s e d = ({ d with dst := va + d.dst, dkind := 0 }, 0)) ∧
    (d.dkind = 3 → leaseBase s e d = none → startDesc s e d = (d, 4))) ∧
  (∀ (s : State) (chan : Nat) (e x : ChanEntry) (d : CopyDesc), headEntry s chan = some e → e.kind = .copy d → e.started = true → asidRuns s e.asid = true →
    (copyRows chan e.id d (e.left d) s).entry? chan e.id = some x →
    (x.left d = 0 ∨ x.status ≠ 0 → (∀ r ∈ x.outstanding, ∀ a ∈ (copyRows chan e.id d (e.left d) s).accesses, a.ref ≠ r) →
      exec (.copyDone chan) s = .next (copyEnd (copyRows chan e.id d (e.left d) s) chan x d x.status)) ∧
    (x.left d ≠ 0 ∧ x.status = 0 ∨ (∃ r ∈ x.outstanding, ∃ a ∈ (copyRows chan e.id d (e.left d) s).accesses, a.ref = r) →
      exec (.copyDone chan) s = .next (copyRows chan e.id d (e.left d) s))) ∧
  (∀ (s : State) (chan : Nat) (e : ChanEntry) (d : CopyDesc) (spa dst : Nat) (bs : List Byte) (out : List Nat), MemCanonical s → s.entry? chan e.id = some e → e.kind = .copy d →
    (∀ p, e.waiter ≠ .packet p) → dst / 2 ^ 49 < 3 → e.row < d.rows → e.status = 0 → d.skind = 0 → d.dkind = 0 → 0 < d.rbytes →
    srcAt d (e.row * d.rbytes) + d.rbytes ≤ 2 ^ 57 → pagesOf (srcAt d (e.row * d.rbytes)) d.rbytes = [(srcAt d (e.row * d.rbytes), d.rbytes)] →
    dstAt d (e.row * d.rbytes) + d.rbytes ≤ 2 ^ 57 → pagesOf (dstAt d (e.row * d.rbytes)) d.rbytes = [(dstAt d (e.row * d.rbytes), d.rbytes)] →
    translateWalk s e.vf e.asid (srcAt d (e.row * d.rbytes)) .read = .ok spa none → readAt s spa d.rbytes = .ok bs →
    translateWalk s e.vf e.asid (dstAt d (e.row * d.rbytes)) .write = .ok dst none → writable s dst d.rbytes = .ok out → out.Nodup → out.length = d.rbytes → bs.length = d.rbytes →
    out.map (copyRows chan e.id d 1 s).getByte = bs ∧ MemSameBut out s (copyRows chan e.id d 1 s) ∧
      ((copyRows chan e.id d 1 s).entry? chan e.id).map (·.row) = some (e.row + 1)) ∧
  (∀ (s : State) (chan : Nat) (e : ChanEntry), ((s.channel chan).entries.find? fun e => !e.accepted) = some e →
    ((s.channel chan).accepted < 64 → ∃ t, exec (.channelAccept chan) s = .next t ∧ { t with channels := s.channels } = s ∧
      { e with accepted := true } ∈ (t.channel chan).entries) ∧
    (64 ≤ (s.channel chan).accepted → exec (.channelAccept chan) s = .next s)) ∧
  (∀ (s : State) (ref chan v : Nat) (a : Access), s.accesses.find? (·.ref == ref) = some a → canPerform s a = true → a.gen = s.gen a.asid →
    (s.ctx? a.asid).map (·.state) ≠ some .saved →
    (apertureStore s a = some (chan, 0, v) →
      (∀ t, ((s.channel chan).templates.find? fun t => t.idx == v && t.vf == a.vf) = some t → v < 64 → chanRoom s chan = true →
        ∃ u, exec (.apertureStart ref) s = .next u ∧ MemSame s u ∧ (∀ x ∈ u.accesses, x.ref ≠ a.ref) ∧
          ∃ e, (u.channel chan).entries = (s.channel chan).entries ++ [e] ∧ e.kind = .copy t.desc ∧ e.asid = t.asid ∧ e.op = a.opid ∧ e.accepted = true ∧
            e.tmpl = some v) ∧
      (∀ t, ((s.channel chan).templates.find? fun t => t.idx == v && t.vf == a.vf) = some t → v < 64 → chanRoom s chan = false →
        exec (.apertureStart ref) s = .next s) ∧
      (((s.channel chan).templates.find? fun t => t.idx == v && t.vf == a.vf) = none → exec (.apertureStart ref) s = .next (apertureRefuse s a))) ∧
    (apertureStore s a = some (chan, 4, v) →
      (16 ≤ v → exec (.apertureJoin ref) s = .next (apertureRefuse s a)) ∧ (v < 16 → chanRoom s chan = false → exec (.apertureJoin ref) s = .next s) ∧
      (v < 16 → chanRoom s chan = true → ∃ u e, exec (.apertureJoin ref) s = .next (joinEntries (chan / 4) 260 u) ∧
        (u.channel chan).entries = (s.channel chan).entries ++ [e] ∧ ∃ ids, e.kind = .join ids ∧ ∀ i, i ∈ ids ↔ ∃ h < 4, v.testBit h = true ∧
          4 * (chan / 4) + h ≠ chan ∧ ∃ x ∈ (s.channel (4 * (chan / 4) + h)).entries, x.accepted = true ∧ x.id = i))) ∧
  (∀ (s : State) (a : Access) (l : Fibre), a.agent = .fibre l.id → apertureRefuse s a = deferPark (setResp s a.ref .failed) l.id 0x51 0 0 (some a.pc)) ∧
  (∀ (s : State) (core : Nat) (o : MxOp) (r : TileRec), headOp s core = some o → asidRuns s o.asid = true →
    (o.kind = .tile r → o.started = false →
      let m := mint s (coreDie core)
      let c := choose (emit m.2 (mxSrc core) 0x0501 m.1 o.op 0 o.vf) (tileChunks r - o.chunk + 1)
      exec (.tileIssue core) s =
        .next (tileRun (setHeadOp (c.2.passClock (.op o.op) (.op m.1)) core fun x => { x with started := true, op := m.1, chunk := x.chunk + c.1 }) core o r o.chunk c.1)) ∧
    (o.kind = .tile r → o.started = true → o.drain = none → exec (.tileDone core) s =
      .next (mxEnd (emit (tileRun s core o r o.chunk (tileChunks r - o.chunk)) (mxSrc core) 0x0502 o.op o.op 0 o.vf) core o 0)) ∧
    (∀ va fmt d, o.kind = .tile r → o.started = true → o.drain = some (va, fmt) →
      d = drainOut (emit (tileRun s core o r o.chunk (tileChunks r - o.chunk)) (mxSrc core) 0x0502 o.op o.op 0 o.vf) core o r va fmt →
      exec (.tileDone core) s = .next (mxEnd d.2 core o d.1)) ∧
    ((∀ r, o.kind ≠ .tile r) → exec (.accOpDone core) s = .next (mxEnd (accRun s core o) core o 0))) ∧
  (∀ (s : State) (core status : Nat) (o : MxOp) (f r ref : Nat), o.waiter = .token f r ref →
    ((mxEnd s core o status).core core).mxq = (s.core core).mxq.filter (·.id != o.id) ∧ MemSame s (mxEnd s core o status) ∧
    (mxEnd s core o status).owed = s.owed ++ [⟨ref, f, r, 1, false, some (BitVec.ofNat 64 status), some (s.clockOf (.op o.op))⟩]) ∧
  (∀ (s : State) (g n : Nat) (x : Graph) (y : GNode), s.graph? g = some x → x.node? n = some y →
    (y.state = 1 → asidRuns s x.asid = true → nodeBehind s x y = false →
      (y.kind = 1 → exec (.nodeDispatch g n) s = .next (dispatchKernel s x y)) ∧ (y.kind = 2 → exec (.nodeDispatch g n) s = .next (dispatchTile s x y)) ∧
      (y.kind = 3 → exec (.nodeDispatch g n) s = .next (dispatchCopy s x y)) ∧ (y.kind = 4 → exec (.nodeDispatch g n) s = .next (dispatchColl s x y)) ∧
      (y.kind = 5 → exec (.nodeDispatch g n) s = .next (dispatchInvoke s x y))) ∧
    (y.state ≠ 1 → exec (.nodeDispatch g n) s = .next s) ∧
    (y.kind = 0 ∧ y.state = 1 ∨ y.state = 2 ∧ y.pending = 0 ∧ nodeWrites s y = false ∧ y.status = 0 →
      exec (.nodeDone g n) s = .next (nodeFinish s g n y.lastOp)) ∧
    (y.state = 2 → y.pending = 0 → nodeWrites s y = false → y.status ≠ 0 → exec (.nodeDone g n) s = .next (nodeBreak s g n y.status 0)) ∧
    (y.state = 2 → y.pending ≠ 0 ∨ nodeWrites s y = true → exec (.nodeDone g n) s = .next s)) ∧
  (∀ (s : State) (x : Graph) (y : GNode) (es : List (Nat × Nat)), s.graph? x.id = some x → x.node? y.idx = some y → nodeEntries s x y = .ok (es, false) →
    (∀ e ∈ es, copyDescBad e.1 (graphScr s x.id e.2).2 true = false ∧ (copyDescOf e.1).ck = 0 ∧ coreDie e.2 ∉ s.dev.lostDies ∧
      (s.channel (entryChan e)).accepted + (es.filter fun f => entryChan f == entryChan e).length ≤ 64 ∧ (s.channel (entryChan e)).entries.all (·.accepted) = true) →
    dispatchCopy s x y = pushNodeCopies (nodeRunning s x y es.length) x y es) ∧
  (∀ (s : State) (x : Graph) (y : GNode) (n : Nat), mxFull s y.core = false → coreFree s y.core x.asid = true → devNat s x.vf x.asid y.pay 64 = .ok n →
    tileCheck n (graphScr s x.id y.core).2 = none → y.aux = 0 → coreDie y.core ∉ s.dev.lostDies →
    ∃ o, o.kind = .tile (tileRecOf n) ∧ o.waiter = nodeWaiter x.id y.idx ∧ o.op = y.op ∧ o.drain = none ∧ o.started = false ∧
      ((dispatchTile s x y).core y.core).mxq = ((nodeRunning { s with nextId := s.nextId + 1 } x y 1).core y.core).mxq ++ [o]) ∧
  (∀ (s : State) (x : Graph) (y : GNode) (c : Coll), makeColl s (.node x.id y.idx) y.op x.vf x.asid y.pay x.dies = .ok c →
    collFull s x.vf (collDies s x.vf x.asid y.pay) = false → dispatchColl s x y = startColl (nodeRunning s x y 1) c) ∧
  (∀ (s : State) (g n : Nat) (x : Graph) (y : GNode) (cause : DWord), s.graph? g = some x → x.node? n = some y →
    (∃ z ∈ x.nodes, z.idx ≠ n ∧ z.state ≠ 3 ∧ z.state ≠ 4) →
    ∃ z, (nodeFinish s g n cause).gnode? g n = some z ∧ z.state = 3) ∧
  (∀ (s : State) (g : Nat) (x : Graph), s.graph? g = some x →
    (x.waiting = [] → exec (.nodeScratchpadReserve g) s = .next s) ∧
    (∀ c cs base, x.waiting = c :: cs → cs = [] → coreFree s c x.asid = true → scrPlace (scrTaken s c) (topBoundary s c 0) x.scr = some base →
      exec (.nodeScratchpadReserve g) s = .next (rootsReady (reserveCores g x.asid x.scr [c] s) g) ∧
      (g, base, x.scr) ∈ ((reserveCores g x.asid x.scr [c] s).core c).nodeScr))

/-- R164, R213, R230, R235, R244, R245, R247, R262, R268, R270, R273 to R276: the memory's own steps and the firmware's over frames. The boundary moves within its bounds; scrubbing changes no byte and corrects what parity can
rebuild; a marked granule is zeroed and reads zero before and after; a failed channel begins a re-layout that changes no byte; an expired lease is gone; a bump raises one generation; a residency
request ends with its token or waits for the driver; a page is evicted, migrated, given to another function with its granules marked, or repaired.
What the spec leaves open here is the model's choice: logs 33, 62, 78, 79, 87, 88, 133, 135. -/
def Obligations.MemoryEventResults : Prop :=
  (∀ (s : State) (core b : Nat), core < 192 → b % 16384 = 0 → b ≤ 524288 → (∀ r ∈ scrTaken s core, r.1 + r.2 ≤ b) → b ≤ topBoundary s core 0 →
    b ≤ (s.core core).boundary + 65536 → (s.core core).boundary ≤ b + 65536 → ∃ t, exec (.boundaryMove core b) s = .next t ∧ { t with cores := s.cores } = s ∧
      (t.core core).boundary = b ∧ ((s.core core).boundary < b → (t.core core).l1 = []) ∧ (b ≤ (s.core core).boundary → (t.core core).l1 = (s.core core).l1) ∧
      ∀ n, n ≠ core → t.core n = s.core n) ∧
  (∀ (s : State) (core b : Nat), b % 16384 ≠ 0 ∨ 524288 < b ∨ (s.core core).boundary + 65536 < b ∨ b + 65536 < (s.core core).boundary ∨
    (∃ r ∈ scrTaken s core, b < r.1 + r.2) → exec (.boundaryMove core b) s = .next s) ∧
  (∀ (s : State) (stack g : Nat), stack < 16 → g * 1024 < s.backed → ∃ t, exec (.patrolScrub stack g) s = .next t ∧ MemSame s t ∧
    { t with eccBad := s.eccBad, dev := s.dev } = s ∧ { t.dev with health := s.dev.health } = s.dev ∧ (∀ l ∈ t.eccBad, l ∈ s.eccBad) ∧
    ∀ l ∈ s.eccBad, (stack * 2 ^ 30 + 16 * g ≤ l ∧ l < stack * 2 ^ 30 + 16 * g + 16 → s.rebuilds (64 * l) = true → l ∉ t.eccBad) ∧
      (l < stack * 2 ^ 30 + 16 * g ∨ stack * 2 ^ 30 + 16 * g + 16 ≤ l ∨ s.hasParity (64 * l) = false → l ∈ t.eccBad)) ∧
  (∀ (s : State) (g : Nat), ∃ t, exec (.scrubPendingZero g) s = .next t ∧ MemSame s t ∧ (∀ x, x ∈ t.scrubMarks ↔ x ∈ s.scrubMarks ∧ x ≠ g) ∧
    (g ∈ s.scrubMarks → ∀ a, a / 1024 = g → memGet t.mem a = 0)) ∧
  (∀ (s : State) (stack ch : Nat), stack < 16 → ch < 32 → (s.stackSt? stack).bind (·.failed) = none → ∃ t, exec (.channelFailure stack ch) s = .next t ∧ MemSame s t ∧
    { t with stackSts := s.stackSts, leases := s.leases } = s ∧ t.leases = s.leases.map (fun l => { l with unpinned := l.unpinned ++ [stack] }) ∧ ∃ x, t.stackSt? stack = some x ∧ x.failed = some ch ∧ x.cursor = 0 ∧ x.lossy = !s.hasParity (stack * 2 ^ 36)) ∧
  (∀ (s : State) (stack ch : Nat), 16 ≤ stack ∨ 32 ≤ ch ∨ (s.stackSt? stack).bind (·.failed) ≠ none → exec (.channelFailure stack ch) s = .next s) ∧
  (∀ (s : State) (stack : Nat) (x : StackSt), s.stackSt? stack = some x → x.failed ≠ none → x.cursor < s.backed / 1024 → ∃ t, exec (.granuleMove stack) s = .next t ∧
    MemSame s t ∧ ∃ y, t.stackSt? stack = some y ∧ y.cursor = x.cursor + 1 ∧ y.failed = x.failed ∧
      y.parityOff = (x.parityOff || x.cursor + 1 == s.backed / 1024)) ∧
  (∀ (s : State) (stack ch row : Nat), ∃ t, exec (.refreshManagement stack ch row) s = .next t ∧
    { t with throttled := s.throttled, rowActs := s.rowActs } = s ∧ (∀ r, r ∈ t.throttled ↔ r ∈ s.throttled ∧ r ≠ ⟨stack, ch, row⟩) ∧
    ∀ r, r ∈ t.rowActs ↔ r ∈ s.rowActs ∧ r.1 ≠ ⟨stack, ch, row⟩) ∧
  (∀ (s : State) (lease : Nat), ∃ t, exec (.leaseExpire lease) s = .next t ∧ { t with leases := s.leases } = s ∧
    ∀ l, l ∈ t.leases ↔ l ∈ s.leases ∧ (l.id ≠ lease ∨ s.time.dtc < l.expiry)) ∧
  (∀ (s : State) (asid : Nat), (∃ c ∈ s.ctxs, c.asid = asid) →
    ((∀ a ∈ s.accesses, a.asid = asid → a.gen = s.gen asid ∧ (a.resp ≠ .none ∨ a.done = 0 ∧ a.half = none)) → ∃ t, exec (.generationBump asid) s = .next t ∧ MemSame s t ∧ t.gen asid = (s.gen asid + 1) % 256 ∧
      (∀ x ∈ t.tlb, x.asid ≠ asid) ∧ (∀ n, n ≠ asid → t.gen n = s.gen n) ∧ t.fibres = s.fibres) ∧
    ((∃ a ∈ s.accesses, a.asid = asid ∧ (a.gen ≠ s.gen asid ∨ a.resp = .none ∧ (a.done ≠ 0 ∨ a.half ≠ none))) → exec (.generationBump asid) s = .next s)) ∧
  (∀ (s : State) (ref : Nat) (r : ResReq), s.resReqs.find? (·.ref == ref) = some r →
    (∀ k, r.asked = false → resNext s r = .token k → exec (.residencyRequest ref) s = .next (resToken s r k)) ∧
    (∀ g, r.asked = false → resNext s r = .fill g → fillLeaf s r.vf g = none → exec (.residencyRequest ref) s = .next (resToken s r 2)) ∧
    (r.asked = false → resNext s r = .ask → (∀ x ∈ s.resReqs, x.asked = false) → postRing s r = none → exec (.residencyRequest ref) s = .next (resToken s r 2)) ∧
    (∀ s1, r.asked = false → resNext s r = .ask → (∀ x ∈ s.resReqs, x.asked = false) → postRing s r = some s1 → s1.resReqs = s.resReqs →
      ∃ t, exec (.residencyRequest ref) s = .next t ∧ { t with resReqs := s1.resReqs } = s1 ∧ { r with asked := true, deadline := s.time.dtc + usTicks 1000000 } ∈ t.resReqs) ∧
    (r.asked = true → exec (.residencyRequest ref) s = .next s) ∧
    (r.asked = true → r.deadline ≤ s.time.dtc → exec (.residencyWaitTimeout ref) s = .next (resToken s r 2)) ∧
    (s.time.dtc < r.deadline → exec (.residencyWaitTimeout ref) s = .next s)) ∧
  (∀ (s : State) (r : ResReq) (k : Nat), (∀ x ∈ (resToken s r k).resReqs, x.covers s r.vf r.asid r.va = false) ∧ MemSame s (resToken s r k) ∧
    ∀ x ∈ s.resReqs, x.covers s r.vf r.asid r.va = true → ∀ o ∈ s.owed, o.ref = x.ref → { o with val := some (BitVec.ofNat 64 k) } ∈ (resToken s r k).owed) ∧
  (∀ (s : State) (vf gpa a e : Nat) (f : Fn), validLeaf s vf gpa = some (a, e, 1) → s.fn? vf = some f →
    (e.testBit 5 = true → e.testBit 9 = false → e.testBit 11 = false → isExported s vf (gpa / 4096 * 4096) 4096 = false → bumpReadyFn s vf = true →
      exec (.pageEviction vf gpa) s = .next (bumpFn (putEntry (s.setFn vf fun f => { f with
        backing := f.backing ++ [(freeBacking f, gpa / 4096 * 4096, s.getBytes (pfnOf e % 2 ^ 49) 4096)], pool := f.pool ++ [(pfnOf e, 4096)],
        assigned := cutGpa f.assigned (gpa / 4096 * 4096) 4096 }) a (entryWith e (4096 * freeBacking f) false)) vf)) ∧
    (e.testBit 5 = false ∨ e.testBit 9 = true ∨ isExported s vf (gpa / 4096 * 4096) 4096 = true → exec (.pageEviction vf gpa) s = .next s) ∧
    (∀ frame pool, e.testBit 5 = true → e.testBit 9 = false → e.testBit 11 = false → isExported s vf (gpa / 4096 * 4096) 4096 = false → frame % 4096 = 0 →
      bumpReadyFn s vf = true → s.migrations.find? (fun m => m.vf == vf && m.gpa == gpa / 4096 * 4096) = none → takeGiven f.pool frame 4096 = some pool →
      exec (.pageMigration vf gpa frame) s = .next (bumpFn (putEntry (({ s with migrations := s.migrations ++ [⟨vf, gpa / 4096 * 4096, frame⟩] } : State).setFn vf
        fun f => { f with pool := pool }) a (e + 2 ^ 9)) vf)) ∧
    (∀ frame m s1 bs, e.testBit 5 = true → e.testBit 11 = false → isExported s vf (gpa / 4096 * 4096) 4096 = false → frame % 4096 = 0 → bumpReadyFn s vf = true →
      s.migrations.find? (fun m => m.vf == vf && m.gpa == gpa / 4096 * 4096) = some m → s1 = { s with migrations := s.migrations.erase m } →
      readAt s1 (pfnOf e) 4096 = .ok bs → exec (.pageMigration vf gpa frame) s = .next (markFrame (bumpFn (putEntry (followPage ((fillFrame s1 m.frame 4096 bs).setFn m.vf
        fun f => { f with pool := f.pool ++ [(pfnOf e, 4096)], assigned := moveGpa f.assigned m.gpa 4096 m.frame }) (pfnOf e) m.frame 4096) a
        (entryWith e m.frame true)) m.vf) (pfnOf e) 4096)) ∧
    (∀ frame, isExported s vf (gpa / 4096 * 4096) 4096 = true → exec (.pageMigration vf gpa frame) s = .next s)) ∧
  (∀ (e pfn : Nat) (res : Bool), pfn % 4096 = 0 → pfn < 2 ^ 52 → e < 2 ^ 64 →
    pfnOf (entryWith e pfn res) = pfn ∧ (entryWith e pfn res).testBit 5 = res ∧ ∀ i, i < 5 ∨ 6 ≤ i ∧ i < 12 ∨ 52 ≤ i → (entryWith e pfn res).testBit i = e.testBit i) ∧
  (∀ (s : State) (spa n : Nat) (bs : List Byte), MemCanonical s → bs.length ≤ n →
    ∀ i, i < n → (fillFrame s spa n bs).getByte (spa % 2 ^ 49 + i) = bs.getD i 0) ∧
  (∀ (s : State) (spa n g : Nat), spa % 2 ^ 49 / 1024 ≤ g → g < spa % 2 ^ 49 / 1024 + n / 1024 →
    g ∈ (markFrame s spa n).scrubMarks ∧ ∀ a, a / 1024 = g → (markFrame s spa n).getByte a = 0) ∧
  (∀ (s t : State) (frame fromVf toVf toGpa : Nat) (c : List (Nat × Nat) × List (Nat × Nat × Nat)), frame % 4096 = 0 → toGpa % 4096 = 0 → frame < 2 ^ 49 →
    s.fn? toVf ≠ none → bumpReadyFn s fromVf = true → c = cutFrame (((s.fn? fromVf).map (·.assigned)).getD []) frame 4096 →
    (∀ g ∈ c.1, isExported s fromVf g.1 g.2 = false) → (∀ m ∈ s.migrations, frame + 4096 ≤ m.frame ∨ m.frame + 2 ^ 30 ≤ frame) →
    mapLeaf ((markFrame ((if c.1 = [] then s else bumpFn (c.1.foldl (fun s g => clearLeaves s fromVf g.1 g.2) s) fromVf).setFn fromVf
        fun f => { f with assigned := c.2, pool := (takeGiven f.pool frame 4096).getD f.pool }) frame 4096).setFn toVf
      fun f => { f with assigned := f.assigned ++ [(toGpa, 4096, frame)] }) toVf toGpa 1 (ownLeaf frame) = some t →
    exec (.frameReassign frame 4096 fromVf toVf toGpa) s = .next t) ∧
  (∀ (g len spa frame n : Nat), spa ≤ frame → frame + n ≤ spa + len → 0 < n → (cutFrame [(g, len, spa)] frame n).1 = [(g + (frame - spa), n)] ∧
    ∀ x ∈ (cutFrame [(g, len, spa)] frame n).2, x.2.2 + x.2.1 ≤ frame ∨ frame + n ≤ x.2.2) ∧
  (∀ (s : State) (vf gpa a e : Nat), gpa % 4096 = 0 → validLeaf s vf gpa = some (a, e, 1) → clearLeaves s vf gpa 4096 = putEntry s a 0) ∧
  (∀ (s : State) (id : Nat) (f : Fibre) (p : Parked), s.fibre? id = some f → f.status = .parked p →
    (firmwareFirst p.frec = false → exec (.stage2Repair id) s = .next s) ∧
    (firmwareFirst p.frec = true → (∀ c st, translateWalk s (s.fibreVf f) (s.fibreAsid f) p.frec.arg.toNat .read = .fail c st →
      c ≠ 0x92 ∧ c ≠ 0x94 ∧ (c = 0x93 → st ≠ 2)) → exec (.stage2Repair id) s = .next (resumeFibre (remake s id) id p.resume)) ∧
    (∀ c st, firmwareFirst p.frec = true → translateWalk s (s.fibreVf f) (s.fibreAsid f) p.frec.arg.toNat .read = .fail c st →
      c = 0x92 ∨ c = 0x94 ∨ c = 0x93 ∧ st = 2 →
      (∀ t g, faultGpa s (s.fibreVf f) (s.fibreAsid f) p.frec.arg.toNat = some g → rebuildLeaf s (s.fibreVf f) g = some t →
        exec (.stage2Repair id) s = .next (resumeFibre (remake t id) id p.resume)) ∧
      (∀ g, (faultGpa s (s.fibreVf f) (s.fibreAsid f) p.frec.arg.toNat).bind (fun x => rebuildLeaf s (s.fibreVf f) x) = none → s.fibreGrid f = some g →
        exec (.stage2Repair id) s = .next (killGrid (s.setGrid g.id fun x => { x with doom := some (x.doom.getD (2, p.lp)) }) g.id 2)))) ∧
  (∀ (s : State) (id : Nat) (pc : DWord), (∃ f, s.fibre? id = some f) → FibreIs (resumeFibre s id pc) id fun g => g.status = .ready ∧ g.pc = pc ∧ VoidLatches g) ∧
  (∀ (s : State) (die : Nat), (die ∈ s.dev.lostDies ∨ 8 ≤ die → exec (.dieIsolation die) s = .next s) ∧ exec (.dieIsolation die) s = .next (isolateDie s die)) ∧
  (∀ (s : State) (b : Nat), b < 24 ∨ 33 < b ∨ b ∈ s.dev.badBoundaries → exec (.dieBoundaryFailure b) s = .next s) ∧
  (∀ (s : State) (b : Nat), 24 ≤ b → b ≤ 33 → b ∉ s.dev.badBoundaries →
    (∀ d < 8, ∃ x ∈ boundariesOf d, x ≠ b ∧ x ∉ s.dev.badBoundaries) →
    exec (.dieBoundaryFailure b) s = .next { s with dev := { s.dev with badBoundaries := s.dev.badBoundaries ++ [b] } }) ∧
  (∀ (s : State) (b d : Nat), 24 ≤ b → b ≤ 33 → b ∉ s.dev.badBoundaries → d < 8 → (∀ x ∈ boundariesOf d, x = b ∨ x ∈ s.dev.badBoundaries) →
    (∀ d' < 8, d' ≠ d → ∃ x ∈ boundariesOf d', x ≠ b ∧ x ∉ s.dev.badBoundaries) →
    exec (.dieBoundaryFailure b) s = .next (isolateDie { s with dev := { s.dev with badBoundaries := s.dev.badBoundaries ++ [b] } } d)) ∧
  (∀ b, 24 ≤ b → b ≤ 33 → ∃ d d', d < 8 ∧ d' < 8 ∧ d ≠ d' ∧ ∀ x < 8, b ∈ boundariesOf x ↔ x = d ∨ x = d')

/-- R362, R363, R369 to R376: contexts. A halt stops a running context and mints its PREEMPT_HALT; once everything has drained the save writes its image, with every fibre, crew and core record in it,
and leaves none of them behind; a restoration puts a good image onto the cores that are chosen, and kills the context of a bad one. What arrives for a crew that has moved is sent on, an entry goes 1 ms after its restoration, and the home
registers the new core for a line in place of the old one.
What the spec leaves open here is the model's choice: logs 89, 91, 92, 95, 96. -/
def Obligations.ContextResults : Prop :=
  (∀ (s : State) (ctx reason : Nat) (c : Ctx), s.ctx? ctx = some c →
    (c.state = .running → 1 ≤ reason → reason ≤ 3 → ∃ t x, exec (.preemptHalt ctx reason) s = .next t ∧ MemSame s t ∧ t.fibres = s.fibres ∧ t.cores = s.cores ∧
      t.ctx? ctx = some x ∧ x.state = .halting ∧ x.preOp = (mint s 0).1 ∧ x.gen = c.gen ∧ asidRuns t ctx = false) ∧
    (c.state ≠ .running → exec (.preemptHalt ctx reason) s = .next s) ∧
    (c.state = .halting → drained s ctx = true → exec (.ctxSaved ctx) s = .next (saveCtx s c)) ∧
    (c.state ≠ .halting ∨ drained s ctx = false → exec (.ctxSaved ctx) s = .next s) ∧
    (c.image = none → ∀ cores, exec (.ctxRestored ctx cores) s = .next s) ∧
    (∀ i cores, c.image = some i → imageOk s c i = false → exec (.ctxRestored ctx cores) s = .next (killCtx s ctx 6)) ∧
    (∀ i cores, c.image = some i → imageOk s c i = true → coresFit s c i cores = true → exec (.ctxRestored ctx cores) s = .next (restoreCtx s c i cores)) ∧
    (∀ i cores, c.image = some i → imageOk s c i = true → coresFit s c i cores = false → exec (.ctxRestored ctx cores) s = .next s)) ∧
  (∀ (s : State) (c : Ctx), s.ctx? c.asid = some c → ∃ x i, (saveCtx s c).ctx? c.asid = some x ∧ x.state = .saved ∧ x.image = some i ∧ i.cid = c.preOp ∧ i.gen = c.gen ∧
    i.accesses = heldAccesses s c.asid ∧ (∀ a ∈ heldAccesses s c.asid, ∀ b ∈ (saveCtx s c).accesses, b.ref ≠ a.ref) ∧
    (∀ e ∈ i.entries, e.2.status = 4 ∨ e.2.row = 0 ∧ e.2.outstanding = []) ∧
    i.fibres.length = (ctxFibres s c.asid).length ∧ (heldAccesses s c.asid = [] →
      (∀ (n : Nat) (f g : Fibre), (ctxFibres s c.asid)[n]? = some f → i.fibres[n]? = some g → { g with status := f.status } = f) ∧
      ∀ f ∈ ctxFibres s c.asid, f.status = .ready → f ∈ i.fibres) ∧
    (NamesOk s → ∀ a f, heldAccesses s c.asid = [a] → a.owner = some f.id → f ∈ s.fibres → f.status = .ready →
      ∃ g ∈ i.fibres, g.id = f.id ∧ g.status = .replay [a.ref] ∧ VoidLatches g) ∧ i.cores.map (·.num) = (ctxCores s c.asid).map (·.num) ∧
    (∀ f ∈ ctxFibres s c.asid, ∀ g ∈ (saveCtx s c).fibres, g.id ≠ f.id) ∧ (∀ ch ∈ (saveCtx s c).channels, ∀ e ∈ ch.entries, e.asid ≠ c.asid) ∧ MemSame s (saveCtx s c) ∧
    ∀ k ∈ (saveCtx s c).cores, k.ctx ≠ some c.asid) ∧
  (∀ (s : State) (c : Ctx) (i : Image) (cores : List (Nat × Nat)), s.ctx? c.asid = some c → i.layout = 3 → i.entries = [] → (∀ f ∈ i.fibres, f.status = .ready) →
    (∀ g ∈ s.grids, g.asid = c.asid → g.killed = none) → ∃ x, (restoreCtx s c i cores).ctx? c.asid = some x ∧ x.state = .running ∧ x.image = none ∧
      (restoreCtx s c i cores).fibres = s.fibres ++ i.fibres.map (fun f => { f with dup := [] }) ∧ (restoreCtx s c i cores).accesses = s.accesses ++ i.accesses ∧ MemSame s (restoreCtx s c i cores) ∧ (restoreCtx s c i cores).grids = s.grids ∧
      (restoreCtx s c i cores).crews = s.crews ++ i.crews.map fun k => { k with core := newCore cores k.core }) ∧
  (∀ (s : State) (core : Nat), heldItem (s.core core) = none → exec (.migrateFwd core) s = .next s) ∧
  (∀ (s : State) (core t line : Nat) (e : FwdEntry) (op : DWord), heldItem (s.core core) = some (e, t, line, op) → ∃ u, exec (.migrateFwd core) s = .next u ∧
    MemSame s u ∧ u.fibres = s.fibres ∧ (∃ n, u.wakes = s.wakes ++ [⟨n, t, line, op, none⟩]) ∧ (∀ m, m ≠ core → u.core m = s.core m) ∧
    (u.core core).fwd = (s.core core).fwd.map fun x => if x.crew = e.crew then { x with held := x.held.drop 1 } else x) ∧
  (∀ (s : State) (core crew t : Nat) (e : FwdEntry), (s.core core).fwd.find? (·.crew == crew) = some e → e.since = some t →
    (t + usTicks 1000 ≤ s.time.dtc → ∃ u, exec (.forwardEntryRemoval core crew) s = .next u ∧ { u with cores := s.cores, registrations := s.registrations } = s ∧
      (∀ x ∈ (u.core core).fwd, x.crew ≠ crew) ∧ (∀ r ∈ u.registrations, r ∈ s.registrations) ∧
      ∀ r ∈ s.registrations, r.2 ≠ core ∨ r.1 ∉ e.lines → r ∈ u.registrations) ∧
    (s.time.dtc < t + usTicks 1000 → exec (.forwardEntryRemoval core crew) s = .next s)) ∧
  (∀ (s : State) (line a b : Nat), (line, a, b) ∉ s.moves → exec (.moveReg line a b) s = .next s) ∧
  (∀ (s : State) (line a b : Nat), (line, a, b) ∈ s.moves → ∃ u, exec (.moveReg line a b) s = .next u ∧ MemSame s u ∧ u.cores = s.cores ∧
    ((∃ w ∈ (s.core b).wake, w.line = line) → (line, b) ∈ u.registrations) ∧ ((∃ w ∈ (s.core a).wake, w.line = line) → (line, a) ∈ s.registrations → (line, a) ∈ u.registrations) ∧
    ((∀ w ∈ (s.core a).wake, w.line ≠ line) → a ≠ b → (line, a) ∉ u.registrations)) ∧
  (∀ (s : State) (vf : Nat) (f : Fn), s.fn? vf = some f → vf ≤ 256 →
    (sliceOver s f = true → f.pluginPin ≠ 0 → ∃ t q, exec (.sliceEnd vf) s = .next t ∧ 10 ≤ q ∧ q ≤ 10000 ∧
      OnlyFn { s with free := t.free } t vf fun g => g = { f with sliceAt := s.time.dtc, quantum := q }) ∧
    (sliceOver s f = true → f.pluginPin = 0 → ∃ t, exec (.sliceEnd vf) s = .next t ∧ OnlyFn s t vf fun g => g = { f with sliceAt := s.time.dtc }) ∧
    (sliceOver s f = false → exec (.sliceEnd vf) s = .next s))

/-- R192, R329, R330, R332 to R338, R343, R394: the fabric. A packet that breaks its format is dropped and counted, one in sequence is delivered, one ahead of its sequence is held, and a gap that stands for
100 us is given up. A request is served under an export to its key, and refused otherwise; an answer goes to the request with its TAG; a request without answer for 200 us fails with FABRIC
or its access code. A flit out of link sequence is discarded; a retry timeout sends every unacknowledged flit again; a port narrows, goes down and steps up again.
What the spec leaves open here is the model's choice: logs 15, 17, 20, 22. -/
def Obligations.FabricResults : Prop :=
  (∀ (s : State) (p : FabPkt),
    (InOrder s p 1 → Delivers (.fabRead p) s p serveRequest) ∧ (InOrder s p 2 → Delivers (.fabWrite p) s p serveRequest) ∧
    (InOrder s p 3 → Delivers (.fabWriteWake p) s p serveRequest) ∧ (InOrder s p 4 → Delivers (.fabAtomic p) s p serveRequest) ∧
    (InOrder s p 5 → Delivers (.respData p) s p takeRespData) ∧ (InOrder s p 6 → Delivers (.respAck p) s p takeRespAck) ∧
    (InOrder s p 7 → Delivers (.respErr p) s p takeRespErr) ∧ (InOrder s p 0x10 → Delivers (.ctrInc p) s p serveInc) ∧
    (InOrder s p 0x11 → Delivers (.collData p) s p takeCollPkt) ∧ (InOrder s p 0x12 → Delivers (.collRed p) s p takeCollRed) ∧
    (InOrder s p 0x13 → Delivers (.collMcast p) s p takeCollPkt) ∧
    ∀ die, InOrder s p 0x20 → Delivers (.gwMsg die (.packet p)) s p takeGwPkt) ∧
  (∀ (s : State) (p : FabPkt), (gwOf p.payload = none → takeGwPkt s p = s) ∧ ∀ die m, gwOf p.payload = some (die, m) → takeGwPkt s p = gwArrive die m s) ∧
  (∀ (s : State) (src plane : Nat), (s.reorderOf src plane).held = [] → drainReorder deliver src plane 1 s = s) ∧
  (∀ (s : State) (p : FabPkt), s.dev.dstate ≠ 2 →
    (pktBad p = true → exec (.fabRead p) s = .next { s with dev := { s.dev with drops := s.dev.drops + 1 } }) ∧
    (p.op = 1 → pktBad p = false → p.dstdev.toNat ≠ s.dev.dev → exec (.fabRead p) s = .next s) ∧
    (∀ n, p.op = 1 → pktBad p = false → p.dstdev.toNat = s.dev.dev → p.plane.toNat < 24 → (s.reorderOf p.srcdev.toNat p.plane.toNat).next = some n →
      n ≠ p.seq.toNat → (s.reorderOf p.srcdev.toNat p.plane.toNat).held.length < 4096 → ∃ t, exec (.fabRead p) s = .next t ∧ { t with reorder := s.reorder } = s ∧
        (t.reorderOf p.srcdev.toNat p.plane.toNat).held = (s.reorderOf p.srcdev.toNat p.plane.toNat).held ++ [p] ∧
        (t.reorderOf p.srcdev.toNat p.plane.toNat).next = some n)) ∧
  (∀ (s : State) (p : FabPkt), s.dev.dstate = 2 → exec (.fabRead p) s = .next s ∧ exec (.respData p) s = .next s ∧ exec (.ctrInc p) s = .next s) ∧
  (∀ (s : State) (p : FabPkt) (st off : Nat), s.place (p.addr.toNat % 2 ^ 49) = .hbm st off →
    (exporter s p.pkey (p.addr.toNat % 2 ^ 49) = none → serveRequest s p = sendRefusal s p 0xA1) ∧
    (∀ vf, exporter s p.pkey (p.addr.toNat % 2 ^ 49) = some vf → MemSame s (serveRequest s p) ∧ ∃ a, (serveRequest s p).accesses = s.accesses ++ [a] ∧
      (serveRequest s p).served = s.served ++ [(a.ref, p)] ∧ a.vf = vf ∧ a.spa = p.addr.toNat ∧ a.op = servedOp p ∧ a.dev = none)) ∧
  (∀ (s : State) (p : FabPkt) (o : Nat), s.place (p.addr.toNat % 2 ^ 49) = .window o → serveRequest s p = sendRefusal s p 0xA1) ∧
  (∀ (s : State) (p : FabPkt) (c o : Nat), s.place (p.addr.toNat % 2 ^ 49) = .aperture c o → serveRequest s p = sendRefusal s p 0xA1) ∧
  (∀ (s : State) (p : FabPkt) (r : RemoteReq) (ref : Nat), requestOf s p = some r → r.use = .access ref →
    (∀ a, s.accesses.find? (·.ref == ref) = some a → isWaitRead s a = none →
      takeRespData s p = setResp (closeRequest s r) ref (.ok (p.payload.take (opSize a.op)) [] [])) ∧
    takeRespAck s p = dropAccess (closeRequest s r) ref ∧
    (sendOfRef (closeRequest s r) ref = none → takeRespErr s p = setResp (closeRequest s r) ref (.err (bytesNat (p.payload.take 2))))) ∧
  (∀ (s : State) (p : FabPkt), requestOf s p = none → takeRespData s p = s ∧ takeRespAck s p = s ∧ takeRespErr s p = s) ∧
  (∀ (s : State) (r : RemoteReq), (∀ x ∈ (closeRequest s r).remote, x.tag ≠ r.tag) ∧ MemSame s (closeRequest s r) ∧ (closeRequest s r).accesses = s.accesses) ∧
  (∀ (s : State) (p : FabPkt) (f : Fn), s.fns.find? (fun f => f.pkey == some p.pkey.toNat && counterOk s f.vf (bytesNat (p.payload.take 4))) = some f →
    serveInc s p = sendAnswer (counterRecv s f.vf (bytesNat (p.payload.take 4)) (bytesNat ((p.payload.drop 4).take 4)) p.cid) p 6 []) ∧
  (∀ (s : State) (tag : Nat) (r : RemoteReq), s.remote.find? (·.tag == tag) = some r → r.open = true →
    (s.time.dtc < r.since + usTicks 200 → exec (.fabTimeout tag) s = .next s) ∧
    (r.since + usTicks 200 ≤ s.time.dtc → r.use ≠ .coll → exec (.fabTimeout tag) s = .next (takeErr s r 0xA0)) ∧
    (r.since + usTicks 200 ≤ s.time.dtc → r.use = .coll → exec (.fabTimeout tag) s = .next (collLost (closeRequest s r) r.dev none))) ∧
  (∀ (s : State) (src plane : Nat), let r := s.reorderOf src plane
    (r.held = [] ∨ s.time.dtc < r.since + usTicks 100 → exec (.seqGapTimeout src plane) s = .next s) ∧
    (r.held ≠ [] → r.since + usTicks 100 ≤ s.time.dtc → exec (.seqGapTimeout src plane) s = .next ((r.held.filter fun p => p.vc != 1).foldl
      (fun s p => sendRefusal s p 0xA1) (s.setReorder src plane fun r => { r with next := none, held := [] })))) ∧
  (∀ (s : State) (dev : Nat), ∃ t, exec (.lost dev none) s = .next t ∧ dev ∈ t.dev.lostDevs) ∧
  (∀ (s : State) (dev die : Nat), (dev ≠ s.dev.dev → exec (.lost dev (some die)) s = .next (collLost (gwLost s dev (some die)) dev (some die))) ∧
    exec (.lost dev (some die)) s = .next (loseDevice s dev (some die))) ∧
  (∀ (s : State) (n : Nat), ((s.port n).lanes = 0 → exec (.linkRetryTimeout n) s = .next s) ∧
    ((s.port n).lanes ≠ 0 → ∃ t, exec (.linkRetryTimeout n) s = .next t ∧ { t with outbox := s.outbox } = s ∧
      t.outbox = s.outbox ++ (s.port n).retry.map fun f => Out.flit n f.2)) ∧
  (∀ (s : State) (n w : Nat), n < 24 → ((s.port n).lanes, w) ∈ [(8, 4), (4, 2)] → exec (.linkWidth n w) s = .next (retrain s n w)) ∧
  (∀ (s : State) (n : Nat), n < 24 → (s.port n).lanes = 2 → ∃ t, exec (.linkWidth n 0) s = .next t ∧ (t.port n).lanes = 0 ∧ MemSame s t ∧
    ∀ m, m ≠ n → t.port m = s.port m) ∧
  (∀ (s : State) (n w : Nat), ((s.port n).lanes, w) ∉ [(8, 4), (4, 2), (2, 0)] → exec (.linkWidth n w) s = .next s) ∧
  (∀ (s : State) (n : Nat), n < 24 → (s.port n).lanes < 8 → s.dev.dstate ≠ 2 →
    exec (.linkStepUp n true) s = .next (retrain s n (if (s.port n).lanes = 0 then 2 else 2 * (s.port n).lanes)) ∧ exec (.linkStepUp n false) s = .next s) ∧
  (∀ (s : State) (n : Nat) (f : FlitW), n < 24 → (s.port n).lanes ≠ 0 →
    (∀ ok, ok = false ∨ f.lseq.toNat ≠ ((s.port n).rxSeq + 1) % 1024 → exec (.flit n f ok) s = .next s) ∧
    (f.lseq.toNat = ((s.port n).rxSeq + 1) % 1024 → exec (.flit n f true) s = .next (recvFlit s n f true) ∧ MemSame s (recvFlit s n f true) ∧
      (recvFlit s n f true).fibres = s.fibres ∧ ((recvFlit s n f true).port n).rxSeq = f.lseq.toNat)) ∧
  (∀ (s : State) (n : Nat) (f : FlitW) (ok : Bool), (s.port n).lanes = 0 → exec (.flit n f ok) s = .next s)

/-- R194, R319, R341 to R344, R346 to R348, R350, R353 to R358: collectives and greenware in progress. A participant whose roster is fixed and whose data is there has its result written and completes; one that was decided against, or whose cone runs out,
ends with TIMEOUT, and the cone's end names the first late rank. A message reaches an entry, runs its image or answers a query; a fire makes an UNFIRED entry FIRED and a
crack CRACKED with its code, and neither changes an entry that is not UNFIRED; a refused message goes again, a final entry is freed when its retention is over, a lost origin answers DIE_LOST.
A message that is forwarded tells its own handle where it went, and one to another device leaves on the plane of its handle.
What the spec leaves open here is the model's choice: logs 18, 28, 85, 151, 152. -/
def Obligations.CollectiveGreenwareResults : Prop :=
  (∀ (s : State) (id rank : Nat) (c : Coll) (p : CollPart), s.coll? id = some c → c.part? rank = some p →
    (p.done = true → exec (.collDone id rank) s = .next s ∧ exec (.witnessExpire id rank) s = .next s) ∧
    (p.done = false → p.doomed = true → exec (.collDone id rank) s = .next (collGo (partFail s id rank 5))) ∧
    (p.done = false → p.doomed = false → p.roster = none → exec (.collDone id rank) s = .next s) ∧
    (∀ l, p.done = false → p.doomed = false → p.roster = some l → p.written = none → partReady c p (inSwitch s c) = false → exec (.collDone id rank) s = .next s) ∧
    (∀ l e, p.done = false → p.doomed = false → p.roster = some l → p.written = none → partReady c p (inSwitch s c) = true → writeResult s c p l = .error e →
      exec (.collDone id rank) s = .next (collGo (partFail s id rank 2))) ∧
    (∀ l t, p.done = false → p.doomed = false → p.roster = some l → p.written = none → partReady c p (inSwitch s c) = true → writeResult s c p l = .ok t →
      (∀ a ∈ t.accesses, a.ref < s.nextId) →
      exec (.collDone id rank) s = .next (collGo (partDone (t.setPart id rank fun p => { p with written := some [] }) c p))) ∧
    (∀ l refs, p.done = false → p.doomed = false → p.roster = some l → p.written = some refs → (∀ a ∈ s.accesses, a.ref ∉ refs) →
      exec (.collDone id rank) s = .next (collGo (partDone s c p))) ∧
    (p.done = false → p.arrived = true → p.roster = none → p.deadline ≤ s.time.dtc →
      let s1 := emit s (collSrc p.die) 0x0605 p.op (firstLate s c p).2 (firstLate s c p).1 c.vf
      (p.doomed = true → exec (.witnessExpire id rank) s = .next (collGo (partFail s1 id rank 5))) ∧
      (p.doomed = false → c.elastic = false → exec (.witnessExpire id rank) s = .next (collGo (partFail (spreadDecision s1 c p []) id rank 5))) ∧
      (p.doomed = false → c.elastic = true →
        let l := (List.range (collRanks s c)).filter fun r => ((p.arrivals.map (·.1)).filter fun r => !(s.comm c.vf c.comm).excluded.contains r).contains r
        exec (.witnessExpire id rank) s = .next (collGo (spreadDecision (takeDecision s1 c p l) c p l)))) ∧
    (s.time.dtc < p.deadline → exec (.witnessExpire id rank) s = .next s)) ∧
  (∀ (s : State) (c : Coll) (p : CollPart), missing s c p ≠ [] → (firstLate s c p).1 ∈ missing s c p) ∧
  (∀ (s : State) (c : Coll) (p : CollPart) (l : List Nat),
    (c.kind = 3 → partResult s c p l = [(0, contribOf p l.length c.root)]) ∧
    (c.kind = 2 → partResult s c p l = l.map fun r => (r * (c.count * collElem c.ty), contribOf p l.length r))) ∧
  (∀ (s : State) (p : FabPkt), (keyFn s p.pkey = none → takeCollPkt s p = sendRefusal s p 0xA1) ∧
    (∀ vf, keyFn s p.pkey = some vf →
      takeCollPkt s p = collGo { (sendAnswer s p 6 []) with collNet := (toRanks s (msgOf vf p.cid p.payload)).foldl addMsg s.collNet })) ∧
  (∀ (s : State) (die idx dev ldie : Nat) (op : DWord), (s.gwEntry die idx).state = 1 → ∀ code, code < 256 →
    (let e := (gwFire s die idx dev ldie op).gwEntry die idx
     e.state = 2 ∧ e.ldev = dev ∧ e.ldie = ldie ∧ e.whenDtc = s.time.dtc ∧ e.queue = [] ∧ e.deps = [] ∧ e.gen = (s.gwEntry die idx).gen ∧ gwWord e = 1) ∧
    (let e := (gwCrack s die idx code op).gwEntry die idx
     e.state = 3 ∧ e.code = code ∧ e.whenDtc = s.time.dtc ∧ e.queue = [] ∧ e.deps = [] ∧ e.gen = (s.gwEntry die idx).gen ∧
       gwWord e = BitVec.ofNat 32 (2 + 256 * code))) ∧
  (∀ (s : State) (die idx dev ldie code : Nat) (op : DWord), (s.gwEntry die idx).state ≠ 1 → gwFire s die idx dev ldie op = s ∧ gwCrack s die idx code op = s) ∧
  (∀ (s : State) (die idx dev ldie : Nat) (op : DWord), s.gwNet = [] → dev ≠ s.dev.dev → die < 8 → die ∉ s.dev.lostDies → s.dev.dstate ≠ 2 →
    exec (.handleFire die idx dev ldie op) s = .next (gwFire s die idx dev ldie op) ∧
    ∀ code, exec (.handleCrack die idx code op) s = .next (gwCrack s die idx (if code = 1 ∨ code = 5 then 2 else code) op)) ∧
  (∀ (s : State) (die idx dev ldie : Nat) (h op : DWord), handleIdx h = idx → die < 8 → die ∉ s.dev.lostDies → s.dev.dstate ≠ 2 →
    (s.gwNet = [(die, .fire h dev ldie op)] → exec (.handleFire die idx dev ldie op) s = .next (fireAt { s with gwNet := [] } h dev ldie op)) ∧
    ∀ code, s.gwNet = [(die, .crack h code op)] → exec (.handleCrack die idx code op) s = .next (crackAt { s with gwNet := [] } h code op)) ∧
  (∀ (s : State) (h : DWord) (dev ldie code : Nat) (op : DWord), gwCurrent s h = none → fireAt s h dev ldie op = s ∧ crackAt s h code op = s) ∧
  (∀ (s : State) (die : Nat) (m : GwMsg), die < 8 → die ∉ s.dev.lostDies → s.dev.dstate ≠ 2 → let s1 := { s with gwNet := s.gwNet.erase (die, m) }
    (∀ dst i, m = .queued dst i → exec (.gwMsg die m) s = .next (atEntry s1 dst i false)) ∧
    (∀ h i, m = .dependant h i → exec (.gwMsg die m) s = .next (atEntry s1 h i true)) ∧
    (∀ i, m = .run i → runBehind s die i = false → exec (.gwMsg die m) s = .next (startRun s1 die i)) ∧
    (∀ i, m = .run i → runBehind s die i = true → (die, m) ∈ s.gwNet → exec (.gwMsg die m) s = .next s) ∧
    (∀ h vf ref src, m = .query h ref vf false src → exec (.gwMsg die m) s =
      .next (gwSend s1 vf src 0 h (.answer ref (gwAnswer s1 h vf)))) ∧
    (∀ h dev ldie, m = .located h dev ldie → exec (.gwMsg die m) s = .next (gwLocate s1 h dev ldie))) ∧
  (∀ (s : State) (h : DWord) (dev ldie : Nat) (e : GwEntry), gwCurrent s h = some e → e.state = 1 →
    let x := (gwLocate s h dev ldie).gwEntry (handleDie h) (handleIdx h)
    x.ldev = dev ∧ x.ldie = ldie ∧ x.state = (if placeLost s dev ldie then 3 else 1) ∧ x.code = (if placeLost s dev ldie then 3 else e.code)) ∧
  (∀ (s : State) (h : DWord) (dev ldie : Nat), (∀ e, gwCurrent s h = some e → e.state ≠ 1) → gwLocate s h dev ldie = s) ∧
  (∀ (s : State) (vf dev die : Nat) (h : DWord) (m : GwMsg), dev ≠ s.dev.dev → gwSend s vf dev die h m = sendPkt s (gwPkt s vf dev die h m) ∧
    (gwPkt s vf dev die h m).plane = BitVec.ofNat 5 (planeOf s ((handleIdx h + handleDev h) % 24)) ∧ (gwPkt s vf dev die h m).op = 0x20 ∧
    (gwPkt s vf dev die h m).vc = 2 ∧ (gwPkt s vf dev die h m).addr = 0 ∧ (gwPkt s vf dev die h m).dstdev = BitVec.ofNat 12 dev) ∧
  (∀ (s : State) (die : Nat) (m : GwMsg), 8 ≤ die ∨ die ∈ s.dev.lostDies ∨ s.dev.dstate = 2 → gwArrive die m s = s ∧
    ((∀ p, m ≠ .packet p) → exec (.gwMsg die m) s = .next s) ∧
    ∀ idx dev ldie op code h, exec (.handleFire die idx dev ldie op) s = .next s ∧ exec (.handleCrack die idx code op) s = .next s ∧
      exec (.greenRetry die h) s = .next s) ∧
  (∀ (s : State) (dst : DWord) (i : Invocation) (e : GwEntry), takingEntry s dst i = some e → pendingOf s dst i false = none → senderDev i false = s.dev.dev →
    e = s.gwEntry e.die e.idx →
    (e.state = 1 → e.queue.length < 16 → ((atEntry s dst i false).gwEntry e.die e.idx).queue = e.queue ++ [i]) ∧
    (e.state = 1 → 16 ≤ e.queue.length → atEntry s dst i false = s) ∧
    (e.state = 3 → atEntry s dst i false = gwCrackOwn s e.vf i.handle 4 e.op) ∧
    (e.state = 2 → atEntry s dst i false = gwToOrigin
      (emit (gwSend s i.vf e.ldev e.ldie (runPlane i) (.run i)) (gwSrc e.die) 0x0803 i.cid e.op e.idx e.vf) e.vf i.handle (.located i.handle e.ldev e.ldie))) ∧
  (∀ (s : State) (die : Nat) (h : DWord), (s.gwRetry = [] → exec (.greenRetry die h) s = .next s) ∧
    (∀ r, s.gwRetry.find? (fun r => r.die == die && r.dst == h) = some r → r.refused = true → die < 8 → die ∉ s.dev.lostDies → s.dev.dstate ≠ 2 →
      (r.since + usTicks 2 ≤ s.time.dtc → exec (.greenRetry die h) s = .next (gwResend s die h)) ∧
      (s.time.dtc < r.since + usTicks 2 → exec (.greenRetry die h) s = .next s)) ∧
    (∀ r, s.gwRetry.find? (fun r => r.die == die && r.dst == h) = some r → r.refused = false → exec (.greenRetry die h) s = .next s)) ∧
  (∀ (s : State) (die idx : Nat) (f : Fn), let e := s.gwEntry die idx
    s.fn? e.vf = some f → 2 ≤ e.state → e.queue = [] → e.deps = [] →
    (e.whenDtc + usTicks f.retention ≤ s.time.dtc → ∃ t, exec (.retentionEnd die idx) s = .next t ∧ { t with green := s.green } = s ∧
      (t.gwEntry die idx).state = 0 ∧ (t.gwEntry die idx).code = 0 ∧ (t.gwEntry die idx).whenDtc = s.time.dtc ∧ (t.gwEntry die idx).gen = (if e.gen = 65535 then 1 else e.gen + 1) ∧
      ∀ d n, (d, n) ≠ (die, idx) → t.gwEntry d n = s.gwEntry d n) ∧
    (s.time.dtc < e.whenDtc + usTicks f.retention → exec (.retentionEnd die idx) s = .next s)) ∧
  (∀ (s : State) (die idx : Nat), (s.gwEntry die idx).state ≤ 1 → exec (.retentionEnd die idx) s = .next s) ∧
  (∀ (s : State) (ref t : Nat) (q : GwQuery), s.gwQueries.find? (fun q => q.ref == ref && q.dev.isNone) = some q → q.since = some t →
    (t + usTicks 200 ≤ s.time.dtc → exec (.greenOriginTimeout ref) s = .next (takeAnswer s ref 0x302)) ∧
    (s.time.dtc < t + usTicks 200 → exec (.greenOriginTimeout ref) s = .next s)) ∧
  (∀ (s : State) (ref : Nat) (r : GwRetry), s.gwQueries = [] → s.gwRetry.find? (·.ref == ref) = some r → r.refused = false →
    r.since + usTicks 200 ≤ s.time.dtc → exec (.greenOriginTimeout ref) s = .next (gwTaken (gwCrackOwn s r.inv.vf r.inv.handle 3 0) r))

/-- R223, R280, R304 to R307, R312, R313, R316, R318, R325, R332, R378, R387 to R389, R392: device time, power, resets, the debugger, attestation. A measured offset under 1 us only changes the state and OFFS; a forward step is taken, a backward one of 1 ms waits while a context is live.
The Flue moves a source's oldest record to its rings. Power above the limit for a millisecond takes the clock down a step. Power and resets leave what R389 says. The debugger reads
anything of an attached context, writes registers of held fibres alone, and lets a held cohort go. SPDM answers after GET_VERSION.
What the spec leaves open here is the model's choice: logs 43, 46, 101, 113 to 116, 119. -/
def Obligations.TimePowerDebugResults : Prop :=
  (∀ (s : State) (e : Int), e.natAbs < 4000 → ∃ t, exec (.ptpMessage e) s = .next t ∧ { t with time := s.time } = s ∧
    t.time = { s.time with state := 1, offs := min 0xFFFF (e.natAbs / 4), back := 0 }) ∧
  (∀ (s : State) (e : Int), 4000 ≤ e → ∃ t, exec (.ptpMessage e) s = .next t ∧ MemSame s t ∧ t.time.dtc = s.time.dtc + e.natAbs ∧ t.time.state = 1 ∧ t.time.back = 0) ∧
  (∀ (s : State) (e : Int), e ≤ -4000 →
    (anyLive s = false → ∃ t, exec (.ptpMessage e) s = .next t ∧ MemSame s t ∧ t.time.dtc = s.time.dtc - e.natAbs ∧ t.time.back = 0) ∧
    (anyLive s = true → -4000000 < e → ∃ t, exec (.ptpMessage e) s = .next t ∧ { t with time := s.time } = s ∧ t.time.dtc = s.time.dtc ∧ t.time.back = 0) ∧
    (anyLive s = true → e ≤ -4000000 → ∃ t, exec (.ptpMessage e) s = .next t ∧ { t with time := s.time } = s ∧ t.time.dtc = s.time.dtc ∧ t.time.back = e.natAbs)) ∧
  (∀ (s : State) (n : Nat) (e : Int) (locked : Bool),
    (24 ≤ n ∨ (s.port n).lanes = 0 ∨ locked = false ∨ s.time.state = 1 → exec (.dtcSample n e locked) s = .next s) ∧
    (n < 24 → (s.port n).lanes ≠ 0 → locked = true → s.time.state ≠ 1 → exec (.dtcSample n e locked) s = .next (discipline s e 2)) ∧
    (n < 24 → (s.port n).lanes ≠ 0 → ∃ p, exec (.dtcSampleSend n) s = .next (sendPkt s p) ∧ p.op = 0x31 ∧ p.vc = 3 ∧ p.plane = BitVec.ofNat 5 n ∧
      p.payload = natBytes 8 s.time.dtc ++ natBytes 8 s.time.state)) ∧
  (∀ (s : State), (s.time.back = 0 ∨ anyLive s = true → exec .timeStepDeferred s = .next s) ∧
    (s.time.back ≠ 0 → anyLive s = false → ∃ t, exec .timeStepDeferred s = .next t ∧ MemSame s t ∧ t.time.dtc = s.time.dtc - s.time.back ∧ t.time.back = 0) ∧
    (s.time.state = 0 → exec .holdover s = .next s) ∧
    (s.time.state ≠ 0 → exec .holdover s = .next { s with time := { s.time with state := 3 } }) ∧
    (∀ v : DWord, exec (.tepochWrite v) s = .next { s with time := { s.time with tepoch := v.toNat } }) ∧
    (∀ d : BitVec 8, d.toNat ≤ 127 → exec (.ptpDomainSet d) s = .next { s with time := { s.time with domain := d.toNat } }) ∧
    (∀ d : BitVec 8, 127 < d.toNat → exec (.ptpDomainSet d) s = .next s)) ∧
  (∀ (s : State) (src : Nat) (x : Rec) (xs : List Rec), s.flue.find? (·.src == src) = some ⟨src, x :: xs⟩ →
    ∃ t, exec (.flueWrite (.source src)) s = .next t ∧ { t with flue := s.flue, rings := s.rings } = s ∧
      (xs ≠ [] → t.flue.find? (·.src == src) = some ⟨src, xs⟩) ∧ (xs = [] → ∀ q ∈ t.flue, q.src ≠ src) ∧
      ∀ n, (n = x.vf ∨ x.vf = 0xFFFF ∧ n < 257 →
          ((s.ring n).backlog.length ≤ 4096 → t.ring n = { s.ring n with backlog := (s.ring n).backlog ++ [x] }) ∧
          (4096 < (s.ring n).backlog.length → (t.ring n).recs = (s.ring n).recs ∧ (t.ring n).backlog = (s.ring n).backlog ∧
            (t.ring n).drops = (s.ring n).drops + 1 ∧ (t.ring n).newDrops = (s.ring n).newDrops + 1)) ∧
        (n ≠ x.vf → (x.vf ≠ 0xFFFF ∨ 257 ≤ n) → t.ring n = s.ring n)) ∧
  (∀ (s : State) (src : Nat), s.flue.find? (·.src == src) = none → exec (.flueWrite (.source src)) s = .next s) ∧
  (∀ (s : State) (id : Nat), ((s.ring id).backlog = [] → exec (.flueWrite (.writer id)) s = .next s) ∧
    ∀ x xs, (s.ring id).backlog = x :: xs → ∃ t, exec (.flueWrite (.writer id)) s = .next t ∧ { t with rings := s.rings } = s ∧
      (∀ n, n ≠ id → t.ring n = s.ring n) ∧ (t.ring id).backlog = xs ∧ (t.ring id).newDrops = 0 ∧ (t.ring id).dtcw = x.dtc ∧
      ((s.ring id).newDrops = 0 → (t.ring id).widx = (s.ring id).widx + 1 ∧
        ((s.ring id).recs.length < (s.ring id).size → (t.ring id).recs = (s.ring id).recs ++ [x]) ∧
        (∀ y ys, (s.ring id).recs = y :: ys → (s.ring id).recs.length = (s.ring id).size → (t.ring id).recs = ys ++ [x])) ∧
      ((s.ring id).newDrops ≠ 0 → (t.ring id).widx = (s.ring id).widx + 2 ∧ (2 ≤ (s.ring id).size →
        ∃ p y, (t.ring id).recs = p ++ [y, x] ∧ y.code = 0x0F01 ∧ y.arg = min (s.ring id).newDrops 0xFFFF))) ∧
  (∀ (s : State) (w : Nat), ∃ t, exec (.powerSample w) s = .next t ∧ { t with dev := s.dev } = s ∧
    (profileWatts s.dev.profile < w → s.dev.overRun < 9 → t.dev = { s.dev with overRun := s.dev.overRun + 1 }) ∧
    (profileWatts s.dev.profile < w → 9 ≤ s.dev.overRun → 2400 < s.dev.clockMHz → t.dev.cap = true ∧ t.dev.clockMHz = max 2400 (s.dev.clockMHz - 100)) ∧
    (w * 100 < profileWatts s.dev.profile * 95 → s.dev.clockMHz < profileClock s.dev.profile →
      t.dev.clockMHz = min (profileClock s.dev.profile) (s.dev.clockMHz + 100) ∧ (t.dev.cap = true ↔ s.dev.clockMHz + 100 < profileClock s.dev.profile))) ∧
  (∀ (s : State) (bad : BitVec 16) (ok : Bool), s.dev.poweredOff = true → ∃ t, exec (.powerGood bad ok) s = .next t ∧ t.mem = [] ∧ t.fibres = [] ∧ t.queues = [] ∧
    t.dev.poweredOff = false ∧ t.dev.images = s.dev.images ∧ t.dev.dev = s.dev.dev ∧
    (bad = 0 → ok = true → t.dev.dstate = 1 ∧ t.dev.reason = 0 ∧ t.dev.profile = s.dev.flashProfile) ∧
    (bad ≠ 0 → t.dev.dstate = 2 ∧ t.dev.reason = 1 ∧ t.dev.badstk = bad.toNat) ∧ (bad = 0 → ok = false → t.dev.dstate = 2 ∧ t.dev.reason = 2)) ∧
  (∀ (s : State) (bad : BitVec 16) (ok : Bool), s.dev.poweredOff = false → s.dev.dstate = 1 → exec (.powerGood bad ok) s = .next s) ∧
  (∀ (s : State) (op : DWord) (bad : BitVec 16) (ok : Bool),
    (s.dev.dstate = 0 → exec (.warmReset op bad ok) s = .next s) ∧
    (s.dev.dstate ≠ 0 → ∃ t, exec (.warmReset op bad ok) s = .next t ∧ t.accesses = [] ∧ t.collNet = [] ∧ t.served = [] ∧ t.remote = [] ∧ t.tlb = [] ∧
      (bad ≠ 0 → t.dev.dstate = 2 ∧ t.dev.reason = 1) ∧ (bad = 0 → ok = false → t.dev.dstate = 2 ∧ t.dev.reason = 2) ∧
      (bad = 0 → ok = true → t.dev.dstate = 0 ∨ t.dev.dstate = 1 ∧ t.dev.reason = 0))) ∧
  (∀ (s : State) (vf : Nat), (256 < vf → exec (.pcieFlr vf) s = .next s) ∧ (vf ≤ 256 → isResetting s vf = false → exec (.pcieFlr vf) s = .next (beginReset s vf)) ∧
    (vf ≤ 256 → isResetting s vf = true → exec (.pcieFlr vf) s = .next (resetFn s vf 0)) ∧ (vf ≤ 256 → isResetting (beginReset s vf) vf = true)) ∧
  (∀ s : State, ∃ t, exec .modulePowerLoss s = .next t ∧ t.dev.poweredOff = true ∧ t.rings = [] ∧ t.flue = [] ∧ t.dev.images = s.dev.images ∧ t.dev.partner = s.dev.partner) ∧
  (∀ (s : State) (v : Nat), s.dev.prevMonitor = some v → s.dev.dstate = 0 →
    (s.dev.bootAt + usTicks 2000000 ≤ s.time.dtc → ∃ t, exec .monitorReadyTimeout s = .next t ∧ { t with dev := s.dev } = s ∧
      t.dev = { s.dev with monitor := v, prevMonitor := none, dstate := 1, reason := 4 }) ∧
    (s.time.dtc < s.dev.bootAt + usTicks 2000000 → exec .monitorReadyTimeout s = .next s)) ∧
  (∀ (s : State) (asid fibre : Nat) (f : Fibre), dbgFibre s asid fibre = some f →
    (∀ n, f.hasWindow = true → n < f.ws → exec (.debugRead asid fibre (.reg n)) s = .next (dbgAnswer (dbgWake s f (.reg n)) 0 ((f.reg n).setWidth 64))) ∧
    (∀ n, f.ws ≤ n → exec (.debugRead asid fibre (.reg n)) s = .next (dbgAnswer s 1 0)) ∧
    exec (.debugRead asid fibre .pc) s = .next (dbgAnswer s 0 f.pc) ∧
    (f.b0.mark = .void → exec (.debugRead asid fibre (.latch 60)) s = .next (dbgAnswer s 3 0)) ∧
    (f.b1.mark ≠ .void → exec (.debugRead asid fibre (.latch 61)) s = .next (dbgAnswer s 0 f.b1.val)) ∧
    (∀ n v, f.status = .debugHeld → n < f.ws → exec (.debugWrite asid fibre (.reg n) v) s = .next (dbgAnswer (dbgWake (dbgSet s asid fibre fun g => g.setReg n (lo32 v)) f (.reg n)) 0 0)) ∧
    (∀ n v, f.status = .debugHeld → f.ws ≤ n → exec (.debugWrite asid fibre (.reg n) v) s = .next (dbgAnswer s 1 0)) ∧
    (∀ n v, f.status ≠ .debugHeld → exec (.debugWrite asid fibre (.reg n) v) s = .next (dbgAnswer s 2 0))) ∧
  (∀ (s : State) (f : Fibre) (n : Nat), (s.drowsy = [] → dbgWake s f (.reg n) = s) ∧
    (s.fibre? f.id = some f → f.hasWindow = true → n < f.ws → (s.fibreCore f, f.part, (f.wb + n) / 64) ∉ (dbgWake s f (.reg n)).drowsy)) ∧
  (∀ (s : State) (asid fibre : Nat), isAttached s asid = false → (∀ x, exec (.debugRead asid fibre x) s = .next (dbgAnswer s 4 0)) ∧
    (∀ n v, exec (.debugWrite asid fibre (.reg n) v) s = .next (dbgAnswer s 4 0)) ∧ (∀ n v, exec (.debugWrite asid fibre (.breakpoint n) v) s = .next (dbgAnswer s 4 0)) ∧
    ∀ cohort, exec (.debugStep asid cohort) s = .next (dbgAnswer s 4 0) ∧ exec (.debugRelease asid cohort) s = .next (dbgAnswer s 4 0)) ∧
  (∀ (s : State) (asid fibre : Nat) (v : DWord), (s.ctx? asid = none → exec (.debugWrite asid fibre .attach v) s = .next (dbgAnswer s 4 0)) ∧
    ∀ c, s.ctx? asid = some c → ∃ t, exec (.debugWrite asid fibre .attach v) s = .next t ∧ isAttached t asid = true ∧
      { t with ctxs := s.ctxs, outbox := s.outbox } = s ∧ t.outbox = s.outbox ++ [.dbg 0 0] ∧ ∀ x ∈ s.ctxs, x.asid ≠ asid → x ∈ t.ctxs) ∧
  (∀ (s : State) (asid fibre i : Nat) (v : DWord), isAttached s asid = true →
    (8 ≤ i → exec (.debugWrite asid fibre (.breakpoint i) v) s = .next (dbgAnswer s 1 0)) ∧
    (i < 8 → ∃ t c, exec (.debugWrite asid fibre (.breakpoint i) v) s = .next t ∧ { t with ctxs := s.ctxs, outbox := s.outbox } = s ∧ t.ctx? asid = some c ∧
      (v.getLsbD 0 = false → (i, v) ∈ c.breakpoints) ∧ (v.getLsbD 0 = true → ∀ b ∈ c.breakpoints, b.1 ≠ i))) ∧
  (∀ (s : State) (asid cohort : Nat), isAttached s asid = true →
    (heldLanes s asid cohort = [] → exec (.debugStep asid cohort) s = .next (dbgAnswer s 2 0) ∧ exec (.debugRelease asid cohort) s = .next (dbgAnswer s 2 0)) ∧
    (heldLanes s asid cohort ≠ [] → ∃ t u, exec (.debugStep asid cohort) s = .next t ∧ exec (.debugRelease asid cohort) s = .next u ∧
      t.fibres = (s.setFibres (heldLanes s asid cohort) fun f => { f with status := .ready }).fibres ∧ u.fibres = t.fibres ∧ MemSame s t ∧ MemSame s u ∧
      t.outbox = s.outbox ++ [.dbg 0 0] ∧ u.outbox = s.outbox ++ [.dbg 0 0] ∧
      ∃ c d, t.ctx? asid = some c ∧ u.ctx? asid = some d ∧ ∀ i ∈ heldLanes s asid cohort, (i, 1) ∈ c.stepping ∧ (i, 0) ∈ d.stepping)) ∧
  (∀ (s : State) (req : List Byte), let o (t : State) (bs : List Byte) : Prop := { t with outbox := s.outbox, dev := s.dev } = s ∧ t.outbox = s.outbox ++ [Out.mgmt bs]
    (∃ t sg, exec (.getVersion req) s = .next t ∧ t.dev.spdmVersion = true ∧ o t ([0x13, 0x04] ++ sg)) ∧
    (s.dev.spdmVersion = false →
      ∀ i ∈ ([.getCapabilities req, .negotiateAlgorithms req, .getDigests req, .getCertificate req, .challenge req, .getMeasurements req] : List Instr),
        ∃ t, exec i s = .next t ∧ o t [0x13, 0x7F, 0x04]) ∧
    (s.dev.spdmVersion = true → ∀ x ∈ ([(.getCapabilities req, 0x61), (.negotiateAlgorithms req, 0x63), (.getDigests req, 0x01), (.getCertificate req, 0x02),
      (.challenge req, 0x03), (.getMeasurements req, 0x60)] : List (Instr × Byte)), ∃ t body, exec x.1 s = .next t ∧ o t ([0x13, x.2] ++ body)) ∧
    (s.dev.spdmVersion = true → ∃ t, exec (.challenge req) s = .next t ∧
      let head := [0x13, 0x03] ++ (List.range 5).flatMap fun i => measurement s (i + 1)
      o t (head ++ Config.signature (req ++ head)))) ∧
  (∀ (s : State) (v : Nat) (i : FwImage), s.dev.monitor = v → s.dev.images.find? (fun x => x.kind == 1 && x.version == v) = some i → measurement s 2 = i.digest) ∧
  (∀ (s : State) (p : FabPkt), s.dev.dstate ≠ 2 → p.op = 0x30 → pktBad p = false → p.dstdev.toNat = s.dev.dev → ∀ m t,
    (∃ die, m = .waitRead die ∧ t = { s with outbox := s.outbox ++ [Out.mgmt (waitTableBytes s die)] }) ∨
      (∃ vf, m = .unexportAck vf ∧ t = takeAnswerOf s vf true id) ∨ (∃ vf ok, m = .partnerAnswer vf ok ∧ t = takeAnswerOf s vf ok id) →
    exec (.mgmt p m) s = .next (recvPkt deliver t p))
end

