-- ==== Sys2Proof/Laws/State.lean ====
section
/-! SUPPORT. What each update of the state leaves alone, one lemma per field, so that no proof unfolds a record update. -/

namespace Sys2Proof.Machine

@[simp] theorem State.setFibre_mem (s : State) (n : Nat) (f : Fibre → Fibre) : (s.setFibre n f).mem = s.mem := rfl
@[simp] theorem State.setFibre_scrubMarks (s : State) (n : Nat) (f : Fibre → Fibre) : (s.setFibre n f).scrubMarks = s.scrubMarks := rfl
@[simp] theorem State.setFibre_eccBad (s : State) (n : Nat) (f : Fibre → Fibre) : (s.setFibre n f).eccBad = s.eccBad := rfl
@[simp] theorem State.setFibre_crews (s : State) (n : Nat) (f : Fibre → Fibre) : (s.setFibre n f).crews = s.crews := rfl
@[simp] theorem State.setFibre_grids (s : State) (n : Nat) (f : Fibre → Fibre) : (s.setFibre n f).grids = s.grids := rfl
@[simp] theorem State.setFibre_cores (s : State) (n : Nat) (f : Fibre → Fibre) : (s.setFibre n f).cores = s.cores := rfl
@[simp] theorem State.setFibre_ctxs (s : State) (n : Nat) (f : Fibre → Fibre) : (s.setFibre n f).ctxs = s.ctxs := rfl
@[simp] theorem State.setFibre_fns (s : State) (n : Nat) (f : Fibre → Fibre) : (s.setFibre n f).fns = s.fns := rfl
@[simp] theorem State.setFibre_queues (s : State) (n : Nat) (f : Fibre → Fibre) : (s.setFibre n f).queues = s.queues := rfl
@[simp] theorem State.setFibre_packets (s : State) (n : Nat) (f : Fibre → Fibre) : (s.setFibre n f).packets = s.packets := rfl
@[simp] theorem State.setFibre_accesses (s : State) (n : Nat) (f : Fibre → Fibre) : (s.setFibre n f).accesses = s.accesses := rfl
@[simp] theorem State.setFibre_counts (s : State) (n : Nat) (f : Fibre → Fibre) : (s.setFibre n f).counts = s.counts := rfl
@[simp] theorem State.setFibre_stamps (s : State) (n : Nat) (f : Fibre → Fibre) : (s.setFibre n f).stamps = s.stamps := rfl
@[simp] theorem State.setFibre_owed (s : State) (n : Nat) (f : Fibre → Fibre) : (s.setFibre n f).owed = s.owed := rfl
@[simp] theorem State.setFibre_notifs (s : State) (n : Nat) (f : Fibre → Fibre) : (s.setFibre n f).notifs = s.notifs := rfl
@[simp] theorem State.setFibre_clocks (s : State) (n : Nat) (f : Fibre → Fibre) : (s.setFibre n f).clocks = s.clocks := rfl
@[simp] theorem State.setFibre_wakes (s : State) (n : Nat) (f : Fibre → Fibre) : (s.setFibre n f).wakes = s.wakes := rfl
@[simp] theorem State.setFibre_registrations (s : State) (n : Nat) (f : Fibre → Fibre) : (s.setFibre n f).registrations = s.registrations := rfl
@[simp] theorem State.setFibre_moves (s : State) (n : Nat) (f : Fibre → Fibre) : (s.setFibre n f).moves = s.moves := rfl
@[simp] theorem State.setFibre_tlb (s : State) (n : Nat) (f : Fibre → Fibre) : (s.setFibre n f).tlb = s.tlb := rfl
@[simp] theorem State.setFibre_walks (s : State) (n : Nat) (f : Fibre → Fibre) : (s.setFibre n f).walks = s.walks := rfl
@[simp] theorem State.setFibre_migrations (s : State) (n : Nat) (f : Fibre → Fibre) : (s.setFibre n f).migrations = s.migrations := rfl
@[simp] theorem State.setFibre_hostLines (s : State) (n : Nat) (f : Fibre → Fibre) : (s.setFibre n f).hostLines = s.hostLines := rfl
@[simp] theorem State.setFibre_resReqs (s : State) (n : Nat) (f : Fibre → Fibre) : (s.setFibre n f).resReqs = s.resReqs := rfl
@[simp] theorem State.setFibre_channels (s : State) (n : Nat) (f : Fibre → Fibre) : (s.setFibre n f).channels = s.channels := rfl
@[simp] theorem State.setFibre_leases (s : State) (n : Nat) (f : Fibre → Fibre) : (s.setFibre n f).leases = s.leases := rfl
@[simp] theorem State.setFibre_graphs (s : State) (n : Nat) (f : Fibre → Fibre) : (s.setFibre n f).graphs = s.graphs := rfl
@[simp] theorem State.setFibre_comms (s : State) (n : Nat) (f : Fibre → Fibre) : (s.setFibre n f).comms = s.comms := rfl
@[simp] theorem State.setFibre_colls (s : State) (n : Nat) (f : Fibre → Fibre) : (s.setFibre n f).colls = s.colls := rfl
@[simp] theorem State.setFibre_collNet (s : State) (n : Nat) (f : Fibre → Fibre) : (s.setFibre n f).collNet = s.collNet := rfl
@[simp] theorem State.setFibre_switches (s : State) (n : Nat) (f : Fibre → Fibre) : (s.setFibre n f).switches = s.switches := rfl
@[simp] theorem State.setFibre_counters (s : State) (n : Nat) (f : Fibre → Fibre) : (s.setFibre n f).counters = s.counters := rfl
@[simp] theorem State.setFibre_sends (s : State) (n : Nat) (f : Fibre → Fibre) : (s.setFibre n f).sends = s.sends := rfl
@[simp] theorem State.setFibre_green (s : State) (n : Nat) (f : Fibre → Fibre) : (s.setFibre n f).green = s.green := rfl
@[simp] theorem State.setFibre_gwRetry (s : State) (n : Nat) (f : Fibre → Fibre) : (s.setFibre n f).gwRetry = s.gwRetry := rfl
@[simp] theorem State.setFibre_gwQueries (s : State) (n : Nat) (f : Fibre → Fibre) : (s.setFibre n f).gwQueries = s.gwQueries := rfl
@[simp] theorem State.setFibre_gwNet (s : State) (n : Nat) (f : Fibre → Fibre) : (s.setFibre n f).gwNet = s.gwNet := rfl
@[simp] theorem State.setFibre_gwRuns (s : State) (n : Nat) (f : Fibre → Fibre) : (s.setFibre n f).gwRuns = s.gwRuns := rfl
@[simp] theorem State.setFibre_regions (s : State) (n : Nat) (f : Fibre → Fibre) : (s.setFibre n f).regions = s.regions := rfl
@[simp] theorem State.setFibre_stackSts (s : State) (n : Nat) (f : Fibre → Fibre) : (s.setFibre n f).stackSts = s.stackSts := rfl
@[simp] theorem State.setFibre_throttled (s : State) (n : Nat) (f : Fibre → Fibre) : (s.setFibre n f).throttled = s.throttled := rfl
@[simp] theorem State.setFibre_rowActs (s : State) (n : Nat) (f : Fibre → Fibre) : (s.setFibre n f).rowActs = s.rowActs := rfl
@[simp] theorem State.setFibre_sideBuf (s : State) (n : Nat) (f : Fibre → Fibre) : (s.setFibre n f).sideBuf = s.sideBuf := rfl
@[simp] theorem State.setFibre_ports (s : State) (n : Nat) (f : Fibre → Fibre) : (s.setFibre n f).ports = s.ports := rfl
@[simp] theorem State.setFibre_flows (s : State) (n : Nat) (f : Fibre → Fibre) : (s.setFibre n f).flows = s.flows := rfl
@[simp] theorem State.setFibre_reorder (s : State) (n : Nat) (f : Fibre → Fibre) : (s.setFibre n f).reorder = s.reorder := rfl
@[simp] theorem State.setFibre_remote (s : State) (n : Nat) (f : Fibre → Fibre) : (s.setFibre n f).remote = s.remote := rfl
@[simp] theorem State.setFibre_served (s : State) (n : Nat) (f : Fibre → Fibre) : (s.setFibre n f).served = s.served := rfl
@[simp] theorem State.setFibre_remoteWaiters (s : State) (n : Nat) (f : Fibre → Fibre) : (s.setFibre n f).remoteWaiters = s.remoteWaiters := rfl
@[simp] theorem State.setFibre_drowsy (s : State) (n : Nat) (f : Fibre → Fibre) : (s.setFibre n f).drowsy = s.drowsy := rfl
@[simp] theorem State.setFibre_time (s : State) (n : Nat) (f : Fibre → Fibre) : (s.setFibre n f).time = s.time := rfl
@[simp] theorem State.setFibre_seqs (s : State) (n : Nat) (f : Fibre → Fibre) : (s.setFibre n f).seqs = s.seqs := rfl
@[simp] theorem State.setFibre_flue (s : State) (n : Nat) (f : Fibre → Fibre) : (s.setFibre n f).flue = s.flue := rfl
@[simp] theorem State.setFibre_rings (s : State) (n : Nat) (f : Fibre → Fibre) : (s.setFibre n f).rings = s.rings := rfl
@[simp] theorem State.setFibre_waits (s : State) (n : Nat) (f : Fibre → Fibre) : (s.setFibre n f).waits = s.waits := rfl
@[simp] theorem State.setFibre_lostWaits (s : State) (n : Nat) (f : Fibre → Fibre) : (s.setFibre n f).lostWaits = s.lostWaits := rfl
@[simp] theorem State.setFibre_shared (s : State) (n : Nat) (f : Fibre → Fibre) : (s.setFibre n f).shared = s.shared := rfl
@[simp] theorem State.setFibre_softErrs (s : State) (n : Nat) (f : Fibre → Fibre) : (s.setFibre n f).softErrs = s.softErrs := rfl
@[simp] theorem State.setFibre_lateFaults (s : State) (n : Nat) (f : Fibre → Fibre) : (s.setFibre n f).lateFaults = s.lateFaults := rfl
@[simp] theorem State.setFibre_samples (s : State) (n : Nat) (f : Fibre → Fibre) : (s.setFibre n f).samples = s.samples := rfl
@[simp] theorem State.setFibre_dev (s : State) (n : Nat) (f : Fibre → Fibre) : (s.setFibre n f).dev = s.dev := rfl
@[simp] theorem State.setFibre_outbox (s : State) (n : Nat) (f : Fibre → Fibre) : (s.setFibre n f).outbox = s.outbox := rfl
@[simp] theorem State.setFibre_nextId (s : State) (n : Nat) (f : Fibre → Fibre) : (s.setFibre n f).nextId = s.nextId := rfl
@[simp] theorem State.setFibre_free (s : State) (n : Nat) (f : Fibre → Fibre) : (s.setFibre n f).free = s.free := rfl
@[simp] theorem State.setFibre_cur (s : State) (n : Nat) (f : Fibre → Fibre) : (s.setFibre n f).cur = s.cur := rfl
@[simp] theorem State.setFibre_turns (s : State) (n : Nat) (f : Fibre → Fibre) : (s.setFibre n f).turns = s.turns := rfl
@[simp] theorem State.setFibre_agenda (s : State) (n : Nat) (f : Fibre → Fibre) : (s.setFibre n f).agenda = s.agenda := rfl

@[simp] theorem State.setFibres_mem (s : State) (n : List Nat) (f : Fibre → Fibre) : (s.setFibres n f).mem = s.mem := rfl
@[simp] theorem State.setFibres_scrubMarks (s : State) (n : List Nat) (f : Fibre → Fibre) : (s.setFibres n f).scrubMarks = s.scrubMarks := rfl
@[simp] theorem State.setFibres_eccBad (s : State) (n : List Nat) (f : Fibre → Fibre) : (s.setFibres n f).eccBad = s.eccBad := rfl
@[simp] theorem State.setFibres_crews (s : State) (n : List Nat) (f : Fibre → Fibre) : (s.setFibres n f).crews = s.crews := rfl
@[simp] theorem State.setFibres_grids (s : State) (n : List Nat) (f : Fibre → Fibre) : (s.setFibres n f).grids = s.grids := rfl
@[simp] theorem State.setFibres_cores (s : State) (n : List Nat) (f : Fibre → Fibre) : (s.setFibres n f).cores = s.cores := rfl
@[simp] theorem State.setFibres_ctxs (s : State) (n : List Nat) (f : Fibre → Fibre) : (s.setFibres n f).ctxs = s.ctxs := rfl
@[simp] theorem State.setFibres_fns (s : State) (n : List Nat) (f : Fibre → Fibre) : (s.setFibres n f).fns = s.fns := rfl
@[simp] theorem State.setFibres_queues (s : State) (n : List Nat) (f : Fibre → Fibre) : (s.setFibres n f).queues = s.queues := rfl
@[simp] theorem State.setFibres_packets (s : State) (n : List Nat) (f : Fibre → Fibre) : (s.setFibres n f).packets = s.packets := rfl
@[simp] theorem State.setFibres_accesses (s : State) (n : List Nat) (f : Fibre → Fibre) : (s.setFibres n f).accesses = s.accesses := rfl
@[simp] theorem State.setFibres_counts (s : State) (n : List Nat) (f : Fibre → Fibre) : (s.setFibres n f).counts = s.counts := rfl
@[simp] theorem State.setFibres_stamps (s : State) (n : List Nat) (f : Fibre → Fibre) : (s.setFibres n f).stamps = s.stamps := rfl
@[simp] theorem State.setFibres_owed (s : State) (n : List Nat) (f : Fibre → Fibre) : (s.setFibres n f).owed = s.owed := rfl
@[simp] theorem State.setFibres_notifs (s : State) (n : List Nat) (f : Fibre → Fibre) : (s.setFibres n f).notifs = s.notifs := rfl
@[simp] theorem State.setFibres_clocks (s : State) (n : List Nat) (f : Fibre → Fibre) : (s.setFibres n f).clocks = s.clocks := rfl
@[simp] theorem State.setFibres_wakes (s : State) (n : List Nat) (f : Fibre → Fibre) : (s.setFibres n f).wakes = s.wakes := rfl
@[simp] theorem State.setFibres_registrations (s : State) (n : List Nat) (f : Fibre → Fibre) : (s.setFibres n f).registrations = s.registrations := rfl
@[simp] theorem State.setFibres_moves (s : State) (n : List Nat) (f : Fibre → Fibre) : (s.setFibres n f).moves = s.moves := rfl
@[simp] theorem State.setFibres_tlb (s : State) (n : List Nat) (f : Fibre → Fibre) : (s.setFibres n f).tlb = s.tlb := rfl
@[simp] theorem State.setFibres_walks (s : State) (n : List Nat) (f : Fibre → Fibre) : (s.setFibres n f).walks = s.walks := rfl
@[simp] theorem State.setFibres_migrations (s : State) (n : List Nat) (f : Fibre → Fibre) : (s.setFibres n f).migrations = s.migrations := rfl
@[simp] theorem State.setFibres_hostLines (s : State) (n : List Nat) (f : Fibre → Fibre) : (s.setFibres n f).hostLines = s.hostLines := rfl
@[simp] theorem State.setFibres_resReqs (s : State) (n : List Nat) (f : Fibre → Fibre) : (s.setFibres n f).resReqs = s.resReqs := rfl
@[simp] theorem State.setFibres_channels (s : State) (n : List Nat) (f : Fibre → Fibre) : (s.setFibres n f).channels = s.channels := rfl
@[simp] theorem State.setFibres_leases (s : State) (n : List Nat) (f : Fibre → Fibre) : (s.setFibres n f).leases = s.leases := rfl
@[simp] theorem State.setFibres_graphs (s : State) (n : List Nat) (f : Fibre → Fibre) : (s.setFibres n f).graphs = s.graphs := rfl
@[simp] theorem State.setFibres_comms (s : State) (n : List Nat) (f : Fibre → Fibre) : (s.setFibres n f).comms = s.comms := rfl
@[simp] theorem State.setFibres_colls (s : State) (n : List Nat) (f : Fibre → Fibre) : (s.setFibres n f).colls = s.colls := rfl
@[simp] theorem State.setFibres_collNet (s : State) (n : List Nat) (f : Fibre → Fibre) : (s.setFibres n f).collNet = s.collNet := rfl
@[simp] theorem State.setFibres_switches (s : State) (n : List Nat) (f : Fibre → Fibre) : (s.setFibres n f).switches = s.switches := rfl
@[simp] theorem State.setFibres_counters (s : State) (n : List Nat) (f : Fibre → Fibre) : (s.setFibres n f).counters = s.counters := rfl
@[simp] theorem State.setFibres_sends (s : State) (n : List Nat) (f : Fibre → Fibre) : (s.setFibres n f).sends = s.sends := rfl
@[simp] theorem State.setFibres_green (s : State) (n : List Nat) (f : Fibre → Fibre) : (s.setFibres n f).green = s.green := rfl
@[simp] theorem State.setFibres_gwRetry (s : State) (n : List Nat) (f : Fibre → Fibre) : (s.setFibres n f).gwRetry = s.gwRetry := rfl
@[simp] theorem State.setFibres_gwQueries (s : State) (n : List Nat) (f : Fibre → Fibre) : (s.setFibres n f).gwQueries = s.gwQueries := rfl
@[simp] theorem State.setFibres_gwNet (s : State) (n : List Nat) (f : Fibre → Fibre) : (s.setFibres n f).gwNet = s.gwNet := rfl
@[simp] theorem State.setFibres_gwRuns (s : State) (n : List Nat) (f : Fibre → Fibre) : (s.setFibres n f).gwRuns = s.gwRuns := rfl
@[simp] theorem State.setFibres_regions (s : State) (n : List Nat) (f : Fibre → Fibre) : (s.setFibres n f).regions = s.regions := rfl
@[simp] theorem State.setFibres_stackSts (s : State) (n : List Nat) (f : Fibre → Fibre) : (s.setFibres n f).stackSts = s.stackSts := rfl
@[simp] theorem State.setFibres_throttled (s : State) (n : List Nat) (f : Fibre → Fibre) : (s.setFibres n f).throttled = s.throttled := rfl
@[simp] theorem State.setFibres_rowActs (s : State) (n : List Nat) (f : Fibre → Fibre) : (s.setFibres n f).rowActs = s.rowActs := rfl
@[simp] theorem State.setFibres_sideBuf (s : State) (n : List Nat) (f : Fibre → Fibre) : (s.setFibres n f).sideBuf = s.sideBuf := rfl
@[simp] theorem State.setFibres_ports (s : State) (n : List Nat) (f : Fibre → Fibre) : (s.setFibres n f).ports = s.ports := rfl
@[simp] theorem State.setFibres_flows (s : State) (n : List Nat) (f : Fibre → Fibre) : (s.setFibres n f).flows = s.flows := rfl
@[simp] theorem State.setFibres_reorder (s : State) (n : List Nat) (f : Fibre → Fibre) : (s.setFibres n f).reorder = s.reorder := rfl
@[simp] theorem State.setFibres_remote (s : State) (n : List Nat) (f : Fibre → Fibre) : (s.setFibres n f).remote = s.remote := rfl
@[simp] theorem State.setFibres_served (s : State) (n : List Nat) (f : Fibre → Fibre) : (s.setFibres n f).served = s.served := rfl
@[simp] theorem State.setFibres_remoteWaiters (s : State) (n : List Nat) (f : Fibre → Fibre) : (s.setFibres n f).remoteWaiters = s.remoteWaiters := rfl
@[simp] theorem State.setFibres_drowsy (s : State) (n : List Nat) (f : Fibre → Fibre) : (s.setFibres n f).drowsy = s.drowsy := rfl
@[simp] theorem State.setFibres_time (s : State) (n : List Nat) (f : Fibre → Fibre) : (s.setFibres n f).time = s.time := rfl
@[simp] theorem State.setFibres_seqs (s : State) (n : List Nat) (f : Fibre → Fibre) : (s.setFibres n f).seqs = s.seqs := rfl
@[simp] theorem State.setFibres_flue (s : State) (n : List Nat) (f : Fibre → Fibre) : (s.setFibres n f).flue = s.flue := rfl
@[simp] theorem State.setFibres_rings (s : State) (n : List Nat) (f : Fibre → Fibre) : (s.setFibres n f).rings = s.rings := rfl
@[simp] theorem State.setFibres_waits (s : State) (n : List Nat) (f : Fibre → Fibre) : (s.setFibres n f).waits = s.waits := rfl
@[simp] theorem State.setFibres_lostWaits (s : State) (n : List Nat) (f : Fibre → Fibre) : (s.setFibres n f).lostWaits = s.lostWaits := rfl
@[simp] theorem State.setFibres_shared (s : State) (n : List Nat) (f : Fibre → Fibre) : (s.setFibres n f).shared = s.shared := rfl
@[simp] theorem State.setFibres_softErrs (s : State) (n : List Nat) (f : Fibre → Fibre) : (s.setFibres n f).softErrs = s.softErrs := rfl
@[simp] theorem State.setFibres_lateFaults (s : State) (n : List Nat) (f : Fibre → Fibre) : (s.setFibres n f).lateFaults = s.lateFaults := rfl
@[simp] theorem State.setFibres_samples (s : State) (n : List Nat) (f : Fibre → Fibre) : (s.setFibres n f).samples = s.samples := rfl
@[simp] theorem State.setFibres_dev (s : State) (n : List Nat) (f : Fibre → Fibre) : (s.setFibres n f).dev = s.dev := rfl
@[simp] theorem State.setFibres_outbox (s : State) (n : List Nat) (f : Fibre → Fibre) : (s.setFibres n f).outbox = s.outbox := rfl
@[simp] theorem State.setFibres_nextId (s : State) (n : List Nat) (f : Fibre → Fibre) : (s.setFibres n f).nextId = s.nextId := rfl
@[simp] theorem State.setFibres_free (s : State) (n : List Nat) (f : Fibre → Fibre) : (s.setFibres n f).free = s.free := rfl
@[simp] theorem State.setFibres_cur (s : State) (n : List Nat) (f : Fibre → Fibre) : (s.setFibres n f).cur = s.cur := rfl
@[simp] theorem State.setFibres_turns (s : State) (n : List Nat) (f : Fibre → Fibre) : (s.setFibres n f).turns = s.turns := rfl
@[simp] theorem State.setFibres_agenda (s : State) (n : List Nat) (f : Fibre → Fibre) : (s.setFibres n f).agenda = s.agenda := rfl

@[simp] theorem State.setCrew_mem (s : State) (n : Nat) (f : Crew → Crew) : (s.setCrew n f).mem = s.mem := rfl
@[simp] theorem State.setCrew_scrubMarks (s : State) (n : Nat) (f : Crew → Crew) : (s.setCrew n f).scrubMarks = s.scrubMarks := rfl
@[simp] theorem State.setCrew_eccBad (s : State) (n : Nat) (f : Crew → Crew) : (s.setCrew n f).eccBad = s.eccBad := rfl
@[simp] theorem State.setCrew_fibres (s : State) (n : Nat) (f : Crew → Crew) : (s.setCrew n f).fibres = s.fibres := rfl
@[simp] theorem State.setCrew_grids (s : State) (n : Nat) (f : Crew → Crew) : (s.setCrew n f).grids = s.grids := rfl
@[simp] theorem State.setCrew_cores (s : State) (n : Nat) (f : Crew → Crew) : (s.setCrew n f).cores = s.cores := rfl
@[simp] theorem State.setCrew_ctxs (s : State) (n : Nat) (f : Crew → Crew) : (s.setCrew n f).ctxs = s.ctxs := rfl
@[simp] theorem State.setCrew_fns (s : State) (n : Nat) (f : Crew → Crew) : (s.setCrew n f).fns = s.fns := rfl
@[simp] theorem State.setCrew_queues (s : State) (n : Nat) (f : Crew → Crew) : (s.setCrew n f).queues = s.queues := rfl
@[simp] theorem State.setCrew_packets (s : State) (n : Nat) (f : Crew → Crew) : (s.setCrew n f).packets = s.packets := rfl
@[simp] theorem State.setCrew_accesses (s : State) (n : Nat) (f : Crew → Crew) : (s.setCrew n f).accesses = s.accesses := rfl
@[simp] theorem State.setCrew_counts (s : State) (n : Nat) (f : Crew → Crew) : (s.setCrew n f).counts = s.counts := rfl
@[simp] theorem State.setCrew_stamps (s : State) (n : Nat) (f : Crew → Crew) : (s.setCrew n f).stamps = s.stamps := rfl
@[simp] theorem State.setCrew_owed (s : State) (n : Nat) (f : Crew → Crew) : (s.setCrew n f).owed = s.owed := rfl
@[simp] theorem State.setCrew_notifs (s : State) (n : Nat) (f : Crew → Crew) : (s.setCrew n f).notifs = s.notifs := rfl
@[simp] theorem State.setCrew_clocks (s : State) (n : Nat) (f : Crew → Crew) : (s.setCrew n f).clocks = s.clocks := rfl
@[simp] theorem State.setCrew_wakes (s : State) (n : Nat) (f : Crew → Crew) : (s.setCrew n f).wakes = s.wakes := rfl
@[simp] theorem State.setCrew_registrations (s : State) (n : Nat) (f : Crew → Crew) : (s.setCrew n f).registrations = s.registrations := rfl
@[simp] theorem State.setCrew_moves (s : State) (n : Nat) (f : Crew → Crew) : (s.setCrew n f).moves = s.moves := rfl
@[simp] theorem State.setCrew_tlb (s : State) (n : Nat) (f : Crew → Crew) : (s.setCrew n f).tlb = s.tlb := rfl
@[simp] theorem State.setCrew_walks (s : State) (n : Nat) (f : Crew → Crew) : (s.setCrew n f).walks = s.walks := rfl
@[simp] theorem State.setCrew_migrations (s : State) (n : Nat) (f : Crew → Crew) : (s.setCrew n f).migrations = s.migrations := rfl
@[simp] theorem State.setCrew_hostLines (s : State) (n : Nat) (f : Crew → Crew) : (s.setCrew n f).hostLines = s.hostLines := rfl
@[simp] theorem State.setCrew_resReqs (s : State) (n : Nat) (f : Crew → Crew) : (s.setCrew n f).resReqs = s.resReqs := rfl
@[simp] theorem State.setCrew_channels (s : State) (n : Nat) (f : Crew → Crew) : (s.setCrew n f).channels = s.channels := rfl
@[simp] theorem State.setCrew_leases (s : State) (n : Nat) (f : Crew → Crew) : (s.setCrew n f).leases = s.leases := rfl
@[simp] theorem State.setCrew_graphs (s : State) (n : Nat) (f : Crew → Crew) : (s.setCrew n f).graphs = s.graphs := rfl
@[simp] theorem State.setCrew_comms (s : State) (n : Nat) (f : Crew → Crew) : (s.setCrew n f).comms = s.comms := rfl
@[simp] theorem State.setCrew_colls (s : State) (n : Nat) (f : Crew → Crew) : (s.setCrew n f).colls = s.colls := rfl
@[simp] theorem State.setCrew_collNet (s : State) (n : Nat) (f : Crew → Crew) : (s.setCrew n f).collNet = s.collNet := rfl
@[simp] theorem State.setCrew_switches (s : State) (n : Nat) (f : Crew → Crew) : (s.setCrew n f).switches = s.switches := rfl
@[simp] theorem State.setCrew_counters (s : State) (n : Nat) (f : Crew → Crew) : (s.setCrew n f).counters = s.counters := rfl
@[simp] theorem State.setCrew_sends (s : State) (n : Nat) (f : Crew → Crew) : (s.setCrew n f).sends = s.sends := rfl
@[simp] theorem State.setCrew_green (s : State) (n : Nat) (f : Crew → Crew) : (s.setCrew n f).green = s.green := rfl
@[simp] theorem State.setCrew_gwRetry (s : State) (n : Nat) (f : Crew → Crew) : (s.setCrew n f).gwRetry = s.gwRetry := rfl
@[simp] theorem State.setCrew_gwQueries (s : State) (n : Nat) (f : Crew → Crew) : (s.setCrew n f).gwQueries = s.gwQueries := rfl
@[simp] theorem State.setCrew_gwNet (s : State) (n : Nat) (f : Crew → Crew) : (s.setCrew n f).gwNet = s.gwNet := rfl
@[simp] theorem State.setCrew_gwRuns (s : State) (n : Nat) (f : Crew → Crew) : (s.setCrew n f).gwRuns = s.gwRuns := rfl
@[simp] theorem State.setCrew_regions (s : State) (n : Nat) (f : Crew → Crew) : (s.setCrew n f).regions = s.regions := rfl
@[simp] theorem State.setCrew_stackSts (s : State) (n : Nat) (f : Crew → Crew) : (s.setCrew n f).stackSts = s.stackSts := rfl
@[simp] theorem State.setCrew_throttled (s : State) (n : Nat) (f : Crew → Crew) : (s.setCrew n f).throttled = s.throttled := rfl
@[simp] theorem State.setCrew_rowActs (s : State) (n : Nat) (f : Crew → Crew) : (s.setCrew n f).rowActs = s.rowActs := rfl
@[simp] theorem State.setCrew_sideBuf (s : State) (n : Nat) (f : Crew → Crew) : (s.setCrew n f).sideBuf = s.sideBuf := rfl
@[simp] theorem State.setCrew_ports (s : State) (n : Nat) (f : Crew → Crew) : (s.setCrew n f).ports = s.ports := rfl
@[simp] theorem State.setCrew_flows (s : State) (n : Nat) (f : Crew → Crew) : (s.setCrew n f).flows = s.flows := rfl
@[simp] theorem State.setCrew_reorder (s : State) (n : Nat) (f : Crew → Crew) : (s.setCrew n f).reorder = s.reorder := rfl
@[simp] theorem State.setCrew_remote (s : State) (n : Nat) (f : Crew → Crew) : (s.setCrew n f).remote = s.remote := rfl
@[simp] theorem State.setCrew_served (s : State) (n : Nat) (f : Crew → Crew) : (s.setCrew n f).served = s.served := rfl
@[simp] theorem State.setCrew_remoteWaiters (s : State) (n : Nat) (f : Crew → Crew) : (s.setCrew n f).remoteWaiters = s.remoteWaiters := rfl
@[simp] theorem State.setCrew_drowsy (s : State) (n : Nat) (f : Crew → Crew) : (s.setCrew n f).drowsy = s.drowsy := rfl
@[simp] theorem State.setCrew_time (s : State) (n : Nat) (f : Crew → Crew) : (s.setCrew n f).time = s.time := rfl
@[simp] theorem State.setCrew_seqs (s : State) (n : Nat) (f : Crew → Crew) : (s.setCrew n f).seqs = s.seqs := rfl
@[simp] theorem State.setCrew_flue (s : State) (n : Nat) (f : Crew → Crew) : (s.setCrew n f).flue = s.flue := rfl
@[simp] theorem State.setCrew_rings (s : State) (n : Nat) (f : Crew → Crew) : (s.setCrew n f).rings = s.rings := rfl
@[simp] theorem State.setCrew_waits (s : State) (n : Nat) (f : Crew → Crew) : (s.setCrew n f).waits = s.waits := rfl
@[simp] theorem State.setCrew_lostWaits (s : State) (n : Nat) (f : Crew → Crew) : (s.setCrew n f).lostWaits = s.lostWaits := rfl
@[simp] theorem State.setCrew_shared (s : State) (n : Nat) (f : Crew → Crew) : (s.setCrew n f).shared = s.shared := rfl
@[simp] theorem State.setCrew_softErrs (s : State) (n : Nat) (f : Crew → Crew) : (s.setCrew n f).softErrs = s.softErrs := rfl
@[simp] theorem State.setCrew_lateFaults (s : State) (n : Nat) (f : Crew → Crew) : (s.setCrew n f).lateFaults = s.lateFaults := rfl
@[simp] theorem State.setCrew_samples (s : State) (n : Nat) (f : Crew → Crew) : (s.setCrew n f).samples = s.samples := rfl
@[simp] theorem State.setCrew_dev (s : State) (n : Nat) (f : Crew → Crew) : (s.setCrew n f).dev = s.dev := rfl
@[simp] theorem State.setCrew_outbox (s : State) (n : Nat) (f : Crew → Crew) : (s.setCrew n f).outbox = s.outbox := rfl
@[simp] theorem State.setCrew_nextId (s : State) (n : Nat) (f : Crew → Crew) : (s.setCrew n f).nextId = s.nextId := rfl
@[simp] theorem State.setCrew_free (s : State) (n : Nat) (f : Crew → Crew) : (s.setCrew n f).free = s.free := rfl
@[simp] theorem State.setCrew_cur (s : State) (n : Nat) (f : Crew → Crew) : (s.setCrew n f).cur = s.cur := rfl
@[simp] theorem State.setCrew_turns (s : State) (n : Nat) (f : Crew → Crew) : (s.setCrew n f).turns = s.turns := rfl
@[simp] theorem State.setCrew_agenda (s : State) (n : Nat) (f : Crew → Crew) : (s.setCrew n f).agenda = s.agenda := rfl

@[simp] theorem State.setGrid_mem (s : State) (n : Nat) (f : Grid → Grid) : (s.setGrid n f).mem = s.mem := rfl
@[simp] theorem State.setGrid_scrubMarks (s : State) (n : Nat) (f : Grid → Grid) : (s.setGrid n f).scrubMarks = s.scrubMarks := rfl
@[simp] theorem State.setGrid_eccBad (s : State) (n : Nat) (f : Grid → Grid) : (s.setGrid n f).eccBad = s.eccBad := rfl
@[simp] theorem State.setGrid_fibres (s : State) (n : Nat) (f : Grid → Grid) : (s.setGrid n f).fibres = s.fibres := rfl
@[simp] theorem State.setGrid_crews (s : State) (n : Nat) (f : Grid → Grid) : (s.setGrid n f).crews = s.crews := rfl
@[simp] theorem State.setGrid_cores (s : State) (n : Nat) (f : Grid → Grid) : (s.setGrid n f).cores = s.cores := rfl
@[simp] theorem State.setGrid_ctxs (s : State) (n : Nat) (f : Grid → Grid) : (s.setGrid n f).ctxs = s.ctxs := rfl
@[simp] theorem State.setGrid_fns (s : State) (n : Nat) (f : Grid → Grid) : (s.setGrid n f).fns = s.fns := rfl
@[simp] theorem State.setGrid_queues (s : State) (n : Nat) (f : Grid → Grid) : (s.setGrid n f).queues = s.queues := rfl
@[simp] theorem State.setGrid_packets (s : State) (n : Nat) (f : Grid → Grid) : (s.setGrid n f).packets = s.packets := rfl
@[simp] theorem State.setGrid_accesses (s : State) (n : Nat) (f : Grid → Grid) : (s.setGrid n f).accesses = s.accesses := rfl
@[simp] theorem State.setGrid_counts (s : State) (n : Nat) (f : Grid → Grid) : (s.setGrid n f).counts = s.counts := rfl
@[simp] theorem State.setGrid_stamps (s : State) (n : Nat) (f : Grid → Grid) : (s.setGrid n f).stamps = s.stamps := rfl
@[simp] theorem State.setGrid_owed (s : State) (n : Nat) (f : Grid → Grid) : (s.setGrid n f).owed = s.owed := rfl
@[simp] theorem State.setGrid_notifs (s : State) (n : Nat) (f : Grid → Grid) : (s.setGrid n f).notifs = s.notifs := rfl
@[simp] theorem State.setGrid_clocks (s : State) (n : Nat) (f : Grid → Grid) : (s.setGrid n f).clocks = s.clocks := rfl
@[simp] theorem State.setGrid_wakes (s : State) (n : Nat) (f : Grid → Grid) : (s.setGrid n f).wakes = s.wakes := rfl
@[simp] theorem State.setGrid_registrations (s : State) (n : Nat) (f : Grid → Grid) : (s.setGrid n f).registrations = s.registrations := rfl
@[simp] theorem State.setGrid_moves (s : State) (n : Nat) (f : Grid → Grid) : (s.setGrid n f).moves = s.moves := rfl
@[simp] theorem State.setGrid_tlb (s : State) (n : Nat) (f : Grid → Grid) : (s.setGrid n f).tlb = s.tlb := rfl
@[simp] theorem State.setGrid_walks (s : State) (n : Nat) (f : Grid → Grid) : (s.setGrid n f).walks = s.walks := rfl
@[simp] theorem State.setGrid_migrations (s : State) (n : Nat) (f : Grid → Grid) : (s.setGrid n f).migrations = s.migrations := rfl
@[simp] theorem State.setGrid_hostLines (s : State) (n : Nat) (f : Grid → Grid) : (s.setGrid n f).hostLines = s.hostLines := rfl
@[simp] theorem State.setGrid_resReqs (s : State) (n : Nat) (f : Grid → Grid) : (s.setGrid n f).resReqs = s.resReqs := rfl
@[simp] theorem State.setGrid_channels (s : State) (n : Nat) (f : Grid → Grid) : (s.setGrid n f).channels = s.channels := rfl
@[simp] theorem State.setGrid_leases (s : State) (n : Nat) (f : Grid → Grid) : (s.setGrid n f).leases = s.leases := rfl
@[simp] theorem State.setGrid_graphs (s : State) (n : Nat) (f : Grid → Grid) : (s.setGrid n f).graphs = s.graphs := rfl
@[simp] theorem State.setGrid_comms (s : State) (n : Nat) (f : Grid → Grid) : (s.setGrid n f).comms = s.comms := rfl
@[simp] theorem State.setGrid_colls (s : State) (n : Nat) (f : Grid → Grid) : (s.setGrid n f).colls = s.colls := rfl
@[simp] theorem State.setGrid_collNet (s : State) (n : Nat) (f : Grid → Grid) : (s.setGrid n f).collNet = s.collNet := rfl
@[simp] theorem State.setGrid_switches (s : State) (n : Nat) (f : Grid → Grid) : (s.setGrid n f).switches = s.switches := rfl
@[simp] theorem State.setGrid_counters (s : State) (n : Nat) (f : Grid → Grid) : (s.setGrid n f).counters = s.counters := rfl
@[simp] theorem State.setGrid_sends (s : State) (n : Nat) (f : Grid → Grid) : (s.setGrid n f).sends = s.sends := rfl
@[simp] theorem State.setGrid_green (s : State) (n : Nat) (f : Grid → Grid) : (s.setGrid n f).green = s.green := rfl
@[simp] theorem State.setGrid_gwRetry (s : State) (n : Nat) (f : Grid → Grid) : (s.setGrid n f).gwRetry = s.gwRetry := rfl
@[simp] theorem State.setGrid_gwQueries (s : State) (n : Nat) (f : Grid → Grid) : (s.setGrid n f).gwQueries = s.gwQueries := rfl
@[simp] theorem State.setGrid_gwNet (s : State) (n : Nat) (f : Grid → Grid) : (s.setGrid n f).gwNet = s.gwNet := rfl
@[simp] theorem State.setGrid_gwRuns (s : State) (n : Nat) (f : Grid → Grid) : (s.setGrid n f).gwRuns = s.gwRuns := rfl
@[simp] theorem State.setGrid_regions (s : State) (n : Nat) (f : Grid → Grid) : (s.setGrid n f).regions = s.regions := rfl
@[simp] theorem State.setGrid_stackSts (s : State) (n : Nat) (f : Grid → Grid) : (s.setGrid n f).stackSts = s.stackSts := rfl
@[simp] theorem State.setGrid_throttled (s : State) (n : Nat) (f : Grid → Grid) : (s.setGrid n f).throttled = s.throttled := rfl
@[simp] theorem State.setGrid_rowActs (s : State) (n : Nat) (f : Grid → Grid) : (s.setGrid n f).rowActs = s.rowActs := rfl
@[simp] theorem State.setGrid_sideBuf (s : State) (n : Nat) (f : Grid → Grid) : (s.setGrid n f).sideBuf = s.sideBuf := rfl
@[simp] theorem State.setGrid_ports (s : State) (n : Nat) (f : Grid → Grid) : (s.setGrid n f).ports = s.ports := rfl
@[simp] theorem State.setGrid_flows (s : State) (n : Nat) (f : Grid → Grid) : (s.setGrid n f).flows = s.flows := rfl
@[simp] theorem State.setGrid_reorder (s : State) (n : Nat) (f : Grid → Grid) : (s.setGrid n f).reorder = s.reorder := rfl
@[simp] theorem State.setGrid_remote (s : State) (n : Nat) (f : Grid → Grid) : (s.setGrid n f).remote = s.remote := rfl
@[simp] theorem State.setGrid_served (s : State) (n : Nat) (f : Grid → Grid) : (s.setGrid n f).served = s.served := rfl
@[simp] theorem State.setGrid_remoteWaiters (s : State) (n : Nat) (f : Grid → Grid) : (s.setGrid n f).remoteWaiters = s.remoteWaiters := rfl
@[simp] theorem State.setGrid_drowsy (s : State) (n : Nat) (f : Grid → Grid) : (s.setGrid n f).drowsy = s.drowsy := rfl
@[simp] theorem State.setGrid_time (s : State) (n : Nat) (f : Grid → Grid) : (s.setGrid n f).time = s.time := rfl
@[simp] theorem State.setGrid_seqs (s : State) (n : Nat) (f : Grid → Grid) : (s.setGrid n f).seqs = s.seqs := rfl
@[simp] theorem State.setGrid_flue (s : State) (n : Nat) (f : Grid → Grid) : (s.setGrid n f).flue = s.flue := rfl
@[simp] theorem State.setGrid_rings (s : State) (n : Nat) (f : Grid → Grid) : (s.setGrid n f).rings = s.rings := rfl
@[simp] theorem State.setGrid_waits (s : State) (n : Nat) (f : Grid → Grid) : (s.setGrid n f).waits = s.waits := rfl
@[simp] theorem State.setGrid_lostWaits (s : State) (n : Nat) (f : Grid → Grid) : (s.setGrid n f).lostWaits = s.lostWaits := rfl
@[simp] theorem State.setGrid_shared (s : State) (n : Nat) (f : Grid → Grid) : (s.setGrid n f).shared = s.shared := rfl
@[simp] theorem State.setGrid_softErrs (s : State) (n : Nat) (f : Grid → Grid) : (s.setGrid n f).softErrs = s.softErrs := rfl
@[simp] theorem State.setGrid_lateFaults (s : State) (n : Nat) (f : Grid → Grid) : (s.setGrid n f).lateFaults = s.lateFaults := rfl
@[simp] theorem State.setGrid_samples (s : State) (n : Nat) (f : Grid → Grid) : (s.setGrid n f).samples = s.samples := rfl
@[simp] theorem State.setGrid_dev (s : State) (n : Nat) (f : Grid → Grid) : (s.setGrid n f).dev = s.dev := rfl
@[simp] theorem State.setGrid_outbox (s : State) (n : Nat) (f : Grid → Grid) : (s.setGrid n f).outbox = s.outbox := rfl
@[simp] theorem State.setGrid_nextId (s : State) (n : Nat) (f : Grid → Grid) : (s.setGrid n f).nextId = s.nextId := rfl
@[simp] theorem State.setGrid_free (s : State) (n : Nat) (f : Grid → Grid) : (s.setGrid n f).free = s.free := rfl
@[simp] theorem State.setGrid_cur (s : State) (n : Nat) (f : Grid → Grid) : (s.setGrid n f).cur = s.cur := rfl
@[simp] theorem State.setGrid_turns (s : State) (n : Nat) (f : Grid → Grid) : (s.setGrid n f).turns = s.turns := rfl
@[simp] theorem State.setGrid_agenda (s : State) (n : Nat) (f : Grid → Grid) : (s.setGrid n f).agenda = s.agenda := rfl

@[simp] theorem State.setCtx_mem (s : State) (n : Nat) (f : Ctx → Ctx) : (s.setCtx n f).mem = s.mem := rfl
@[simp] theorem State.setCtx_scrubMarks (s : State) (n : Nat) (f : Ctx → Ctx) : (s.setCtx n f).scrubMarks = s.scrubMarks := rfl
@[simp] theorem State.setCtx_eccBad (s : State) (n : Nat) (f : Ctx → Ctx) : (s.setCtx n f).eccBad = s.eccBad := rfl
@[simp] theorem State.setCtx_fibres (s : State) (n : Nat) (f : Ctx → Ctx) : (s.setCtx n f).fibres = s.fibres := rfl
@[simp] theorem State.setCtx_crews (s : State) (n : Nat) (f : Ctx → Ctx) : (s.setCtx n f).crews = s.crews := rfl
@[simp] theorem State.setCtx_grids (s : State) (n : Nat) (f : Ctx → Ctx) : (s.setCtx n f).grids = s.grids := rfl
@[simp] theorem State.setCtx_cores (s : State) (n : Nat) (f : Ctx → Ctx) : (s.setCtx n f).cores = s.cores := rfl
@[simp] theorem State.setCtx_fns (s : State) (n : Nat) (f : Ctx → Ctx) : (s.setCtx n f).fns = s.fns := rfl
@[simp] theorem State.setCtx_queues (s : State) (n : Nat) (f : Ctx → Ctx) : (s.setCtx n f).queues = s.queues := rfl
@[simp] theorem State.setCtx_packets (s : State) (n : Nat) (f : Ctx → Ctx) : (s.setCtx n f).packets = s.packets := rfl
@[simp] theorem State.setCtx_accesses (s : State) (n : Nat) (f : Ctx → Ctx) : (s.setCtx n f).accesses = s.accesses := rfl
@[simp] theorem State.setCtx_counts (s : State) (n : Nat) (f : Ctx → Ctx) : (s.setCtx n f).counts = s.counts := rfl
@[simp] theorem State.setCtx_stamps (s : State) (n : Nat) (f : Ctx → Ctx) : (s.setCtx n f).stamps = s.stamps := rfl
@[simp] theorem State.setCtx_owed (s : State) (n : Nat) (f : Ctx → Ctx) : (s.setCtx n f).owed = s.owed := rfl
@[simp] theorem State.setCtx_notifs (s : State) (n : Nat) (f : Ctx → Ctx) : (s.setCtx n f).notifs = s.notifs := rfl
@[simp] theorem State.setCtx_clocks (s : State) (n : Nat) (f : Ctx → Ctx) : (s.setCtx n f).clocks = s.clocks := rfl
@[simp] theorem State.setCtx_wakes (s : State) (n : Nat) (f : Ctx → Ctx) : (s.setCtx n f).wakes = s.wakes := rfl
@[simp] theorem State.setCtx_registrations (s : State) (n : Nat) (f : Ctx → Ctx) : (s.setCtx n f).registrations = s.registrations := rfl
@[simp] theorem State.setCtx_moves (s : State) (n : Nat) (f : Ctx → Ctx) : (s.setCtx n f).moves = s.moves := rfl
@[simp] theorem State.setCtx_tlb (s : State) (n : Nat) (f : Ctx → Ctx) : (s.setCtx n f).tlb = s.tlb := rfl
@[simp] theorem State.setCtx_walks (s : State) (n : Nat) (f : Ctx → Ctx) : (s.setCtx n f).walks = s.walks := rfl
@[simp] theorem State.setCtx_migrations (s : State) (n : Nat) (f : Ctx → Ctx) : (s.setCtx n f).migrations = s.migrations := rfl
@[simp] theorem State.setCtx_hostLines (s : State) (n : Nat) (f : Ctx → Ctx) : (s.setCtx n f).hostLines = s.hostLines := rfl
@[simp] theorem State.setCtx_resReqs (s : State) (n : Nat) (f : Ctx → Ctx) : (s.setCtx n f).resReqs = s.resReqs := rfl
@[simp] theorem State.setCtx_channels (s : State) (n : Nat) (f : Ctx → Ctx) : (s.setCtx n f).channels = s.channels := rfl
@[simp] theorem State.setCtx_leases (s : State) (n : Nat) (f : Ctx → Ctx) : (s.setCtx n f).leases = s.leases := rfl
@[simp] theorem State.setCtx_graphs (s : State) (n : Nat) (f : Ctx → Ctx) : (s.setCtx n f).graphs = s.graphs := rfl
@[simp] theorem State.setCtx_comms (s : State) (n : Nat) (f : Ctx → Ctx) : (s.setCtx n f).comms = s.comms := rfl
@[simp] theorem State.setCtx_colls (s : State) (n : Nat) (f : Ctx → Ctx) : (s.setCtx n f).colls = s.colls := rfl
@[simp] theorem State.setCtx_collNet (s : State) (n : Nat) (f : Ctx → Ctx) : (s.setCtx n f).collNet = s.collNet := rfl
@[simp] theorem State.setCtx_switches (s : State) (n : Nat) (f : Ctx → Ctx) : (s.setCtx n f).switches = s.switches := rfl
@[simp] theorem State.setCtx_counters (s : State) (n : Nat) (f : Ctx → Ctx) : (s.setCtx n f).counters = s.counters := rfl
@[simp] theorem State.setCtx_sends (s : State) (n : Nat) (f : Ctx → Ctx) : (s.setCtx n f).sends = s.sends := rfl
@[simp] theorem State.setCtx_green (s : State) (n : Nat) (f : Ctx → Ctx) : (s.setCtx n f).green = s.green := rfl
@[simp] theorem State.setCtx_gwRetry (s : State) (n : Nat) (f : Ctx → Ctx) : (s.setCtx n f).gwRetry = s.gwRetry := rfl
@[simp] theorem State.setCtx_gwQueries (s : State) (n : Nat) (f : Ctx → Ctx) : (s.setCtx n f).gwQueries = s.gwQueries := rfl
@[simp] theorem State.setCtx_gwNet (s : State) (n : Nat) (f : Ctx → Ctx) : (s.setCtx n f).gwNet = s.gwNet := rfl
@[simp] theorem State.setCtx_gwRuns (s : State) (n : Nat) (f : Ctx → Ctx) : (s.setCtx n f).gwRuns = s.gwRuns := rfl
@[simp] theorem State.setCtx_regions (s : State) (n : Nat) (f : Ctx → Ctx) : (s.setCtx n f).regions = s.regions := rfl
@[simp] theorem State.setCtx_stackSts (s : State) (n : Nat) (f : Ctx → Ctx) : (s.setCtx n f).stackSts = s.stackSts := rfl
@[simp] theorem State.setCtx_throttled (s : State) (n : Nat) (f : Ctx → Ctx) : (s.setCtx n f).throttled = s.throttled := rfl
@[simp] theorem State.setCtx_rowActs (s : State) (n : Nat) (f : Ctx → Ctx) : (s.setCtx n f).rowActs = s.rowActs := rfl
@[simp] theorem State.setCtx_sideBuf (s : State) (n : Nat) (f : Ctx → Ctx) : (s.setCtx n f).sideBuf = s.sideBuf := rfl
@[simp] theorem State.setCtx_ports (s : State) (n : Nat) (f : Ctx → Ctx) : (s.setCtx n f).ports = s.ports := rfl
@[simp] theorem State.setCtx_flows (s : State) (n : Nat) (f : Ctx → Ctx) : (s.setCtx n f).flows = s.flows := rfl
@[simp] theorem State.setCtx_reorder (s : State) (n : Nat) (f : Ctx → Ctx) : (s.setCtx n f).reorder = s.reorder := rfl
@[simp] theorem State.setCtx_remote (s : State) (n : Nat) (f : Ctx → Ctx) : (s.setCtx n f).remote = s.remote := rfl
@[simp] theorem State.setCtx_served (s : State) (n : Nat) (f : Ctx → Ctx) : (s.setCtx n f).served = s.served := rfl
@[simp] theorem State.setCtx_remoteWaiters (s : State) (n : Nat) (f : Ctx → Ctx) : (s.setCtx n f).remoteWaiters = s.remoteWaiters := rfl
@[simp] theorem State.setCtx_drowsy (s : State) (n : Nat) (f : Ctx → Ctx) : (s.setCtx n f).drowsy = s.drowsy := rfl
@[simp] theorem State.setCtx_time (s : State) (n : Nat) (f : Ctx → Ctx) : (s.setCtx n f).time = s.time := rfl
@[simp] theorem State.setCtx_seqs (s : State) (n : Nat) (f : Ctx → Ctx) : (s.setCtx n f).seqs = s.seqs := rfl
@[simp] theorem State.setCtx_flue (s : State) (n : Nat) (f : Ctx → Ctx) : (s.setCtx n f).flue = s.flue := rfl
@[simp] theorem State.setCtx_rings (s : State) (n : Nat) (f : Ctx → Ctx) : (s.setCtx n f).rings = s.rings := rfl
@[simp] theorem State.setCtx_waits (s : State) (n : Nat) (f : Ctx → Ctx) : (s.setCtx n f).waits = s.waits := rfl
@[simp] theorem State.setCtx_lostWaits (s : State) (n : Nat) (f : Ctx → Ctx) : (s.setCtx n f).lostWaits = s.lostWaits := rfl
@[simp] theorem State.setCtx_shared (s : State) (n : Nat) (f : Ctx → Ctx) : (s.setCtx n f).shared = s.shared := rfl
@[simp] theorem State.setCtx_softErrs (s : State) (n : Nat) (f : Ctx → Ctx) : (s.setCtx n f).softErrs = s.softErrs := rfl
@[simp] theorem State.setCtx_lateFaults (s : State) (n : Nat) (f : Ctx → Ctx) : (s.setCtx n f).lateFaults = s.lateFaults := rfl
@[simp] theorem State.setCtx_samples (s : State) (n : Nat) (f : Ctx → Ctx) : (s.setCtx n f).samples = s.samples := rfl
@[simp] theorem State.setCtx_dev (s : State) (n : Nat) (f : Ctx → Ctx) : (s.setCtx n f).dev = s.dev := rfl
@[simp] theorem State.setCtx_outbox (s : State) (n : Nat) (f : Ctx → Ctx) : (s.setCtx n f).outbox = s.outbox := rfl
@[simp] theorem State.setCtx_nextId (s : State) (n : Nat) (f : Ctx → Ctx) : (s.setCtx n f).nextId = s.nextId := rfl
@[simp] theorem State.setCtx_free (s : State) (n : Nat) (f : Ctx → Ctx) : (s.setCtx n f).free = s.free := rfl
@[simp] theorem State.setCtx_cur (s : State) (n : Nat) (f : Ctx → Ctx) : (s.setCtx n f).cur = s.cur := rfl
@[simp] theorem State.setCtx_turns (s : State) (n : Nat) (f : Ctx → Ctx) : (s.setCtx n f).turns = s.turns := rfl
@[simp] theorem State.setCtx_agenda (s : State) (n : Nat) (f : Ctx → Ctx) : (s.setCtx n f).agenda = s.agenda := rfl

@[simp] theorem State.setFn_mem (s : State) (n : Nat) (f : Fn → Fn) : (s.setFn n f).mem = s.mem := rfl
@[simp] theorem State.setFn_scrubMarks (s : State) (n : Nat) (f : Fn → Fn) : (s.setFn n f).scrubMarks = s.scrubMarks := rfl
@[simp] theorem State.setFn_eccBad (s : State) (n : Nat) (f : Fn → Fn) : (s.setFn n f).eccBad = s.eccBad := rfl
@[simp] theorem State.setFn_fibres (s : State) (n : Nat) (f : Fn → Fn) : (s.setFn n f).fibres = s.fibres := rfl
@[simp] theorem State.setFn_crews (s : State) (n : Nat) (f : Fn → Fn) : (s.setFn n f).crews = s.crews := rfl
@[simp] theorem State.setFn_grids (s : State) (n : Nat) (f : Fn → Fn) : (s.setFn n f).grids = s.grids := rfl
@[simp] theorem State.setFn_cores (s : State) (n : Nat) (f : Fn → Fn) : (s.setFn n f).cores = s.cores := rfl
@[simp] theorem State.setFn_ctxs (s : State) (n : Nat) (f : Fn → Fn) : (s.setFn n f).ctxs = s.ctxs := rfl
@[simp] theorem State.setFn_queues (s : State) (n : Nat) (f : Fn → Fn) : (s.setFn n f).queues = s.queues := rfl
@[simp] theorem State.setFn_packets (s : State) (n : Nat) (f : Fn → Fn) : (s.setFn n f).packets = s.packets := rfl
@[simp] theorem State.setFn_accesses (s : State) (n : Nat) (f : Fn → Fn) : (s.setFn n f).accesses = s.accesses := rfl
@[simp] theorem State.setFn_counts (s : State) (n : Nat) (f : Fn → Fn) : (s.setFn n f).counts = s.counts := rfl
@[simp] theorem State.setFn_stamps (s : State) (n : Nat) (f : Fn → Fn) : (s.setFn n f).stamps = s.stamps := rfl
@[simp] theorem State.setFn_owed (s : State) (n : Nat) (f : Fn → Fn) : (s.setFn n f).owed = s.owed := rfl
@[simp] theorem State.setFn_notifs (s : State) (n : Nat) (f : Fn → Fn) : (s.setFn n f).notifs = s.notifs := rfl
@[simp] theorem State.setFn_clocks (s : State) (n : Nat) (f : Fn → Fn) : (s.setFn n f).clocks = s.clocks := rfl
@[simp] theorem State.setFn_wakes (s : State) (n : Nat) (f : Fn → Fn) : (s.setFn n f).wakes = s.wakes := rfl
@[simp] theorem State.setFn_registrations (s : State) (n : Nat) (f : Fn → Fn) : (s.setFn n f).registrations = s.registrations := rfl
@[simp] theorem State.setFn_moves (s : State) (n : Nat) (f : Fn → Fn) : (s.setFn n f).moves = s.moves := rfl
@[simp] theorem State.setFn_tlb (s : State) (n : Nat) (f : Fn → Fn) : (s.setFn n f).tlb = s.tlb := rfl
@[simp] theorem State.setFn_walks (s : State) (n : Nat) (f : Fn → Fn) : (s.setFn n f).walks = s.walks := rfl
@[simp] theorem State.setFn_migrations (s : State) (n : Nat) (f : Fn → Fn) : (s.setFn n f).migrations = s.migrations := rfl
@[simp] theorem State.setFn_hostLines (s : State) (n : Nat) (f : Fn → Fn) : (s.setFn n f).hostLines = s.hostLines := rfl
@[simp] theorem State.setFn_resReqs (s : State) (n : Nat) (f : Fn → Fn) : (s.setFn n f).resReqs = s.resReqs := rfl
@[simp] theorem State.setFn_channels (s : State) (n : Nat) (f : Fn → Fn) : (s.setFn n f).channels = s.channels := rfl
@[simp] theorem State.setFn_leases (s : State) (n : Nat) (f : Fn → Fn) : (s.setFn n f).leases = s.leases := rfl
@[simp] theorem State.setFn_graphs (s : State) (n : Nat) (f : Fn → Fn) : (s.setFn n f).graphs = s.graphs := rfl
@[simp] theorem State.setFn_comms (s : State) (n : Nat) (f : Fn → Fn) : (s.setFn n f).comms = s.comms := rfl
@[simp] theorem State.setFn_colls (s : State) (n : Nat) (f : Fn → Fn) : (s.setFn n f).colls = s.colls := rfl
@[simp] theorem State.setFn_collNet (s : State) (n : Nat) (f : Fn → Fn) : (s.setFn n f).collNet = s.collNet := rfl
@[simp] theorem State.setFn_switches (s : State) (n : Nat) (f : Fn → Fn) : (s.setFn n f).switches = s.switches := rfl
@[simp] theorem State.setFn_counters (s : State) (n : Nat) (f : Fn → Fn) : (s.setFn n f).counters = s.counters := rfl
@[simp] theorem State.setFn_sends (s : State) (n : Nat) (f : Fn → Fn) : (s.setFn n f).sends = s.sends := rfl
@[simp] theorem State.setFn_green (s : State) (n : Nat) (f : Fn → Fn) : (s.setFn n f).green = s.green := rfl
@[simp] theorem State.setFn_gwRetry (s : State) (n : Nat) (f : Fn → Fn) : (s.setFn n f).gwRetry = s.gwRetry := rfl
@[simp] theorem State.setFn_gwQueries (s : State) (n : Nat) (f : Fn → Fn) : (s.setFn n f).gwQueries = s.gwQueries := rfl
@[simp] theorem State.setFn_gwNet (s : State) (n : Nat) (f : Fn → Fn) : (s.setFn n f).gwNet = s.gwNet := rfl
@[simp] theorem State.setFn_gwRuns (s : State) (n : Nat) (f : Fn → Fn) : (s.setFn n f).gwRuns = s.gwRuns := rfl
@[simp] theorem State.setFn_regions (s : State) (n : Nat) (f : Fn → Fn) : (s.setFn n f).regions = s.regions := rfl
@[simp] theorem State.setFn_stackSts (s : State) (n : Nat) (f : Fn → Fn) : (s.setFn n f).stackSts = s.stackSts := rfl
@[simp] theorem State.setFn_throttled (s : State) (n : Nat) (f : Fn → Fn) : (s.setFn n f).throttled = s.throttled := rfl
@[simp] theorem State.setFn_rowActs (s : State) (n : Nat) (f : Fn → Fn) : (s.setFn n f).rowActs = s.rowActs := rfl
@[simp] theorem State.setFn_sideBuf (s : State) (n : Nat) (f : Fn → Fn) : (s.setFn n f).sideBuf = s.sideBuf := rfl
@[simp] theorem State.setFn_ports (s : State) (n : Nat) (f : Fn → Fn) : (s.setFn n f).ports = s.ports := rfl
@[simp] theorem State.setFn_flows (s : State) (n : Nat) (f : Fn → Fn) : (s.setFn n f).flows = s.flows := rfl
@[simp] theorem State.setFn_reorder (s : State) (n : Nat) (f : Fn → Fn) : (s.setFn n f).reorder = s.reorder := rfl
@[simp] theorem State.setFn_remote (s : State) (n : Nat) (f : Fn → Fn) : (s.setFn n f).remote = s.remote := rfl
@[simp] theorem State.setFn_served (s : State) (n : Nat) (f : Fn → Fn) : (s.setFn n f).served = s.served := rfl
@[simp] theorem State.setFn_remoteWaiters (s : State) (n : Nat) (f : Fn → Fn) : (s.setFn n f).remoteWaiters = s.remoteWaiters := rfl
@[simp] theorem State.setFn_drowsy (s : State) (n : Nat) (f : Fn → Fn) : (s.setFn n f).drowsy = s.drowsy := rfl
@[simp] theorem State.setFn_time (s : State) (n : Nat) (f : Fn → Fn) : (s.setFn n f).time = s.time := rfl
@[simp] theorem State.setFn_seqs (s : State) (n : Nat) (f : Fn → Fn) : (s.setFn n f).seqs = s.seqs := rfl
@[simp] theorem State.setFn_flue (s : State) (n : Nat) (f : Fn → Fn) : (s.setFn n f).flue = s.flue := rfl
@[simp] theorem State.setFn_rings (s : State) (n : Nat) (f : Fn → Fn) : (s.setFn n f).rings = s.rings := rfl
@[simp] theorem State.setFn_waits (s : State) (n : Nat) (f : Fn → Fn) : (s.setFn n f).waits = s.waits := rfl
@[simp] theorem State.setFn_lostWaits (s : State) (n : Nat) (f : Fn → Fn) : (s.setFn n f).lostWaits = s.lostWaits := rfl
@[simp] theorem State.setFn_shared (s : State) (n : Nat) (f : Fn → Fn) : (s.setFn n f).shared = s.shared := rfl
@[simp] theorem State.setFn_softErrs (s : State) (n : Nat) (f : Fn → Fn) : (s.setFn n f).softErrs = s.softErrs := rfl
@[simp] theorem State.setFn_lateFaults (s : State) (n : Nat) (f : Fn → Fn) : (s.setFn n f).lateFaults = s.lateFaults := rfl
@[simp] theorem State.setFn_samples (s : State) (n : Nat) (f : Fn → Fn) : (s.setFn n f).samples = s.samples := rfl
@[simp] theorem State.setFn_dev (s : State) (n : Nat) (f : Fn → Fn) : (s.setFn n f).dev = s.dev := rfl
@[simp] theorem State.setFn_outbox (s : State) (n : Nat) (f : Fn → Fn) : (s.setFn n f).outbox = s.outbox := rfl
@[simp] theorem State.setFn_nextId (s : State) (n : Nat) (f : Fn → Fn) : (s.setFn n f).nextId = s.nextId := rfl
@[simp] theorem State.setFn_free (s : State) (n : Nat) (f : Fn → Fn) : (s.setFn n f).free = s.free := rfl
@[simp] theorem State.setFn_cur (s : State) (n : Nat) (f : Fn → Fn) : (s.setFn n f).cur = s.cur := rfl
@[simp] theorem State.setFn_turns (s : State) (n : Nat) (f : Fn → Fn) : (s.setFn n f).turns = s.turns := rfl
@[simp] theorem State.setFn_agenda (s : State) (n : Nat) (f : Fn → Fn) : (s.setFn n f).agenda = s.agenda := rfl

@[simp] theorem State.setQueue_mem (s : State) (n : Nat) (f : Queue → Queue) : (s.setQueue n f).mem = s.mem := rfl
@[simp] theorem State.setQueue_scrubMarks (s : State) (n : Nat) (f : Queue → Queue) : (s.setQueue n f).scrubMarks = s.scrubMarks := rfl
@[simp] theorem State.setQueue_eccBad (s : State) (n : Nat) (f : Queue → Queue) : (s.setQueue n f).eccBad = s.eccBad := rfl
@[simp] theorem State.setQueue_fibres (s : State) (n : Nat) (f : Queue → Queue) : (s.setQueue n f).fibres = s.fibres := rfl
@[simp] theorem State.setQueue_crews (s : State) (n : Nat) (f : Queue → Queue) : (s.setQueue n f).crews = s.crews := rfl
@[simp] theorem State.setQueue_grids (s : State) (n : Nat) (f : Queue → Queue) : (s.setQueue n f).grids = s.grids := rfl
@[simp] theorem State.setQueue_cores (s : State) (n : Nat) (f : Queue → Queue) : (s.setQueue n f).cores = s.cores := rfl
@[simp] theorem State.setQueue_ctxs (s : State) (n : Nat) (f : Queue → Queue) : (s.setQueue n f).ctxs = s.ctxs := rfl
@[simp] theorem State.setQueue_fns (s : State) (n : Nat) (f : Queue → Queue) : (s.setQueue n f).fns = s.fns := rfl
@[simp] theorem State.setQueue_packets (s : State) (n : Nat) (f : Queue → Queue) : (s.setQueue n f).packets = s.packets := rfl
@[simp] theorem State.setQueue_accesses (s : State) (n : Nat) (f : Queue → Queue) : (s.setQueue n f).accesses = s.accesses := rfl
@[simp] theorem State.setQueue_counts (s : State) (n : Nat) (f : Queue → Queue) : (s.setQueue n f).counts = s.counts := rfl
@[simp] theorem State.setQueue_stamps (s : State) (n : Nat) (f : Queue → Queue) : (s.setQueue n f).stamps = s.stamps := rfl
@[simp] theorem State.setQueue_owed (s : State) (n : Nat) (f : Queue → Queue) : (s.setQueue n f).owed = s.owed := rfl
@[simp] theorem State.setQueue_notifs (s : State) (n : Nat) (f : Queue → Queue) : (s.setQueue n f).notifs = s.notifs := rfl
@[simp] theorem State.setQueue_clocks (s : State) (n : Nat) (f : Queue → Queue) : (s.setQueue n f).clocks = s.clocks := rfl
@[simp] theorem State.setQueue_wakes (s : State) (n : Nat) (f : Queue → Queue) : (s.setQueue n f).wakes = s.wakes := rfl
@[simp] theorem State.setQueue_registrations (s : State) (n : Nat) (f : Queue → Queue) : (s.setQueue n f).registrations = s.registrations := rfl
@[simp] theorem State.setQueue_moves (s : State) (n : Nat) (f : Queue → Queue) : (s.setQueue n f).moves = s.moves := rfl
@[simp] theorem State.setQueue_tlb (s : State) (n : Nat) (f : Queue → Queue) : (s.setQueue n f).tlb = s.tlb := rfl
@[simp] theorem State.setQueue_walks (s : State) (n : Nat) (f : Queue → Queue) : (s.setQueue n f).walks = s.walks := rfl
@[simp] theorem State.setQueue_migrations (s : State) (n : Nat) (f : Queue → Queue) : (s.setQueue n f).migrations = s.migrations := rfl
@[simp] theorem State.setQueue_hostLines (s : State) (n : Nat) (f : Queue → Queue) : (s.setQueue n f).hostLines = s.hostLines := rfl
@[simp] theorem State.setQueue_resReqs (s : State) (n : Nat) (f : Queue → Queue) : (s.setQueue n f).resReqs = s.resReqs := rfl
@[simp] theorem State.setQueue_channels (s : State) (n : Nat) (f : Queue → Queue) : (s.setQueue n f).channels = s.channels := rfl
@[simp] theorem State.setQueue_leases (s : State) (n : Nat) (f : Queue → Queue) : (s.setQueue n f).leases = s.leases := rfl
@[simp] theorem State.setQueue_graphs (s : State) (n : Nat) (f : Queue → Queue) : (s.setQueue n f).graphs = s.graphs := rfl
@[simp] theorem State.setQueue_comms (s : State) (n : Nat) (f : Queue → Queue) : (s.setQueue n f).comms = s.comms := rfl
@[simp] theorem State.setQueue_colls (s : State) (n : Nat) (f : Queue → Queue) : (s.setQueue n f).colls = s.colls := rfl
@[simp] theorem State.setQueue_collNet (s : State) (n : Nat) (f : Queue → Queue) : (s.setQueue n f).collNet = s.collNet := rfl
@[simp] theorem State.setQueue_switches (s : State) (n : Nat) (f : Queue → Queue) : (s.setQueue n f).switches = s.switches := rfl
@[simp] theorem State.setQueue_counters (s : State) (n : Nat) (f : Queue → Queue) : (s.setQueue n f).counters = s.counters := rfl
@[simp] theorem State.setQueue_sends (s : State) (n : Nat) (f : Queue → Queue) : (s.setQueue n f).sends = s.sends := rfl
@[simp] theorem State.setQueue_green (s : State) (n : Nat) (f : Queue → Queue) : (s.setQueue n f).green = s.green := rfl
@[simp] theorem State.setQueue_gwRetry (s : State) (n : Nat) (f : Queue → Queue) : (s.setQueue n f).gwRetry = s.gwRetry := rfl
@[simp] theorem State.setQueue_gwQueries (s : State) (n : Nat) (f : Queue → Queue) : (s.setQueue n f).gwQueries = s.gwQueries := rfl
@[simp] theorem State.setQueue_gwNet (s : State) (n : Nat) (f : Queue → Queue) : (s.setQueue n f).gwNet = s.gwNet := rfl
@[simp] theorem State.setQueue_gwRuns (s : State) (n : Nat) (f : Queue → Queue) : (s.setQueue n f).gwRuns = s.gwRuns := rfl
@[simp] theorem State.setQueue_regions (s : State) (n : Nat) (f : Queue → Queue) : (s.setQueue n f).regions = s.regions := rfl
@[simp] theorem State.setQueue_stackSts (s : State) (n : Nat) (f : Queue → Queue) : (s.setQueue n f).stackSts = s.stackSts := rfl
@[simp] theorem State.setQueue_throttled (s : State) (n : Nat) (f : Queue → Queue) : (s.setQueue n f).throttled = s.throttled := rfl
@[simp] theorem State.setQueue_rowActs (s : State) (n : Nat) (f : Queue → Queue) : (s.setQueue n f).rowActs = s.rowActs := rfl
@[simp] theorem State.setQueue_sideBuf (s : State) (n : Nat) (f : Queue → Queue) : (s.setQueue n f).sideBuf = s.sideBuf := rfl
@[simp] theorem State.setQueue_ports (s : State) (n : Nat) (f : Queue → Queue) : (s.setQueue n f).ports = s.ports := rfl
@[simp] theorem State.setQueue_flows (s : State) (n : Nat) (f : Queue → Queue) : (s.setQueue n f).flows = s.flows := rfl
@[simp] theorem State.setQueue_reorder (s : State) (n : Nat) (f : Queue → Queue) : (s.setQueue n f).reorder = s.reorder := rfl
@[simp] theorem State.setQueue_remote (s : State) (n : Nat) (f : Queue → Queue) : (s.setQueue n f).remote = s.remote := rfl
@[simp] theorem State.setQueue_served (s : State) (n : Nat) (f : Queue → Queue) : (s.setQueue n f).served = s.served := rfl
@[simp] theorem State.setQueue_remoteWaiters (s : State) (n : Nat) (f : Queue → Queue) : (s.setQueue n f).remoteWaiters = s.remoteWaiters := rfl
@[simp] theorem State.setQueue_drowsy (s : State) (n : Nat) (f : Queue → Queue) : (s.setQueue n f).drowsy = s.drowsy := rfl
@[simp] theorem State.setQueue_time (s : State) (n : Nat) (f : Queue → Queue) : (s.setQueue n f).time = s.time := rfl
@[simp] theorem State.setQueue_seqs (s : State) (n : Nat) (f : Queue → Queue) : (s.setQueue n f).seqs = s.seqs := rfl
@[simp] theorem State.setQueue_flue (s : State) (n : Nat) (f : Queue → Queue) : (s.setQueue n f).flue = s.flue := rfl
@[simp] theorem State.setQueue_rings (s : State) (n : Nat) (f : Queue → Queue) : (s.setQueue n f).rings = s.rings := rfl
@[simp] theorem State.setQueue_waits (s : State) (n : Nat) (f : Queue → Queue) : (s.setQueue n f).waits = s.waits := rfl
@[simp] theorem State.setQueue_lostWaits (s : State) (n : Nat) (f : Queue → Queue) : (s.setQueue n f).lostWaits = s.lostWaits := rfl
@[simp] theorem State.setQueue_shared (s : State) (n : Nat) (f : Queue → Queue) : (s.setQueue n f).shared = s.shared := rfl
@[simp] theorem State.setQueue_softErrs (s : State) (n : Nat) (f : Queue → Queue) : (s.setQueue n f).softErrs = s.softErrs := rfl
@[simp] theorem State.setQueue_lateFaults (s : State) (n : Nat) (f : Queue → Queue) : (s.setQueue n f).lateFaults = s.lateFaults := rfl
@[simp] theorem State.setQueue_samples (s : State) (n : Nat) (f : Queue → Queue) : (s.setQueue n f).samples = s.samples := rfl
@[simp] theorem State.setQueue_dev (s : State) (n : Nat) (f : Queue → Queue) : (s.setQueue n f).dev = s.dev := rfl
@[simp] theorem State.setQueue_outbox (s : State) (n : Nat) (f : Queue → Queue) : (s.setQueue n f).outbox = s.outbox := rfl
@[simp] theorem State.setQueue_nextId (s : State) (n : Nat) (f : Queue → Queue) : (s.setQueue n f).nextId = s.nextId := rfl
@[simp] theorem State.setQueue_free (s : State) (n : Nat) (f : Queue → Queue) : (s.setQueue n f).free = s.free := rfl
@[simp] theorem State.setQueue_cur (s : State) (n : Nat) (f : Queue → Queue) : (s.setQueue n f).cur = s.cur := rfl
@[simp] theorem State.setQueue_turns (s : State) (n : Nat) (f : Queue → Queue) : (s.setQueue n f).turns = s.turns := rfl
@[simp] theorem State.setQueue_agenda (s : State) (n : Nat) (f : Queue → Queue) : (s.setQueue n f).agenda = s.agenda := rfl

@[simp] theorem State.setPacket_mem (s : State) (n : Nat) (f : Packet → Packet) : (s.setPacket n f).mem = s.mem := rfl
@[simp] theorem State.setPacket_scrubMarks (s : State) (n : Nat) (f : Packet → Packet) : (s.setPacket n f).scrubMarks = s.scrubMarks := rfl
@[simp] theorem State.setPacket_eccBad (s : State) (n : Nat) (f : Packet → Packet) : (s.setPacket n f).eccBad = s.eccBad := rfl
@[simp] theorem State.setPacket_fibres (s : State) (n : Nat) (f : Packet → Packet) : (s.setPacket n f).fibres = s.fibres := rfl
@[simp] theorem State.setPacket_crews (s : State) (n : Nat) (f : Packet → Packet) : (s.setPacket n f).crews = s.crews := rfl
@[simp] theorem State.setPacket_grids (s : State) (n : Nat) (f : Packet → Packet) : (s.setPacket n f).grids = s.grids := rfl
@[simp] theorem State.setPacket_cores (s : State) (n : Nat) (f : Packet → Packet) : (s.setPacket n f).cores = s.cores := rfl
@[simp] theorem State.setPacket_ctxs (s : State) (n : Nat) (f : Packet → Packet) : (s.setPacket n f).ctxs = s.ctxs := rfl
@[simp] theorem State.setPacket_fns (s : State) (n : Nat) (f : Packet → Packet) : (s.setPacket n f).fns = s.fns := rfl
@[simp] theorem State.setPacket_queues (s : State) (n : Nat) (f : Packet → Packet) : (s.setPacket n f).queues = s.queues := rfl
@[simp] theorem State.setPacket_accesses (s : State) (n : Nat) (f : Packet → Packet) : (s.setPacket n f).accesses = s.accesses := rfl
@[simp] theorem State.setPacket_counts (s : State) (n : Nat) (f : Packet → Packet) : (s.setPacket n f).counts = s.counts := rfl
@[simp] theorem State.setPacket_stamps (s : State) (n : Nat) (f : Packet → Packet) : (s.setPacket n f).stamps = s.stamps := rfl
@[simp] theorem State.setPacket_owed (s : State) (n : Nat) (f : Packet → Packet) : (s.setPacket n f).owed = s.owed := rfl
@[simp] theorem State.setPacket_notifs (s : State) (n : Nat) (f : Packet → Packet) : (s.setPacket n f).notifs = s.notifs := rfl
@[simp] theorem State.setPacket_clocks (s : State) (n : Nat) (f : Packet → Packet) : (s.setPacket n f).clocks = s.clocks := rfl
@[simp] theorem State.setPacket_wakes (s : State) (n : Nat) (f : Packet → Packet) : (s.setPacket n f).wakes = s.wakes := rfl
@[simp] theorem State.setPacket_registrations (s : State) (n : Nat) (f : Packet → Packet) : (s.setPacket n f).registrations = s.registrations := rfl
@[simp] theorem State.setPacket_moves (s : State) (n : Nat) (f : Packet → Packet) : (s.setPacket n f).moves = s.moves := rfl
@[simp] theorem State.setPacket_tlb (s : State) (n : Nat) (f : Packet → Packet) : (s.setPacket n f).tlb = s.tlb := rfl
@[simp] theorem State.setPacket_walks (s : State) (n : Nat) (f : Packet → Packet) : (s.setPacket n f).walks = s.walks := rfl
@[simp] theorem State.setPacket_migrations (s : State) (n : Nat) (f : Packet → Packet) : (s.setPacket n f).migrations = s.migrations := rfl
@[simp] theorem State.setPacket_hostLines (s : State) (n : Nat) (f : Packet → Packet) : (s.setPacket n f).hostLines = s.hostLines := rfl
@[simp] theorem State.setPacket_resReqs (s : State) (n : Nat) (f : Packet → Packet) : (s.setPacket n f).resReqs = s.resReqs := rfl
@[simp] theorem State.setPacket_channels (s : State) (n : Nat) (f : Packet → Packet) : (s.setPacket n f).channels = s.channels := rfl
@[simp] theorem State.setPacket_leases (s : State) (n : Nat) (f : Packet → Packet) : (s.setPacket n f).leases = s.leases := rfl
@[simp] theorem State.setPacket_graphs (s : State) (n : Nat) (f : Packet → Packet) : (s.setPacket n f).graphs = s.graphs := rfl
@[simp] theorem State.setPacket_comms (s : State) (n : Nat) (f : Packet → Packet) : (s.setPacket n f).comms = s.comms := rfl
@[simp] theorem State.setPacket_colls (s : State) (n : Nat) (f : Packet → Packet) : (s.setPacket n f).colls = s.colls := rfl
@[simp] theorem State.setPacket_collNet (s : State) (n : Nat) (f : Packet → Packet) : (s.setPacket n f).collNet = s.collNet := rfl
@[simp] theorem State.setPacket_switches (s : State) (n : Nat) (f : Packet → Packet) : (s.setPacket n f).switches = s.switches := rfl
@[simp] theorem State.setPacket_counters (s : State) (n : Nat) (f : Packet → Packet) : (s.setPacket n f).counters = s.counters := rfl
@[simp] theorem State.setPacket_sends (s : State) (n : Nat) (f : Packet → Packet) : (s.setPacket n f).sends = s.sends := rfl
@[simp] theorem State.setPacket_green (s : State) (n : Nat) (f : Packet → Packet) : (s.setPacket n f).green = s.green := rfl
@[simp] theorem State.setPacket_gwRetry (s : State) (n : Nat) (f : Packet → Packet) : (s.setPacket n f).gwRetry = s.gwRetry := rfl
@[simp] theorem State.setPacket_gwQueries (s : State) (n : Nat) (f : Packet → Packet) : (s.setPacket n f).gwQueries = s.gwQueries := rfl
@[simp] theorem State.setPacket_gwNet (s : State) (n : Nat) (f : Packet → Packet) : (s.setPacket n f).gwNet = s.gwNet := rfl
@[simp] theorem State.setPacket_gwRuns (s : State) (n : Nat) (f : Packet → Packet) : (s.setPacket n f).gwRuns = s.gwRuns := rfl
@[simp] theorem State.setPacket_regions (s : State) (n : Nat) (f : Packet → Packet) : (s.setPacket n f).regions = s.regions := rfl
@[simp] theorem State.setPacket_stackSts (s : State) (n : Nat) (f : Packet → Packet) : (s.setPacket n f).stackSts = s.stackSts := rfl
@[simp] theorem State.setPacket_throttled (s : State) (n : Nat) (f : Packet → Packet) : (s.setPacket n f).throttled = s.throttled := rfl
@[simp] theorem State.setPacket_rowActs (s : State) (n : Nat) (f : Packet → Packet) : (s.setPacket n f).rowActs = s.rowActs := rfl
@[simp] theorem State.setPacket_sideBuf (s : State) (n : Nat) (f : Packet → Packet) : (s.setPacket n f).sideBuf = s.sideBuf := rfl
@[simp] theorem State.setPacket_ports (s : State) (n : Nat) (f : Packet → Packet) : (s.setPacket n f).ports = s.ports := rfl
@[simp] theorem State.setPacket_flows (s : State) (n : Nat) (f : Packet → Packet) : (s.setPacket n f).flows = s.flows := rfl
@[simp] theorem State.setPacket_reorder (s : State) (n : Nat) (f : Packet → Packet) : (s.setPacket n f).reorder = s.reorder := rfl
@[simp] theorem State.setPacket_remote (s : State) (n : Nat) (f : Packet → Packet) : (s.setPacket n f).remote = s.remote := rfl
@[simp] theorem State.setPacket_served (s : State) (n : Nat) (f : Packet → Packet) : (s.setPacket n f).served = s.served := rfl
@[simp] theorem State.setPacket_remoteWaiters (s : State) (n : Nat) (f : Packet → Packet) : (s.setPacket n f).remoteWaiters = s.remoteWaiters := rfl
@[simp] theorem State.setPacket_drowsy (s : State) (n : Nat) (f : Packet → Packet) : (s.setPacket n f).drowsy = s.drowsy := rfl
@[simp] theorem State.setPacket_time (s : State) (n : Nat) (f : Packet → Packet) : (s.setPacket n f).time = s.time := rfl
@[simp] theorem State.setPacket_seqs (s : State) (n : Nat) (f : Packet → Packet) : (s.setPacket n f).seqs = s.seqs := rfl
@[simp] theorem State.setPacket_flue (s : State) (n : Nat) (f : Packet → Packet) : (s.setPacket n f).flue = s.flue := rfl
@[simp] theorem State.setPacket_rings (s : State) (n : Nat) (f : Packet → Packet) : (s.setPacket n f).rings = s.rings := rfl
@[simp] theorem State.setPacket_waits (s : State) (n : Nat) (f : Packet → Packet) : (s.setPacket n f).waits = s.waits := rfl
@[simp] theorem State.setPacket_lostWaits (s : State) (n : Nat) (f : Packet → Packet) : (s.setPacket n f).lostWaits = s.lostWaits := rfl
@[simp] theorem State.setPacket_shared (s : State) (n : Nat) (f : Packet → Packet) : (s.setPacket n f).shared = s.shared := rfl
@[simp] theorem State.setPacket_softErrs (s : State) (n : Nat) (f : Packet → Packet) : (s.setPacket n f).softErrs = s.softErrs := rfl
@[simp] theorem State.setPacket_lateFaults (s : State) (n : Nat) (f : Packet → Packet) : (s.setPacket n f).lateFaults = s.lateFaults := rfl
@[simp] theorem State.setPacket_samples (s : State) (n : Nat) (f : Packet → Packet) : (s.setPacket n f).samples = s.samples := rfl
@[simp] theorem State.setPacket_dev (s : State) (n : Nat) (f : Packet → Packet) : (s.setPacket n f).dev = s.dev := rfl
@[simp] theorem State.setPacket_outbox (s : State) (n : Nat) (f : Packet → Packet) : (s.setPacket n f).outbox = s.outbox := rfl
@[simp] theorem State.setPacket_nextId (s : State) (n : Nat) (f : Packet → Packet) : (s.setPacket n f).nextId = s.nextId := rfl
@[simp] theorem State.setPacket_free (s : State) (n : Nat) (f : Packet → Packet) : (s.setPacket n f).free = s.free := rfl
@[simp] theorem State.setPacket_cur (s : State) (n : Nat) (f : Packet → Packet) : (s.setPacket n f).cur = s.cur := rfl
@[simp] theorem State.setPacket_turns (s : State) (n : Nat) (f : Packet → Packet) : (s.setPacket n f).turns = s.turns := rfl
@[simp] theorem State.setPacket_agenda (s : State) (n : Nat) (f : Packet → Packet) : (s.setPacket n f).agenda = s.agenda := rfl

@[simp] theorem State.setCore_mem (s : State) (n : Nat) (f : Core → Core) : (s.setCore n f).mem = s.mem := rfl
@[simp] theorem State.setCore_scrubMarks (s : State) (n : Nat) (f : Core → Core) : (s.setCore n f).scrubMarks = s.scrubMarks := rfl
@[simp] theorem State.setCore_eccBad (s : State) (n : Nat) (f : Core → Core) : (s.setCore n f).eccBad = s.eccBad := rfl
@[simp] theorem State.setCore_fibres (s : State) (n : Nat) (f : Core → Core) : (s.setCore n f).fibres = s.fibres := rfl
@[simp] theorem State.setCore_crews (s : State) (n : Nat) (f : Core → Core) : (s.setCore n f).crews = s.crews := rfl
@[simp] theorem State.setCore_grids (s : State) (n : Nat) (f : Core → Core) : (s.setCore n f).grids = s.grids := rfl
@[simp] theorem State.setCore_ctxs (s : State) (n : Nat) (f : Core → Core) : (s.setCore n f).ctxs = s.ctxs := rfl
@[simp] theorem State.setCore_fns (s : State) (n : Nat) (f : Core → Core) : (s.setCore n f).fns = s.fns := rfl
@[simp] theorem State.setCore_queues (s : State) (n : Nat) (f : Core → Core) : (s.setCore n f).queues = s.queues := rfl
@[simp] theorem State.setCore_packets (s : State) (n : Nat) (f : Core → Core) : (s.setCore n f).packets = s.packets := rfl
@[simp] theorem State.setCore_accesses (s : State) (n : Nat) (f : Core → Core) : (s.setCore n f).accesses = s.accesses := rfl
@[simp] theorem State.setCore_counts (s : State) (n : Nat) (f : Core → Core) : (s.setCore n f).counts = s.counts := rfl
@[simp] theorem State.setCore_stamps (s : State) (n : Nat) (f : Core → Core) : (s.setCore n f).stamps = s.stamps := rfl
@[simp] theorem State.setCore_owed (s : State) (n : Nat) (f : Core → Core) : (s.setCore n f).owed = s.owed := rfl
@[simp] theorem State.setCore_notifs (s : State) (n : Nat) (f : Core → Core) : (s.setCore n f).notifs = s.notifs := rfl
@[simp] theorem State.setCore_clocks (s : State) (n : Nat) (f : Core → Core) : (s.setCore n f).clocks = s.clocks := rfl
@[simp] theorem State.setCore_wakes (s : State) (n : Nat) (f : Core → Core) : (s.setCore n f).wakes = s.wakes := rfl
@[simp] theorem State.setCore_registrations (s : State) (n : Nat) (f : Core → Core) : (s.setCore n f).registrations = s.registrations := rfl
@[simp] theorem State.setCore_moves (s : State) (n : Nat) (f : Core → Core) : (s.setCore n f).moves = s.moves := rfl
@[simp] theorem State.setCore_tlb (s : State) (n : Nat) (f : Core → Core) : (s.setCore n f).tlb = s.tlb := rfl
@[simp] theorem State.setCore_walks (s : State) (n : Nat) (f : Core → Core) : (s.setCore n f).walks = s.walks := rfl
@[simp] theorem State.setCore_migrations (s : State) (n : Nat) (f : Core → Core) : (s.setCore n f).migrations = s.migrations := rfl
@[simp] theorem State.setCore_hostLines (s : State) (n : Nat) (f : Core → Core) : (s.setCore n f).hostLines = s.hostLines := rfl
@[simp] theorem State.setCore_resReqs (s : State) (n : Nat) (f : Core → Core) : (s.setCore n f).resReqs = s.resReqs := rfl
@[simp] theorem State.setCore_channels (s : State) (n : Nat) (f : Core → Core) : (s.setCore n f).channels = s.channels := rfl
@[simp] theorem State.setCore_leases (s : State) (n : Nat) (f : Core → Core) : (s.setCore n f).leases = s.leases := rfl
@[simp] theorem State.setCore_graphs (s : State) (n : Nat) (f : Core → Core) : (s.setCore n f).graphs = s.graphs := rfl
@[simp] theorem State.setCore_comms (s : State) (n : Nat) (f : Core → Core) : (s.setCore n f).comms = s.comms := rfl
@[simp] theorem State.setCore_colls (s : State) (n : Nat) (f : Core → Core) : (s.setCore n f).colls = s.colls := rfl
@[simp] theorem State.setCore_collNet (s : State) (n : Nat) (f : Core → Core) : (s.setCore n f).collNet = s.collNet := rfl
@[simp] theorem State.setCore_switches (s : State) (n : Nat) (f : Core → Core) : (s.setCore n f).switches = s.switches := rfl
@[simp] theorem State.setCore_counters (s : State) (n : Nat) (f : Core → Core) : (s.setCore n f).counters = s.counters := rfl
@[simp] theorem State.setCore_sends (s : State) (n : Nat) (f : Core → Core) : (s.setCore n f).sends = s.sends := rfl
@[simp] theorem State.setCore_green (s : State) (n : Nat) (f : Core → Core) : (s.setCore n f).green = s.green := rfl
@[simp] theorem State.setCore_gwRetry (s : State) (n : Nat) (f : Core → Core) : (s.setCore n f).gwRetry = s.gwRetry := rfl
@[simp] theorem State.setCore_gwQueries (s : State) (n : Nat) (f : Core → Core) : (s.setCore n f).gwQueries = s.gwQueries := rfl
@[simp] theorem State.setCore_gwNet (s : State) (n : Nat) (f : Core → Core) : (s.setCore n f).gwNet = s.gwNet := rfl
@[simp] theorem State.setCore_gwRuns (s : State) (n : Nat) (f : Core → Core) : (s.setCore n f).gwRuns = s.gwRuns := rfl
@[simp] theorem State.setCore_regions (s : State) (n : Nat) (f : Core → Core) : (s.setCore n f).regions = s.regions := rfl
@[simp] theorem State.setCore_stackSts (s : State) (n : Nat) (f : Core → Core) : (s.setCore n f).stackSts = s.stackSts := rfl
@[simp] theorem State.setCore_throttled (s : State) (n : Nat) (f : Core → Core) : (s.setCore n f).throttled = s.throttled := rfl
@[simp] theorem State.setCore_rowActs (s : State) (n : Nat) (f : Core → Core) : (s.setCore n f).rowActs = s.rowActs := rfl
@[simp] theorem State.setCore_sideBuf (s : State) (n : Nat) (f : Core → Core) : (s.setCore n f).sideBuf = s.sideBuf := rfl
@[simp] theorem State.setCore_ports (s : State) (n : Nat) (f : Core → Core) : (s.setCore n f).ports = s.ports := rfl
@[simp] theorem State.setCore_flows (s : State) (n : Nat) (f : Core → Core) : (s.setCore n f).flows = s.flows := rfl
@[simp] theorem State.setCore_reorder (s : State) (n : Nat) (f : Core → Core) : (s.setCore n f).reorder = s.reorder := rfl
@[simp] theorem State.setCore_remote (s : State) (n : Nat) (f : Core → Core) : (s.setCore n f).remote = s.remote := rfl
@[simp] theorem State.setCore_served (s : State) (n : Nat) (f : Core → Core) : (s.setCore n f).served = s.served := rfl
@[simp] theorem State.setCore_remoteWaiters (s : State) (n : Nat) (f : Core → Core) : (s.setCore n f).remoteWaiters = s.remoteWaiters := rfl
@[simp] theorem State.setCore_drowsy (s : State) (n : Nat) (f : Core → Core) : (s.setCore n f).drowsy = s.drowsy := rfl
@[simp] theorem State.setCore_time (s : State) (n : Nat) (f : Core → Core) : (s.setCore n f).time = s.time := rfl
@[simp] theorem State.setCore_seqs (s : State) (n : Nat) (f : Core → Core) : (s.setCore n f).seqs = s.seqs := rfl
@[simp] theorem State.setCore_flue (s : State) (n : Nat) (f : Core → Core) : (s.setCore n f).flue = s.flue := rfl
@[simp] theorem State.setCore_rings (s : State) (n : Nat) (f : Core → Core) : (s.setCore n f).rings = s.rings := rfl
@[simp] theorem State.setCore_waits (s : State) (n : Nat) (f : Core → Core) : (s.setCore n f).waits = s.waits := rfl
@[simp] theorem State.setCore_lostWaits (s : State) (n : Nat) (f : Core → Core) : (s.setCore n f).lostWaits = s.lostWaits := rfl
@[simp] theorem State.setCore_shared (s : State) (n : Nat) (f : Core → Core) : (s.setCore n f).shared = s.shared := rfl
@[simp] theorem State.setCore_softErrs (s : State) (n : Nat) (f : Core → Core) : (s.setCore n f).softErrs = s.softErrs := rfl
@[simp] theorem State.setCore_lateFaults (s : State) (n : Nat) (f : Core → Core) : (s.setCore n f).lateFaults = s.lateFaults := rfl
@[simp] theorem State.setCore_samples (s : State) (n : Nat) (f : Core → Core) : (s.setCore n f).samples = s.samples := rfl
@[simp] theorem State.setCore_dev (s : State) (n : Nat) (f : Core → Core) : (s.setCore n f).dev = s.dev := rfl
@[simp] theorem State.setCore_outbox (s : State) (n : Nat) (f : Core → Core) : (s.setCore n f).outbox = s.outbox := rfl
@[simp] theorem State.setCore_nextId (s : State) (n : Nat) (f : Core → Core) : (s.setCore n f).nextId = s.nextId := rfl
@[simp] theorem State.setCore_free (s : State) (n : Nat) (f : Core → Core) : (s.setCore n f).free = s.free := rfl
@[simp] theorem State.setCore_cur (s : State) (n : Nat) (f : Core → Core) : (s.setCore n f).cur = s.cur := rfl
@[simp] theorem State.setCore_turns (s : State) (n : Nat) (f : Core → Core) : (s.setCore n f).turns = s.turns := rfl
@[simp] theorem State.setCore_agenda (s : State) (n : Nat) (f : Core → Core) : (s.setCore n f).agenda = s.agenda := rfl

@[simp] theorem State.setRing_mem (s : State) (n : Nat) (f : Ring → Ring) : (s.setRing n f).mem = s.mem := rfl
@[simp] theorem State.setRing_scrubMarks (s : State) (n : Nat) (f : Ring → Ring) : (s.setRing n f).scrubMarks = s.scrubMarks := rfl
@[simp] theorem State.setRing_eccBad (s : State) (n : Nat) (f : Ring → Ring) : (s.setRing n f).eccBad = s.eccBad := rfl
@[simp] theorem State.setRing_fibres (s : State) (n : Nat) (f : Ring → Ring) : (s.setRing n f).fibres = s.fibres := rfl
@[simp] theorem State.setRing_crews (s : State) (n : Nat) (f : Ring → Ring) : (s.setRing n f).crews = s.crews := rfl
@[simp] theorem State.setRing_grids (s : State) (n : Nat) (f : Ring → Ring) : (s.setRing n f).grids = s.grids := rfl
@[simp] theorem State.setRing_cores (s : State) (n : Nat) (f : Ring → Ring) : (s.setRing n f).cores = s.cores := rfl
@[simp] theorem State.setRing_ctxs (s : State) (n : Nat) (f : Ring → Ring) : (s.setRing n f).ctxs = s.ctxs := rfl
@[simp] theorem State.setRing_fns (s : State) (n : Nat) (f : Ring → Ring) : (s.setRing n f).fns = s.fns := rfl
@[simp] theorem State.setRing_queues (s : State) (n : Nat) (f : Ring → Ring) : (s.setRing n f).queues = s.queues := rfl
@[simp] theorem State.setRing_packets (s : State) (n : Nat) (f : Ring → Ring) : (s.setRing n f).packets = s.packets := rfl
@[simp] theorem State.setRing_accesses (s : State) (n : Nat) (f : Ring → Ring) : (s.setRing n f).accesses = s.accesses := rfl
@[simp] theorem State.setRing_counts (s : State) (n : Nat) (f : Ring → Ring) : (s.setRing n f).counts = s.counts := rfl
@[simp] theorem State.setRing_stamps (s : State) (n : Nat) (f : Ring → Ring) : (s.setRing n f).stamps = s.stamps := rfl
@[simp] theorem State.setRing_owed (s : State) (n : Nat) (f : Ring → Ring) : (s.setRing n f).owed = s.owed := rfl
@[simp] theorem State.setRing_notifs (s : State) (n : Nat) (f : Ring → Ring) : (s.setRing n f).notifs = s.notifs := rfl
@[simp] theorem State.setRing_clocks (s : State) (n : Nat) (f : Ring → Ring) : (s.setRing n f).clocks = s.clocks := rfl
@[simp] theorem State.setRing_wakes (s : State) (n : Nat) (f : Ring → Ring) : (s.setRing n f).wakes = s.wakes := rfl
@[simp] theorem State.setRing_registrations (s : State) (n : Nat) (f : Ring → Ring) : (s.setRing n f).registrations = s.registrations := rfl
@[simp] theorem State.setRing_moves (s : State) (n : Nat) (f : Ring → Ring) : (s.setRing n f).moves = s.moves := rfl
@[simp] theorem State.setRing_tlb (s : State) (n : Nat) (f : Ring → Ring) : (s.setRing n f).tlb = s.tlb := rfl
@[simp] theorem State.setRing_walks (s : State) (n : Nat) (f : Ring → Ring) : (s.setRing n f).walks = s.walks := rfl
@[simp] theorem State.setRing_migrations (s : State) (n : Nat) (f : Ring → Ring) : (s.setRing n f).migrations = s.migrations := rfl
@[simp] theorem State.setRing_hostLines (s : State) (n : Nat) (f : Ring → Ring) : (s.setRing n f).hostLines = s.hostLines := rfl
@[simp] theorem State.setRing_resReqs (s : State) (n : Nat) (f : Ring → Ring) : (s.setRing n f).resReqs = s.resReqs := rfl
@[simp] theorem State.setRing_channels (s : State) (n : Nat) (f : Ring → Ring) : (s.setRing n f).channels = s.channels := rfl
@[simp] theorem State.setRing_leases (s : State) (n : Nat) (f : Ring → Ring) : (s.setRing n f).leases = s.leases := rfl
@[simp] theorem State.setRing_graphs (s : State) (n : Nat) (f : Ring → Ring) : (s.setRing n f).graphs = s.graphs := rfl
@[simp] theorem State.setRing_comms (s : State) (n : Nat) (f : Ring → Ring) : (s.setRing n f).comms = s.comms := rfl
@[simp] theorem State.setRing_colls (s : State) (n : Nat) (f : Ring → Ring) : (s.setRing n f).colls = s.colls := rfl
@[simp] theorem State.setRing_collNet (s : State) (n : Nat) (f : Ring → Ring) : (s.setRing n f).collNet = s.collNet := rfl
@[simp] theorem State.setRing_switches (s : State) (n : Nat) (f : Ring → Ring) : (s.setRing n f).switches = s.switches := rfl
@[simp] theorem State.setRing_counters (s : State) (n : Nat) (f : Ring → Ring) : (s.setRing n f).counters = s.counters := rfl
@[simp] theorem State.setRing_sends (s : State) (n : Nat) (f : Ring → Ring) : (s.setRing n f).sends = s.sends := rfl
@[simp] theorem State.setRing_green (s : State) (n : Nat) (f : Ring → Ring) : (s.setRing n f).green = s.green := rfl
@[simp] theorem State.setRing_gwRetry (s : State) (n : Nat) (f : Ring → Ring) : (s.setRing n f).gwRetry = s.gwRetry := rfl
@[simp] theorem State.setRing_gwQueries (s : State) (n : Nat) (f : Ring → Ring) : (s.setRing n f).gwQueries = s.gwQueries := rfl
@[simp] theorem State.setRing_gwNet (s : State) (n : Nat) (f : Ring → Ring) : (s.setRing n f).gwNet = s.gwNet := rfl
@[simp] theorem State.setRing_gwRuns (s : State) (n : Nat) (f : Ring → Ring) : (s.setRing n f).gwRuns = s.gwRuns := rfl
@[simp] theorem State.setRing_regions (s : State) (n : Nat) (f : Ring → Ring) : (s.setRing n f).regions = s.regions := rfl
@[simp] theorem State.setRing_stackSts (s : State) (n : Nat) (f : Ring → Ring) : (s.setRing n f).stackSts = s.stackSts := rfl
@[simp] theorem State.setRing_throttled (s : State) (n : Nat) (f : Ring → Ring) : (s.setRing n f).throttled = s.throttled := rfl
@[simp] theorem State.setRing_rowActs (s : State) (n : Nat) (f : Ring → Ring) : (s.setRing n f).rowActs = s.rowActs := rfl
@[simp] theorem State.setRing_sideBuf (s : State) (n : Nat) (f : Ring → Ring) : (s.setRing n f).sideBuf = s.sideBuf := rfl
@[simp] theorem State.setRing_ports (s : State) (n : Nat) (f : Ring → Ring) : (s.setRing n f).ports = s.ports := rfl
@[simp] theorem State.setRing_flows (s : State) (n : Nat) (f : Ring → Ring) : (s.setRing n f).flows = s.flows := rfl
@[simp] theorem State.setRing_reorder (s : State) (n : Nat) (f : Ring → Ring) : (s.setRing n f).reorder = s.reorder := rfl
@[simp] theorem State.setRing_remote (s : State) (n : Nat) (f : Ring → Ring) : (s.setRing n f).remote = s.remote := rfl
@[simp] theorem State.setRing_served (s : State) (n : Nat) (f : Ring → Ring) : (s.setRing n f).served = s.served := rfl
@[simp] theorem State.setRing_remoteWaiters (s : State) (n : Nat) (f : Ring → Ring) : (s.setRing n f).remoteWaiters = s.remoteWaiters := rfl
@[simp] theorem State.setRing_drowsy (s : State) (n : Nat) (f : Ring → Ring) : (s.setRing n f).drowsy = s.drowsy := rfl
@[simp] theorem State.setRing_time (s : State) (n : Nat) (f : Ring → Ring) : (s.setRing n f).time = s.time := rfl
@[simp] theorem State.setRing_seqs (s : State) (n : Nat) (f : Ring → Ring) : (s.setRing n f).seqs = s.seqs := rfl
@[simp] theorem State.setRing_flue (s : State) (n : Nat) (f : Ring → Ring) : (s.setRing n f).flue = s.flue := rfl
@[simp] theorem State.setRing_waits (s : State) (n : Nat) (f : Ring → Ring) : (s.setRing n f).waits = s.waits := rfl
@[simp] theorem State.setRing_lostWaits (s : State) (n : Nat) (f : Ring → Ring) : (s.setRing n f).lostWaits = s.lostWaits := rfl
@[simp] theorem State.setRing_shared (s : State) (n : Nat) (f : Ring → Ring) : (s.setRing n f).shared = s.shared := rfl
@[simp] theorem State.setRing_softErrs (s : State) (n : Nat) (f : Ring → Ring) : (s.setRing n f).softErrs = s.softErrs := rfl
@[simp] theorem State.setRing_lateFaults (s : State) (n : Nat) (f : Ring → Ring) : (s.setRing n f).lateFaults = s.lateFaults := rfl
@[simp] theorem State.setRing_samples (s : State) (n : Nat) (f : Ring → Ring) : (s.setRing n f).samples = s.samples := rfl
@[simp] theorem State.setRing_dev (s : State) (n : Nat) (f : Ring → Ring) : (s.setRing n f).dev = s.dev := rfl
@[simp] theorem State.setRing_outbox (s : State) (n : Nat) (f : Ring → Ring) : (s.setRing n f).outbox = s.outbox := rfl
@[simp] theorem State.setRing_nextId (s : State) (n : Nat) (f : Ring → Ring) : (s.setRing n f).nextId = s.nextId := rfl
@[simp] theorem State.setRing_free (s : State) (n : Nat) (f : Ring → Ring) : (s.setRing n f).free = s.free := rfl
@[simp] theorem State.setRing_cur (s : State) (n : Nat) (f : Ring → Ring) : (s.setRing n f).cur = s.cur := rfl
@[simp] theorem State.setRing_turns (s : State) (n : Nat) (f : Ring → Ring) : (s.setRing n f).turns = s.turns := rfl
@[simp] theorem State.setRing_agenda (s : State) (n : Nat) (f : Ring → Ring) : (s.setRing n f).agenda = s.agenda := rfl

@[simp] theorem State.setAccess_mem (s : State) (n : Nat) (f : Access → Access) : (s.setAccess n f).mem = s.mem := rfl
@[simp] theorem State.setAccess_scrubMarks (s : State) (n : Nat) (f : Access → Access) : (s.setAccess n f).scrubMarks = s.scrubMarks := rfl
@[simp] theorem State.setAccess_eccBad (s : State) (n : Nat) (f : Access → Access) : (s.setAccess n f).eccBad = s.eccBad := rfl
@[simp] theorem State.setAccess_fibres (s : State) (n : Nat) (f : Access → Access) : (s.setAccess n f).fibres = s.fibres := rfl
@[simp] theorem State.setAccess_crews (s : State) (n : Nat) (f : Access → Access) : (s.setAccess n f).crews = s.crews := rfl
@[simp] theorem State.setAccess_grids (s : State) (n : Nat) (f : Access → Access) : (s.setAccess n f).grids = s.grids := rfl
@[simp] theorem State.setAccess_cores (s : State) (n : Nat) (f : Access → Access) : (s.setAccess n f).cores = s.cores := rfl
@[simp] theorem State.setAccess_ctxs (s : State) (n : Nat) (f : Access → Access) : (s.setAccess n f).ctxs = s.ctxs := rfl
@[simp] theorem State.setAccess_fns (s : State) (n : Nat) (f : Access → Access) : (s.setAccess n f).fns = s.fns := rfl
@[simp] theorem State.setAccess_queues (s : State) (n : Nat) (f : Access → Access) : (s.setAccess n f).queues = s.queues := rfl
@[simp] theorem State.setAccess_packets (s : State) (n : Nat) (f : Access → Access) : (s.setAccess n f).packets = s.packets := rfl
@[simp] theorem State.setAccess_counts (s : State) (n : Nat) (f : Access → Access) : (s.setAccess n f).counts = s.counts := rfl
@[simp] theorem State.setAccess_stamps (s : State) (n : Nat) (f : Access → Access) : (s.setAccess n f).stamps = s.stamps := rfl
@[simp] theorem State.setAccess_owed (s : State) (n : Nat) (f : Access → Access) : (s.setAccess n f).owed = s.owed := rfl
@[simp] theorem State.setAccess_notifs (s : State) (n : Nat) (f : Access → Access) : (s.setAccess n f).notifs = s.notifs := rfl
@[simp] theorem State.setAccess_clocks (s : State) (n : Nat) (f : Access → Access) : (s.setAccess n f).clocks = s.clocks := rfl
@[simp] theorem State.setAccess_wakes (s : State) (n : Nat) (f : Access → Access) : (s.setAccess n f).wakes = s.wakes := rfl
@[simp] theorem State.setAccess_registrations (s : State) (n : Nat) (f : Access → Access) : (s.setAccess n f).registrations = s.registrations := rfl
@[simp] theorem State.setAccess_moves (s : State) (n : Nat) (f : Access → Access) : (s.setAccess n f).moves = s.moves := rfl
@[simp] theorem State.setAccess_tlb (s : State) (n : Nat) (f : Access → Access) : (s.setAccess n f).tlb = s.tlb := rfl
@[simp] theorem State.setAccess_walks (s : State) (n : Nat) (f : Access → Access) : (s.setAccess n f).walks = s.walks := rfl
@[simp] theorem State.setAccess_migrations (s : State) (n : Nat) (f : Access → Access) : (s.setAccess n f).migrations = s.migrations := rfl
@[simp] theorem State.setAccess_hostLines (s : State) (n : Nat) (f : Access → Access) : (s.setAccess n f).hostLines = s.hostLines := rfl
@[simp] theorem State.setAccess_resReqs (s : State) (n : Nat) (f : Access → Access) : (s.setAccess n f).resReqs = s.resReqs := rfl
@[simp] theorem State.setAccess_channels (s : State) (n : Nat) (f : Access → Access) : (s.setAccess n f).channels = s.channels := rfl
@[simp] theorem State.setAccess_leases (s : State) (n : Nat) (f : Access → Access) : (s.setAccess n f).leases = s.leases := rfl
@[simp] theorem State.setAccess_graphs (s : State) (n : Nat) (f : Access → Access) : (s.setAccess n f).graphs = s.graphs := rfl
@[simp] theorem State.setAccess_comms (s : State) (n : Nat) (f : Access → Access) : (s.setAccess n f).comms = s.comms := rfl
@[simp] theorem State.setAccess_colls (s : State) (n : Nat) (f : Access → Access) : (s.setAccess n f).colls = s.colls := rfl
@[simp] theorem State.setAccess_collNet (s : State) (n : Nat) (f : Access → Access) : (s.setAccess n f).collNet = s.collNet := rfl
@[simp] theorem State.setAccess_switches (s : State) (n : Nat) (f : Access → Access) : (s.setAccess n f).switches = s.switches := rfl
@[simp] theorem State.setAccess_counters (s : State) (n : Nat) (f : Access → Access) : (s.setAccess n f).counters = s.counters := rfl
@[simp] theorem State.setAccess_sends (s : State) (n : Nat) (f : Access → Access) : (s.setAccess n f).sends = s.sends := rfl
@[simp] theorem State.setAccess_green (s : State) (n : Nat) (f : Access → Access) : (s.setAccess n f).green = s.green := rfl
@[simp] theorem State.setAccess_gwRetry (s : State) (n : Nat) (f : Access → Access) : (s.setAccess n f).gwRetry = s.gwRetry := rfl
@[simp] theorem State.setAccess_gwQueries (s : State) (n : Nat) (f : Access → Access) : (s.setAccess n f).gwQueries = s.gwQueries := rfl
@[simp] theorem State.setAccess_gwNet (s : State) (n : Nat) (f : Access → Access) : (s.setAccess n f).gwNet = s.gwNet := rfl
@[simp] theorem State.setAccess_gwRuns (s : State) (n : Nat) (f : Access → Access) : (s.setAccess n f).gwRuns = s.gwRuns := rfl
@[simp] theorem State.setAccess_regions (s : State) (n : Nat) (f : Access → Access) : (s.setAccess n f).regions = s.regions := rfl
@[simp] theorem State.setAccess_stackSts (s : State) (n : Nat) (f : Access → Access) : (s.setAccess n f).stackSts = s.stackSts := rfl
@[simp] theorem State.setAccess_throttled (s : State) (n : Nat) (f : Access → Access) : (s.setAccess n f).throttled = s.throttled := rfl
@[simp] theorem State.setAccess_rowActs (s : State) (n : Nat) (f : Access → Access) : (s.setAccess n f).rowActs = s.rowActs := rfl
@[simp] theorem State.setAccess_sideBuf (s : State) (n : Nat) (f : Access → Access) : (s.setAccess n f).sideBuf = s.sideBuf := rfl
@[simp] theorem State.setAccess_ports (s : State) (n : Nat) (f : Access → Access) : (s.setAccess n f).ports = s.ports := rfl
@[simp] theorem State.setAccess_flows (s : State) (n : Nat) (f : Access → Access) : (s.setAccess n f).flows = s.flows := rfl
@[simp] theorem State.setAccess_reorder (s : State) (n : Nat) (f : Access → Access) : (s.setAccess n f).reorder = s.reorder := rfl
@[simp] theorem State.setAccess_remote (s : State) (n : Nat) (f : Access → Access) : (s.setAccess n f).remote = s.remote := rfl
@[simp] theorem State.setAccess_served (s : State) (n : Nat) (f : Access → Access) : (s.setAccess n f).served = s.served := rfl
@[simp] theorem State.setAccess_remoteWaiters (s : State) (n : Nat) (f : Access → Access) : (s.setAccess n f).remoteWaiters = s.remoteWaiters := rfl
@[simp] theorem State.setAccess_drowsy (s : State) (n : Nat) (f : Access → Access) : (s.setAccess n f).drowsy = s.drowsy := rfl
@[simp] theorem State.setAccess_time (s : State) (n : Nat) (f : Access → Access) : (s.setAccess n f).time = s.time := rfl
@[simp] theorem State.setAccess_seqs (s : State) (n : Nat) (f : Access → Access) : (s.setAccess n f).seqs = s.seqs := rfl
@[simp] theorem State.setAccess_flue (s : State) (n : Nat) (f : Access → Access) : (s.setAccess n f).flue = s.flue := rfl
@[simp] theorem State.setAccess_rings (s : State) (n : Nat) (f : Access → Access) : (s.setAccess n f).rings = s.rings := rfl
@[simp] theorem State.setAccess_waits (s : State) (n : Nat) (f : Access → Access) : (s.setAccess n f).waits = s.waits := rfl
@[simp] theorem State.setAccess_lostWaits (s : State) (n : Nat) (f : Access → Access) : (s.setAccess n f).lostWaits = s.lostWaits := rfl
@[simp] theorem State.setAccess_shared (s : State) (n : Nat) (f : Access → Access) : (s.setAccess n f).shared = s.shared := rfl
@[simp] theorem State.setAccess_softErrs (s : State) (n : Nat) (f : Access → Access) : (s.setAccess n f).softErrs = s.softErrs := rfl
@[simp] theorem State.setAccess_lateFaults (s : State) (n : Nat) (f : Access → Access) : (s.setAccess n f).lateFaults = s.lateFaults := rfl
@[simp] theorem State.setAccess_samples (s : State) (n : Nat) (f : Access → Access) : (s.setAccess n f).samples = s.samples := rfl
@[simp] theorem State.setAccess_dev (s : State) (n : Nat) (f : Access → Access) : (s.setAccess n f).dev = s.dev := rfl
@[simp] theorem State.setAccess_outbox (s : State) (n : Nat) (f : Access → Access) : (s.setAccess n f).outbox = s.outbox := rfl
@[simp] theorem State.setAccess_nextId (s : State) (n : Nat) (f : Access → Access) : (s.setAccess n f).nextId = s.nextId := rfl
@[simp] theorem State.setAccess_free (s : State) (n : Nat) (f : Access → Access) : (s.setAccess n f).free = s.free := rfl
@[simp] theorem State.setAccess_cur (s : State) (n : Nat) (f : Access → Access) : (s.setAccess n f).cur = s.cur := rfl
@[simp] theorem State.setAccess_turns (s : State) (n : Nat) (f : Access → Access) : (s.setAccess n f).turns = s.turns := rfl
@[simp] theorem State.setAccess_agenda (s : State) (n : Nat) (f : Access → Access) : (s.setAccess n f).agenda = s.agenda := rfl

@[simp] theorem State.setChannel_mem (s : State) (n : Nat) (f : Channel → Channel) : (s.setChannel n f).mem = s.mem := rfl
@[simp] theorem State.setChannel_scrubMarks (s : State) (n : Nat) (f : Channel → Channel) : (s.setChannel n f).scrubMarks = s.scrubMarks := rfl
@[simp] theorem State.setChannel_eccBad (s : State) (n : Nat) (f : Channel → Channel) : (s.setChannel n f).eccBad = s.eccBad := rfl
@[simp] theorem State.setChannel_fibres (s : State) (n : Nat) (f : Channel → Channel) : (s.setChannel n f).fibres = s.fibres := rfl
@[simp] theorem State.setChannel_crews (s : State) (n : Nat) (f : Channel → Channel) : (s.setChannel n f).crews = s.crews := rfl
@[simp] theorem State.setChannel_grids (s : State) (n : Nat) (f : Channel → Channel) : (s.setChannel n f).grids = s.grids := rfl
@[simp] theorem State.setChannel_cores (s : State) (n : Nat) (f : Channel → Channel) : (s.setChannel n f).cores = s.cores := rfl
@[simp] theorem State.setChannel_ctxs (s : State) (n : Nat) (f : Channel → Channel) : (s.setChannel n f).ctxs = s.ctxs := rfl
@[simp] theorem State.setChannel_fns (s : State) (n : Nat) (f : Channel → Channel) : (s.setChannel n f).fns = s.fns := rfl
@[simp] theorem State.setChannel_queues (s : State) (n : Nat) (f : Channel → Channel) : (s.setChannel n f).queues = s.queues := rfl
@[simp] theorem State.setChannel_packets (s : State) (n : Nat) (f : Channel → Channel) : (s.setChannel n f).packets = s.packets := rfl
@[simp] theorem State.setChannel_accesses (s : State) (n : Nat) (f : Channel → Channel) : (s.setChannel n f).accesses = s.accesses := rfl
@[simp] theorem State.setChannel_counts (s : State) (n : Nat) (f : Channel → Channel) : (s.setChannel n f).counts = s.counts := rfl
@[simp] theorem State.setChannel_stamps (s : State) (n : Nat) (f : Channel → Channel) : (s.setChannel n f).stamps = s.stamps := rfl
@[simp] theorem State.setChannel_owed (s : State) (n : Nat) (f : Channel → Channel) : (s.setChannel n f).owed = s.owed := rfl
@[simp] theorem State.setChannel_notifs (s : State) (n : Nat) (f : Channel → Channel) : (s.setChannel n f).notifs = s.notifs := rfl
@[simp] theorem State.setChannel_clocks (s : State) (n : Nat) (f : Channel → Channel) : (s.setChannel n f).clocks = s.clocks := rfl
@[simp] theorem State.setChannel_wakes (s : State) (n : Nat) (f : Channel → Channel) : (s.setChannel n f).wakes = s.wakes := rfl
@[simp] theorem State.setChannel_registrations (s : State) (n : Nat) (f : Channel → Channel) : (s.setChannel n f).registrations = s.registrations := rfl
@[simp] theorem State.setChannel_moves (s : State) (n : Nat) (f : Channel → Channel) : (s.setChannel n f).moves = s.moves := rfl
@[simp] theorem State.setChannel_tlb (s : State) (n : Nat) (f : Channel → Channel) : (s.setChannel n f).tlb = s.tlb := rfl
@[simp] theorem State.setChannel_walks (s : State) (n : Nat) (f : Channel → Channel) : (s.setChannel n f).walks = s.walks := rfl
@[simp] theorem State.setChannel_migrations (s : State) (n : Nat) (f : Channel → Channel) : (s.setChannel n f).migrations = s.migrations := rfl
@[simp] theorem State.setChannel_hostLines (s : State) (n : Nat) (f : Channel → Channel) : (s.setChannel n f).hostLines = s.hostLines := rfl
@[simp] theorem State.setChannel_resReqs (s : State) (n : Nat) (f : Channel → Channel) : (s.setChannel n f).resReqs = s.resReqs := rfl
@[simp] theorem State.setChannel_leases (s : State) (n : Nat) (f : Channel → Channel) : (s.setChannel n f).leases = s.leases := rfl
@[simp] theorem State.setChannel_graphs (s : State) (n : Nat) (f : Channel → Channel) : (s.setChannel n f).graphs = s.graphs := rfl
@[simp] theorem State.setChannel_comms (s : State) (n : Nat) (f : Channel → Channel) : (s.setChannel n f).comms = s.comms := rfl
@[simp] theorem State.setChannel_colls (s : State) (n : Nat) (f : Channel → Channel) : (s.setChannel n f).colls = s.colls := rfl
@[simp] theorem State.setChannel_collNet (s : State) (n : Nat) (f : Channel → Channel) : (s.setChannel n f).collNet = s.collNet := rfl
@[simp] theorem State.setChannel_switches (s : State) (n : Nat) (f : Channel → Channel) : (s.setChannel n f).switches = s.switches := rfl
@[simp] theorem State.setChannel_counters (s : State) (n : Nat) (f : Channel → Channel) : (s.setChannel n f).counters = s.counters := rfl
@[simp] theorem State.setChannel_sends (s : State) (n : Nat) (f : Channel → Channel) : (s.setChannel n f).sends = s.sends := rfl
@[simp] theorem State.setChannel_green (s : State) (n : Nat) (f : Channel → Channel) : (s.setChannel n f).green = s.green := rfl
@[simp] theorem State.setChannel_gwRetry (s : State) (n : Nat) (f : Channel → Channel) : (s.setChannel n f).gwRetry = s.gwRetry := rfl
@[simp] theorem State.setChannel_gwQueries (s : State) (n : Nat) (f : Channel → Channel) : (s.setChannel n f).gwQueries = s.gwQueries := rfl
@[simp] theorem State.setChannel_gwNet (s : State) (n : Nat) (f : Channel → Channel) : (s.setChannel n f).gwNet = s.gwNet := rfl
@[simp] theorem State.setChannel_gwRuns (s : State) (n : Nat) (f : Channel → Channel) : (s.setChannel n f).gwRuns = s.gwRuns := rfl
@[simp] theorem State.setChannel_regions (s : State) (n : Nat) (f : Channel → Channel) : (s.setChannel n f).regions = s.regions := rfl
@[simp] theorem State.setChannel_stackSts (s : State) (n : Nat) (f : Channel → Channel) : (s.setChannel n f).stackSts = s.stackSts := rfl
@[simp] theorem State.setChannel_throttled (s : State) (n : Nat) (f : Channel → Channel) : (s.setChannel n f).throttled = s.throttled := rfl
@[simp] theorem State.setChannel_rowActs (s : State) (n : Nat) (f : Channel → Channel) : (s.setChannel n f).rowActs = s.rowActs := rfl
@[simp] theorem State.setChannel_sideBuf (s : State) (n : Nat) (f : Channel → Channel) : (s.setChannel n f).sideBuf = s.sideBuf := rfl
@[simp] theorem State.setChannel_ports (s : State) (n : Nat) (f : Channel → Channel) : (s.setChannel n f).ports = s.ports := rfl
@[simp] theorem State.setChannel_flows (s : State) (n : Nat) (f : Channel → Channel) : (s.setChannel n f).flows = s.flows := rfl
@[simp] theorem State.setChannel_reorder (s : State) (n : Nat) (f : Channel → Channel) : (s.setChannel n f).reorder = s.reorder := rfl
@[simp] theorem State.setChannel_remote (s : State) (n : Nat) (f : Channel → Channel) : (s.setChannel n f).remote = s.remote := rfl
@[simp] theorem State.setChannel_served (s : State) (n : Nat) (f : Channel → Channel) : (s.setChannel n f).served = s.served := rfl
@[simp] theorem State.setChannel_remoteWaiters (s : State) (n : Nat) (f : Channel → Channel) : (s.setChannel n f).remoteWaiters = s.remoteWaiters := rfl
@[simp] theorem State.setChannel_drowsy (s : State) (n : Nat) (f : Channel → Channel) : (s.setChannel n f).drowsy = s.drowsy := rfl
@[simp] theorem State.setChannel_time (s : State) (n : Nat) (f : Channel → Channel) : (s.setChannel n f).time = s.time := rfl
@[simp] theorem State.setChannel_seqs (s : State) (n : Nat) (f : Channel → Channel) : (s.setChannel n f).seqs = s.seqs := rfl
@[simp] theorem State.setChannel_flue (s : State) (n : Nat) (f : Channel → Channel) : (s.setChannel n f).flue = s.flue := rfl
@[simp] theorem State.setChannel_rings (s : State) (n : Nat) (f : Channel → Channel) : (s.setChannel n f).rings = s.rings := rfl
@[simp] theorem State.setChannel_waits (s : State) (n : Nat) (f : Channel → Channel) : (s.setChannel n f).waits = s.waits := rfl
@[simp] theorem State.setChannel_lostWaits (s : State) (n : Nat) (f : Channel → Channel) : (s.setChannel n f).lostWaits = s.lostWaits := rfl
@[simp] theorem State.setChannel_shared (s : State) (n : Nat) (f : Channel → Channel) : (s.setChannel n f).shared = s.shared := rfl
@[simp] theorem State.setChannel_softErrs (s : State) (n : Nat) (f : Channel → Channel) : (s.setChannel n f).softErrs = s.softErrs := rfl
@[simp] theorem State.setChannel_lateFaults (s : State) (n : Nat) (f : Channel → Channel) : (s.setChannel n f).lateFaults = s.lateFaults := rfl
@[simp] theorem State.setChannel_samples (s : State) (n : Nat) (f : Channel → Channel) : (s.setChannel n f).samples = s.samples := rfl
@[simp] theorem State.setChannel_dev (s : State) (n : Nat) (f : Channel → Channel) : (s.setChannel n f).dev = s.dev := rfl
@[simp] theorem State.setChannel_outbox (s : State) (n : Nat) (f : Channel → Channel) : (s.setChannel n f).outbox = s.outbox := rfl
@[simp] theorem State.setChannel_nextId (s : State) (n : Nat) (f : Channel → Channel) : (s.setChannel n f).nextId = s.nextId := rfl
@[simp] theorem State.setChannel_free (s : State) (n : Nat) (f : Channel → Channel) : (s.setChannel n f).free = s.free := rfl
@[simp] theorem State.setChannel_cur (s : State) (n : Nat) (f : Channel → Channel) : (s.setChannel n f).cur = s.cur := rfl
@[simp] theorem State.setChannel_turns (s : State) (n : Nat) (f : Channel → Channel) : (s.setChannel n f).turns = s.turns := rfl
@[simp] theorem State.setChannel_agenda (s : State) (n : Nat) (f : Channel → Channel) : (s.setChannel n f).agenda = s.agenda := rfl

@[simp] theorem State.setGraph_mem (s : State) (n : Nat) (f : Graph → Graph) : (s.setGraph n f).mem = s.mem := rfl
@[simp] theorem State.setGraph_scrubMarks (s : State) (n : Nat) (f : Graph → Graph) : (s.setGraph n f).scrubMarks = s.scrubMarks := rfl
@[simp] theorem State.setGraph_eccBad (s : State) (n : Nat) (f : Graph → Graph) : (s.setGraph n f).eccBad = s.eccBad := rfl
@[simp] theorem State.setGraph_fibres (s : State) (n : Nat) (f : Graph → Graph) : (s.setGraph n f).fibres = s.fibres := rfl
@[simp] theorem State.setGraph_crews (s : State) (n : Nat) (f : Graph → Graph) : (s.setGraph n f).crews = s.crews := rfl
@[simp] theorem State.setGraph_grids (s : State) (n : Nat) (f : Graph → Graph) : (s.setGraph n f).grids = s.grids := rfl
@[simp] theorem State.setGraph_cores (s : State) (n : Nat) (f : Graph → Graph) : (s.setGraph n f).cores = s.cores := rfl
@[simp] theorem State.setGraph_ctxs (s : State) (n : Nat) (f : Graph → Graph) : (s.setGraph n f).ctxs = s.ctxs := rfl
@[simp] theorem State.setGraph_fns (s : State) (n : Nat) (f : Graph → Graph) : (s.setGraph n f).fns = s.fns := rfl
@[simp] theorem State.setGraph_queues (s : State) (n : Nat) (f : Graph → Graph) : (s.setGraph n f).queues = s.queues := rfl
@[simp] theorem State.setGraph_packets (s : State) (n : Nat) (f : Graph → Graph) : (s.setGraph n f).packets = s.packets := rfl
@[simp] theorem State.setGraph_accesses (s : State) (n : Nat) (f : Graph → Graph) : (s.setGraph n f).accesses = s.accesses := rfl
@[simp] theorem State.setGraph_counts (s : State) (n : Nat) (f : Graph → Graph) : (s.setGraph n f).counts = s.counts := rfl
@[simp] theorem State.setGraph_stamps (s : State) (n : Nat) (f : Graph → Graph) : (s.setGraph n f).stamps = s.stamps := rfl
@[simp] theorem State.setGraph_owed (s : State) (n : Nat) (f : Graph → Graph) : (s.setGraph n f).owed = s.owed := rfl
@[simp] theorem State.setGraph_notifs (s : State) (n : Nat) (f : Graph → Graph) : (s.setGraph n f).notifs = s.notifs := rfl
@[simp] theorem State.setGraph_clocks (s : State) (n : Nat) (f : Graph → Graph) : (s.setGraph n f).clocks = s.clocks := rfl
@[simp] theorem State.setGraph_wakes (s : State) (n : Nat) (f : Graph → Graph) : (s.setGraph n f).wakes = s.wakes := rfl
@[simp] theorem State.setGraph_registrations (s : State) (n : Nat) (f : Graph → Graph) : (s.setGraph n f).registrations = s.registrations := rfl
@[simp] theorem State.setGraph_moves (s : State) (n : Nat) (f : Graph → Graph) : (s.setGraph n f).moves = s.moves := rfl
@[simp] theorem State.setGraph_tlb (s : State) (n : Nat) (f : Graph → Graph) : (s.setGraph n f).tlb = s.tlb := rfl
@[simp] theorem State.setGraph_walks (s : State) (n : Nat) (f : Graph → Graph) : (s.setGraph n f).walks = s.walks := rfl
@[simp] theorem State.setGraph_migrations (s : State) (n : Nat) (f : Graph → Graph) : (s.setGraph n f).migrations = s.migrations := rfl
@[simp] theorem State.setGraph_hostLines (s : State) (n : Nat) (f : Graph → Graph) : (s.setGraph n f).hostLines = s.hostLines := rfl
@[simp] theorem State.setGraph_resReqs (s : State) (n : Nat) (f : Graph → Graph) : (s.setGraph n f).resReqs = s.resReqs := rfl
@[simp] theorem State.setGraph_channels (s : State) (n : Nat) (f : Graph → Graph) : (s.setGraph n f).channels = s.channels := rfl
@[simp] theorem State.setGraph_leases (s : State) (n : Nat) (f : Graph → Graph) : (s.setGraph n f).leases = s.leases := rfl
@[simp] theorem State.setGraph_comms (s : State) (n : Nat) (f : Graph → Graph) : (s.setGraph n f).comms = s.comms := rfl
@[simp] theorem State.setGraph_colls (s : State) (n : Nat) (f : Graph → Graph) : (s.setGraph n f).colls = s.colls := rfl
@[simp] theorem State.setGraph_collNet (s : State) (n : Nat) (f : Graph → Graph) : (s.setGraph n f).collNet = s.collNet := rfl
@[simp] theorem State.setGraph_switches (s : State) (n : Nat) (f : Graph → Graph) : (s.setGraph n f).switches = s.switches := rfl
@[simp] theorem State.setGraph_counters (s : State) (n : Nat) (f : Graph → Graph) : (s.setGraph n f).counters = s.counters := rfl
@[simp] theorem State.setGraph_sends (s : State) (n : Nat) (f : Graph → Graph) : (s.setGraph n f).sends = s.sends := rfl
@[simp] theorem State.setGraph_green (s : State) (n : Nat) (f : Graph → Graph) : (s.setGraph n f).green = s.green := rfl
@[simp] theorem State.setGraph_gwRetry (s : State) (n : Nat) (f : Graph → Graph) : (s.setGraph n f).gwRetry = s.gwRetry := rfl
@[simp] theorem State.setGraph_gwQueries (s : State) (n : Nat) (f : Graph → Graph) : (s.setGraph n f).gwQueries = s.gwQueries := rfl
@[simp] theorem State.setGraph_gwNet (s : State) (n : Nat) (f : Graph → Graph) : (s.setGraph n f).gwNet = s.gwNet := rfl
@[simp] theorem State.setGraph_gwRuns (s : State) (n : Nat) (f : Graph → Graph) : (s.setGraph n f).gwRuns = s.gwRuns := rfl
@[simp] theorem State.setGraph_regions (s : State) (n : Nat) (f : Graph → Graph) : (s.setGraph n f).regions = s.regions := rfl
@[simp] theorem State.setGraph_stackSts (s : State) (n : Nat) (f : Graph → Graph) : (s.setGraph n f).stackSts = s.stackSts := rfl
@[simp] theorem State.setGraph_throttled (s : State) (n : Nat) (f : Graph → Graph) : (s.setGraph n f).throttled = s.throttled := rfl
@[simp] theorem State.setGraph_rowActs (s : State) (n : Nat) (f : Graph → Graph) : (s.setGraph n f).rowActs = s.rowActs := rfl
@[simp] theorem State.setGraph_sideBuf (s : State) (n : Nat) (f : Graph → Graph) : (s.setGraph n f).sideBuf = s.sideBuf := rfl
@[simp] theorem State.setGraph_ports (s : State) (n : Nat) (f : Graph → Graph) : (s.setGraph n f).ports = s.ports := rfl
@[simp] theorem State.setGraph_flows (s : State) (n : Nat) (f : Graph → Graph) : (s.setGraph n f).flows = s.flows := rfl
@[simp] theorem State.setGraph_reorder (s : State) (n : Nat) (f : Graph → Graph) : (s.setGraph n f).reorder = s.reorder := rfl
@[simp] theorem State.setGraph_remote (s : State) (n : Nat) (f : Graph → Graph) : (s.setGraph n f).remote = s.remote := rfl
@[simp] theorem State.setGraph_served (s : State) (n : Nat) (f : Graph → Graph) : (s.setGraph n f).served = s.served := rfl
@[simp] theorem State.setGraph_remoteWaiters (s : State) (n : Nat) (f : Graph → Graph) : (s.setGraph n f).remoteWaiters = s.remoteWaiters := rfl
@[simp] theorem State.setGraph_drowsy (s : State) (n : Nat) (f : Graph → Graph) : (s.setGraph n f).drowsy = s.drowsy := rfl
@[simp] theorem State.setGraph_time (s : State) (n : Nat) (f : Graph → Graph) : (s.setGraph n f).time = s.time := rfl
@[simp] theorem State.setGraph_seqs (s : State) (n : Nat) (f : Graph → Graph) : (s.setGraph n f).seqs = s.seqs := rfl
@[simp] theorem State.setGraph_flue (s : State) (n : Nat) (f : Graph → Graph) : (s.setGraph n f).flue = s.flue := rfl
@[simp] theorem State.setGraph_rings (s : State) (n : Nat) (f : Graph → Graph) : (s.setGraph n f).rings = s.rings := rfl
@[simp] theorem State.setGraph_waits (s : State) (n : Nat) (f : Graph → Graph) : (s.setGraph n f).waits = s.waits := rfl
@[simp] theorem State.setGraph_lostWaits (s : State) (n : Nat) (f : Graph → Graph) : (s.setGraph n f).lostWaits = s.lostWaits := rfl
@[simp] theorem State.setGraph_shared (s : State) (n : Nat) (f : Graph → Graph) : (s.setGraph n f).shared = s.shared := rfl
@[simp] theorem State.setGraph_softErrs (s : State) (n : Nat) (f : Graph → Graph) : (s.setGraph n f).softErrs = s.softErrs := rfl
@[simp] theorem State.setGraph_lateFaults (s : State) (n : Nat) (f : Graph → Graph) : (s.setGraph n f).lateFaults = s.lateFaults := rfl
@[simp] theorem State.setGraph_samples (s : State) (n : Nat) (f : Graph → Graph) : (s.setGraph n f).samples = s.samples := rfl
@[simp] theorem State.setGraph_dev (s : State) (n : Nat) (f : Graph → Graph) : (s.setGraph n f).dev = s.dev := rfl
@[simp] theorem State.setGraph_outbox (s : State) (n : Nat) (f : Graph → Graph) : (s.setGraph n f).outbox = s.outbox := rfl
@[simp] theorem State.setGraph_nextId (s : State) (n : Nat) (f : Graph → Graph) : (s.setGraph n f).nextId = s.nextId := rfl
@[simp] theorem State.setGraph_free (s : State) (n : Nat) (f : Graph → Graph) : (s.setGraph n f).free = s.free := rfl
@[simp] theorem State.setGraph_cur (s : State) (n : Nat) (f : Graph → Graph) : (s.setGraph n f).cur = s.cur := rfl
@[simp] theorem State.setGraph_turns (s : State) (n : Nat) (f : Graph → Graph) : (s.setGraph n f).turns = s.turns := rfl
@[simp] theorem State.setGraph_agenda (s : State) (n : Nat) (f : Graph → Graph) : (s.setGraph n f).agenda = s.agenda := rfl

@[simp] theorem State.setPort_mem (s : State) (n : Nat) (f : Port → Port) : (s.setPort n f).mem = s.mem := rfl
@[simp] theorem State.setPort_scrubMarks (s : State) (n : Nat) (f : Port → Port) : (s.setPort n f).scrubMarks = s.scrubMarks := rfl
@[simp] theorem State.setPort_eccBad (s : State) (n : Nat) (f : Port → Port) : (s.setPort n f).eccBad = s.eccBad := rfl
@[simp] theorem State.setPort_fibres (s : State) (n : Nat) (f : Port → Port) : (s.setPort n f).fibres = s.fibres := rfl
@[simp] theorem State.setPort_crews (s : State) (n : Nat) (f : Port → Port) : (s.setPort n f).crews = s.crews := rfl
@[simp] theorem State.setPort_grids (s : State) (n : Nat) (f : Port → Port) : (s.setPort n f).grids = s.grids := rfl
@[simp] theorem State.setPort_cores (s : State) (n : Nat) (f : Port → Port) : (s.setPort n f).cores = s.cores := rfl
@[simp] theorem State.setPort_ctxs (s : State) (n : Nat) (f : Port → Port) : (s.setPort n f).ctxs = s.ctxs := rfl
@[simp] theorem State.setPort_fns (s : State) (n : Nat) (f : Port → Port) : (s.setPort n f).fns = s.fns := rfl
@[simp] theorem State.setPort_queues (s : State) (n : Nat) (f : Port → Port) : (s.setPort n f).queues = s.queues := rfl
@[simp] theorem State.setPort_packets (s : State) (n : Nat) (f : Port → Port) : (s.setPort n f).packets = s.packets := rfl
@[simp] theorem State.setPort_accesses (s : State) (n : Nat) (f : Port → Port) : (s.setPort n f).accesses = s.accesses := rfl
@[simp] theorem State.setPort_counts (s : State) (n : Nat) (f : Port → Port) : (s.setPort n f).counts = s.counts := rfl
@[simp] theorem State.setPort_stamps (s : State) (n : Nat) (f : Port → Port) : (s.setPort n f).stamps = s.stamps := rfl
@[simp] theorem State.setPort_owed (s : State) (n : Nat) (f : Port → Port) : (s.setPort n f).owed = s.owed := rfl
@[simp] theorem State.setPort_notifs (s : State) (n : Nat) (f : Port → Port) : (s.setPort n f).notifs = s.notifs := rfl
@[simp] theorem State.setPort_clocks (s : State) (n : Nat) (f : Port → Port) : (s.setPort n f).clocks = s.clocks := rfl
@[simp] theorem State.setPort_wakes (s : State) (n : Nat) (f : Port → Port) : (s.setPort n f).wakes = s.wakes := rfl
@[simp] theorem State.setPort_registrations (s : State) (n : Nat) (f : Port → Port) : (s.setPort n f).registrations = s.registrations := rfl
@[simp] theorem State.setPort_moves (s : State) (n : Nat) (f : Port → Port) : (s.setPort n f).moves = s.moves := rfl
@[simp] theorem State.setPort_tlb (s : State) (n : Nat) (f : Port → Port) : (s.setPort n f).tlb = s.tlb := rfl
@[simp] theorem State.setPort_walks (s : State) (n : Nat) (f : Port → Port) : (s.setPort n f).walks = s.walks := rfl
@[simp] theorem State.setPort_migrations (s : State) (n : Nat) (f : Port → Port) : (s.setPort n f).migrations = s.migrations := rfl
@[simp] theorem State.setPort_hostLines (s : State) (n : Nat) (f : Port → Port) : (s.setPort n f).hostLines = s.hostLines := rfl
@[simp] theorem State.setPort_resReqs (s : State) (n : Nat) (f : Port → Port) : (s.setPort n f).resReqs = s.resReqs := rfl
@[simp] theorem State.setPort_channels (s : State) (n : Nat) (f : Port → Port) : (s.setPort n f).channels = s.channels := rfl
@[simp] theorem State.setPort_leases (s : State) (n : Nat) (f : Port → Port) : (s.setPort n f).leases = s.leases := rfl
@[simp] theorem State.setPort_graphs (s : State) (n : Nat) (f : Port → Port) : (s.setPort n f).graphs = s.graphs := rfl
@[simp] theorem State.setPort_comms (s : State) (n : Nat) (f : Port → Port) : (s.setPort n f).comms = s.comms := rfl
@[simp] theorem State.setPort_colls (s : State) (n : Nat) (f : Port → Port) : (s.setPort n f).colls = s.colls := rfl
@[simp] theorem State.setPort_collNet (s : State) (n : Nat) (f : Port → Port) : (s.setPort n f).collNet = s.collNet := rfl
@[simp] theorem State.setPort_switches (s : State) (n : Nat) (f : Port → Port) : (s.setPort n f).switches = s.switches := rfl
@[simp] theorem State.setPort_counters (s : State) (n : Nat) (f : Port → Port) : (s.setPort n f).counters = s.counters := rfl
@[simp] theorem State.setPort_sends (s : State) (n : Nat) (f : Port → Port) : (s.setPort n f).sends = s.sends := rfl
@[simp] theorem State.setPort_green (s : State) (n : Nat) (f : Port → Port) : (s.setPort n f).green = s.green := rfl
@[simp] theorem State.setPort_gwRetry (s : State) (n : Nat) (f : Port → Port) : (s.setPort n f).gwRetry = s.gwRetry := rfl
@[simp] theorem State.setPort_gwQueries (s : State) (n : Nat) (f : Port → Port) : (s.setPort n f).gwQueries = s.gwQueries := rfl
@[simp] theorem State.setPort_gwNet (s : State) (n : Nat) (f : Port → Port) : (s.setPort n f).gwNet = s.gwNet := rfl
@[simp] theorem State.setPort_gwRuns (s : State) (n : Nat) (f : Port → Port) : (s.setPort n f).gwRuns = s.gwRuns := rfl
@[simp] theorem State.setPort_regions (s : State) (n : Nat) (f : Port → Port) : (s.setPort n f).regions = s.regions := rfl
@[simp] theorem State.setPort_stackSts (s : State) (n : Nat) (f : Port → Port) : (s.setPort n f).stackSts = s.stackSts := rfl
@[simp] theorem State.setPort_throttled (s : State) (n : Nat) (f : Port → Port) : (s.setPort n f).throttled = s.throttled := rfl
@[simp] theorem State.setPort_rowActs (s : State) (n : Nat) (f : Port → Port) : (s.setPort n f).rowActs = s.rowActs := rfl
@[simp] theorem State.setPort_sideBuf (s : State) (n : Nat) (f : Port → Port) : (s.setPort n f).sideBuf = s.sideBuf := rfl
@[simp] theorem State.setPort_flows (s : State) (n : Nat) (f : Port → Port) : (s.setPort n f).flows = s.flows := rfl
@[simp] theorem State.setPort_reorder (s : State) (n : Nat) (f : Port → Port) : (s.setPort n f).reorder = s.reorder := rfl
@[simp] theorem State.setPort_remote (s : State) (n : Nat) (f : Port → Port) : (s.setPort n f).remote = s.remote := rfl
@[simp] theorem State.setPort_served (s : State) (n : Nat) (f : Port → Port) : (s.setPort n f).served = s.served := rfl
@[simp] theorem State.setPort_remoteWaiters (s : State) (n : Nat) (f : Port → Port) : (s.setPort n f).remoteWaiters = s.remoteWaiters := rfl
@[simp] theorem State.setPort_drowsy (s : State) (n : Nat) (f : Port → Port) : (s.setPort n f).drowsy = s.drowsy := rfl
@[simp] theorem State.setPort_time (s : State) (n : Nat) (f : Port → Port) : (s.setPort n f).time = s.time := rfl
@[simp] theorem State.setPort_seqs (s : State) (n : Nat) (f : Port → Port) : (s.setPort n f).seqs = s.seqs := rfl
@[simp] theorem State.setPort_flue (s : State) (n : Nat) (f : Port → Port) : (s.setPort n f).flue = s.flue := rfl
@[simp] theorem State.setPort_rings (s : State) (n : Nat) (f : Port → Port) : (s.setPort n f).rings = s.rings := rfl
@[simp] theorem State.setPort_waits (s : State) (n : Nat) (f : Port → Port) : (s.setPort n f).waits = s.waits := rfl
@[simp] theorem State.setPort_lostWaits (s : State) (n : Nat) (f : Port → Port) : (s.setPort n f).lostWaits = s.lostWaits := rfl
@[simp] theorem State.setPort_shared (s : State) (n : Nat) (f : Port → Port) : (s.setPort n f).shared = s.shared := rfl
@[simp] theorem State.setPort_softErrs (s : State) (n : Nat) (f : Port → Port) : (s.setPort n f).softErrs = s.softErrs := rfl
@[simp] theorem State.setPort_lateFaults (s : State) (n : Nat) (f : Port → Port) : (s.setPort n f).lateFaults = s.lateFaults := rfl
@[simp] theorem State.setPort_samples (s : State) (n : Nat) (f : Port → Port) : (s.setPort n f).samples = s.samples := rfl
@[simp] theorem State.setPort_dev (s : State) (n : Nat) (f : Port → Port) : (s.setPort n f).dev = s.dev := rfl
@[simp] theorem State.setPort_outbox (s : State) (n : Nat) (f : Port → Port) : (s.setPort n f).outbox = s.outbox := rfl
@[simp] theorem State.setPort_nextId (s : State) (n : Nat) (f : Port → Port) : (s.setPort n f).nextId = s.nextId := rfl
@[simp] theorem State.setPort_free (s : State) (n : Nat) (f : Port → Port) : (s.setPort n f).free = s.free := rfl
@[simp] theorem State.setPort_cur (s : State) (n : Nat) (f : Port → Port) : (s.setPort n f).cur = s.cur := rfl
@[simp] theorem State.setPort_turns (s : State) (n : Nat) (f : Port → Port) : (s.setPort n f).turns = s.turns := rfl
@[simp] theorem State.setPort_agenda (s : State) (n : Nat) (f : Port → Port) : (s.setPort n f).agenda = s.agenda := rfl

@[simp] theorem State.setStack_mem (s : State) (n : Nat) (f : StackSt → StackSt) : (s.setStack n f).mem = s.mem := rfl
@[simp] theorem State.setStack_scrubMarks (s : State) (n : Nat) (f : StackSt → StackSt) : (s.setStack n f).scrubMarks = s.scrubMarks := rfl
@[simp] theorem State.setStack_eccBad (s : State) (n : Nat) (f : StackSt → StackSt) : (s.setStack n f).eccBad = s.eccBad := rfl
@[simp] theorem State.setStack_fibres (s : State) (n : Nat) (f : StackSt → StackSt) : (s.setStack n f).fibres = s.fibres := rfl
@[simp] theorem State.setStack_crews (s : State) (n : Nat) (f : StackSt → StackSt) : (s.setStack n f).crews = s.crews := rfl
@[simp] theorem State.setStack_grids (s : State) (n : Nat) (f : StackSt → StackSt) : (s.setStack n f).grids = s.grids := rfl
@[simp] theorem State.setStack_cores (s : State) (n : Nat) (f : StackSt → StackSt) : (s.setStack n f).cores = s.cores := rfl
@[simp] theorem State.setStack_ctxs (s : State) (n : Nat) (f : StackSt → StackSt) : (s.setStack n f).ctxs = s.ctxs := rfl
@[simp] theorem State.setStack_fns (s : State) (n : Nat) (f : StackSt → StackSt) : (s.setStack n f).fns = s.fns := rfl
@[simp] theorem State.setStack_queues (s : State) (n : Nat) (f : StackSt → StackSt) : (s.setStack n f).queues = s.queues := rfl
@[simp] theorem State.setStack_packets (s : State) (n : Nat) (f : StackSt → StackSt) : (s.setStack n f).packets = s.packets := rfl
@[simp] theorem State.setStack_accesses (s : State) (n : Nat) (f : StackSt → StackSt) : (s.setStack n f).accesses = s.accesses := rfl
@[simp] theorem State.setStack_counts (s : State) (n : Nat) (f : StackSt → StackSt) : (s.setStack n f).counts = s.counts := rfl
@[simp] theorem State.setStack_stamps (s : State) (n : Nat) (f : StackSt → StackSt) : (s.setStack n f).stamps = s.stamps := rfl
@[simp] theorem State.setStack_owed (s : State) (n : Nat) (f : StackSt → StackSt) : (s.setStack n f).owed = s.owed := rfl
@[simp] theorem State.setStack_notifs (s : State) (n : Nat) (f : StackSt → StackSt) : (s.setStack n f).notifs = s.notifs := rfl
@[simp] theorem State.setStack_clocks (s : State) (n : Nat) (f : StackSt → StackSt) : (s.setStack n f).clocks = s.clocks := rfl
@[simp] theorem State.setStack_wakes (s : State) (n : Nat) (f : StackSt → StackSt) : (s.setStack n f).wakes = s.wakes := rfl
@[simp] theorem State.setStack_registrations (s : State) (n : Nat) (f : StackSt → StackSt) : (s.setStack n f).registrations = s.registrations := rfl
@[simp] theorem State.setStack_moves (s : State) (n : Nat) (f : StackSt → StackSt) : (s.setStack n f).moves = s.moves := rfl
@[simp] theorem State.setStack_tlb (s : State) (n : Nat) (f : StackSt → StackSt) : (s.setStack n f).tlb = s.tlb := rfl
@[simp] theorem State.setStack_walks (s : State) (n : Nat) (f : StackSt → StackSt) : (s.setStack n f).walks = s.walks := rfl
@[simp] theorem State.setStack_migrations (s : State) (n : Nat) (f : StackSt → StackSt) : (s.setStack n f).migrations = s.migrations := rfl
@[simp] theorem State.setStack_hostLines (s : State) (n : Nat) (f : StackSt → StackSt) : (s.setStack n f).hostLines = s.hostLines := rfl
@[simp] theorem State.setStack_resReqs (s : State) (n : Nat) (f : StackSt → StackSt) : (s.setStack n f).resReqs = s.resReqs := rfl
@[simp] theorem State.setStack_channels (s : State) (n : Nat) (f : StackSt → StackSt) : (s.setStack n f).channels = s.channels := rfl
@[simp] theorem State.setStack_leases (s : State) (n : Nat) (f : StackSt → StackSt) : (s.setStack n f).leases = s.leases := rfl
@[simp] theorem State.setStack_graphs (s : State) (n : Nat) (f : StackSt → StackSt) : (s.setStack n f).graphs = s.graphs := rfl
@[simp] theorem State.setStack_comms (s : State) (n : Nat) (f : StackSt → StackSt) : (s.setStack n f).comms = s.comms := rfl
@[simp] theorem State.setStack_colls (s : State) (n : Nat) (f : StackSt → StackSt) : (s.setStack n f).colls = s.colls := rfl
@[simp] theorem State.setStack_collNet (s : State) (n : Nat) (f : StackSt → StackSt) : (s.setStack n f).collNet = s.collNet := rfl
@[simp] theorem State.setStack_switches (s : State) (n : Nat) (f : StackSt → StackSt) : (s.setStack n f).switches = s.switches := rfl
@[simp] theorem State.setStack_counters (s : State) (n : Nat) (f : StackSt → StackSt) : (s.setStack n f).counters = s.counters := rfl
@[simp] theorem State.setStack_sends (s : State) (n : Nat) (f : StackSt → StackSt) : (s.setStack n f).sends = s.sends := rfl
@[simp] theorem State.setStack_green (s : State) (n : Nat) (f : StackSt → StackSt) : (s.setStack n f).green = s.green := rfl
@[simp] theorem State.setStack_gwRetry (s : State) (n : Nat) (f : StackSt → StackSt) : (s.setStack n f).gwRetry = s.gwRetry := rfl
@[simp] theorem State.setStack_gwQueries (s : State) (n : Nat) (f : StackSt → StackSt) : (s.setStack n f).gwQueries = s.gwQueries := rfl
@[simp] theorem State.setStack_gwNet (s : State) (n : Nat) (f : StackSt → StackSt) : (s.setStack n f).gwNet = s.gwNet := rfl
@[simp] theorem State.setStack_gwRuns (s : State) (n : Nat) (f : StackSt → StackSt) : (s.setStack n f).gwRuns = s.gwRuns := rfl
@[simp] theorem State.setStack_regions (s : State) (n : Nat) (f : StackSt → StackSt) : (s.setStack n f).regions = s.regions := rfl
@[simp] theorem State.setStack_throttled (s : State) (n : Nat) (f : StackSt → StackSt) : (s.setStack n f).throttled = s.throttled := rfl
@[simp] theorem State.setStack_rowActs (s : State) (n : Nat) (f : StackSt → StackSt) : (s.setStack n f).rowActs = s.rowActs := rfl
@[simp] theorem State.setStack_sideBuf (s : State) (n : Nat) (f : StackSt → StackSt) : (s.setStack n f).sideBuf = s.sideBuf := rfl
@[simp] theorem State.setStack_ports (s : State) (n : Nat) (f : StackSt → StackSt) : (s.setStack n f).ports = s.ports := rfl
@[simp] theorem State.setStack_flows (s : State) (n : Nat) (f : StackSt → StackSt) : (s.setStack n f).flows = s.flows := rfl
@[simp] theorem State.setStack_reorder (s : State) (n : Nat) (f : StackSt → StackSt) : (s.setStack n f).reorder = s.reorder := rfl
@[simp] theorem State.setStack_remote (s : State) (n : Nat) (f : StackSt → StackSt) : (s.setStack n f).remote = s.remote := rfl
@[simp] theorem State.setStack_served (s : State) (n : Nat) (f : StackSt → StackSt) : (s.setStack n f).served = s.served := rfl
@[simp] theorem State.setStack_remoteWaiters (s : State) (n : Nat) (f : StackSt → StackSt) : (s.setStack n f).remoteWaiters = s.remoteWaiters := rfl
@[simp] theorem State.setStack_drowsy (s : State) (n : Nat) (f : StackSt → StackSt) : (s.setStack n f).drowsy = s.drowsy := rfl
@[simp] theorem State.setStack_time (s : State) (n : Nat) (f : StackSt → StackSt) : (s.setStack n f).time = s.time := rfl
@[simp] theorem State.setStack_seqs (s : State) (n : Nat) (f : StackSt → StackSt) : (s.setStack n f).seqs = s.seqs := rfl
@[simp] theorem State.setStack_flue (s : State) (n : Nat) (f : StackSt → StackSt) : (s.setStack n f).flue = s.flue := rfl
@[simp] theorem State.setStack_rings (s : State) (n : Nat) (f : StackSt → StackSt) : (s.setStack n f).rings = s.rings := rfl
@[simp] theorem State.setStack_waits (s : State) (n : Nat) (f : StackSt → StackSt) : (s.setStack n f).waits = s.waits := rfl
@[simp] theorem State.setStack_lostWaits (s : State) (n : Nat) (f : StackSt → StackSt) : (s.setStack n f).lostWaits = s.lostWaits := rfl
@[simp] theorem State.setStack_shared (s : State) (n : Nat) (f : StackSt → StackSt) : (s.setStack n f).shared = s.shared := rfl
@[simp] theorem State.setStack_softErrs (s : State) (n : Nat) (f : StackSt → StackSt) : (s.setStack n f).softErrs = s.softErrs := rfl
@[simp] theorem State.setStack_lateFaults (s : State) (n : Nat) (f : StackSt → StackSt) : (s.setStack n f).lateFaults = s.lateFaults := rfl
@[simp] theorem State.setStack_samples (s : State) (n : Nat) (f : StackSt → StackSt) : (s.setStack n f).samples = s.samples := rfl
@[simp] theorem State.setStack_dev (s : State) (n : Nat) (f : StackSt → StackSt) : (s.setStack n f).dev = s.dev := rfl
@[simp] theorem State.setStack_outbox (s : State) (n : Nat) (f : StackSt → StackSt) : (s.setStack n f).outbox = s.outbox := rfl
@[simp] theorem State.setStack_nextId (s : State) (n : Nat) (f : StackSt → StackSt) : (s.setStack n f).nextId = s.nextId := rfl
@[simp] theorem State.setStack_free (s : State) (n : Nat) (f : StackSt → StackSt) : (s.setStack n f).free = s.free := rfl
@[simp] theorem State.setStack_cur (s : State) (n : Nat) (f : StackSt → StackSt) : (s.setStack n f).cur = s.cur := rfl
@[simp] theorem State.setStack_turns (s : State) (n : Nat) (f : StackSt → StackSt) : (s.setStack n f).turns = s.turns := rfl
@[simp] theorem State.setStack_agenda (s : State) (n : Nat) (f : StackSt → StackSt) : (s.setStack n f).agenda = s.agenda := rfl

@[simp] theorem State.setReorder_mem (s : State) (n m : Nat) (f : Reorder → Reorder) : (s.setReorder n m f).mem = s.mem := rfl
@[simp] theorem State.setReorder_scrubMarks (s : State) (n m : Nat) (f : Reorder → Reorder) : (s.setReorder n m f).scrubMarks = s.scrubMarks := rfl
@[simp] theorem State.setReorder_eccBad (s : State) (n m : Nat) (f : Reorder → Reorder) : (s.setReorder n m f).eccBad = s.eccBad := rfl
@[simp] theorem State.setReorder_fibres (s : State) (n m : Nat) (f : Reorder → Reorder) : (s.setReorder n m f).fibres = s.fibres := rfl
@[simp] theorem State.setReorder_crews (s : State) (n m : Nat) (f : Reorder → Reorder) : (s.setReorder n m f).crews = s.crews := rfl
@[simp] theorem State.setReorder_grids (s : State) (n m : Nat) (f : Reorder → Reorder) : (s.setReorder n m f).grids = s.grids := rfl
@[simp] theorem State.setReorder_cores (s : State) (n m : Nat) (f : Reorder → Reorder) : (s.setReorder n m f).cores = s.cores := rfl
@[simp] theorem State.setReorder_ctxs (s : State) (n m : Nat) (f : Reorder → Reorder) : (s.setReorder n m f).ctxs = s.ctxs := rfl
@[simp] theorem State.setReorder_fns (s : State) (n m : Nat) (f : Reorder → Reorder) : (s.setReorder n m f).fns = s.fns := rfl
@[simp] theorem State.setReorder_queues (s : State) (n m : Nat) (f : Reorder → Reorder) : (s.setReorder n m f).queues = s.queues := rfl
@[simp] theorem State.setReorder_packets (s : State) (n m : Nat) (f : Reorder → Reorder) : (s.setReorder n m f).packets = s.packets := rfl
@[simp] theorem State.setReorder_accesses (s : State) (n m : Nat) (f : Reorder → Reorder) : (s.setReorder n m f).accesses = s.accesses := rfl
@[simp] theorem State.setReorder_counts (s : State) (n m : Nat) (f : Reorder → Reorder) : (s.setReorder n m f).counts = s.counts := rfl
@[simp] theorem State.setReorder_stamps (s : State) (n m : Nat) (f : Reorder → Reorder) : (s.setReorder n m f).stamps = s.stamps := rfl
@[simp] theorem State.setReorder_owed (s : State) (n m : Nat) (f : Reorder → Reorder) : (s.setReorder n m f).owed = s.owed := rfl
@[simp] theorem State.setReorder_notifs (s : State) (n m : Nat) (f : Reorder → Reorder) : (s.setReorder n m f).notifs = s.notifs := rfl
@[simp] theorem State.setReorder_clocks (s : State) (n m : Nat) (f : Reorder → Reorder) : (s.setReorder n m f).clocks = s.clocks := rfl
@[simp] theorem State.setReorder_wakes (s : State) (n m : Nat) (f : Reorder → Reorder) : (s.setReorder n m f).wakes = s.wakes := rfl
@[simp] theorem State.setReorder_registrations (s : State) (n m : Nat) (f : Reorder → Reorder) : (s.setReorder n m f).registrations = s.registrations := rfl
@[simp] theorem State.setReorder_moves (s : State) (n m : Nat) (f : Reorder → Reorder) : (s.setReorder n m f).moves = s.moves := rfl
@[simp] theorem State.setReorder_tlb (s : State) (n m : Nat) (f : Reorder → Reorder) : (s.setReorder n m f).tlb = s.tlb := rfl
@[simp] theorem State.setReorder_walks (s : State) (n m : Nat) (f : Reorder → Reorder) : (s.setReorder n m f).walks = s.walks := rfl
@[simp] theorem State.setReorder_migrations (s : State) (n m : Nat) (f : Reorder → Reorder) : (s.setReorder n m f).migrations = s.migrations := rfl
@[simp] theorem State.setReorder_hostLines (s : State) (n m : Nat) (f : Reorder → Reorder) : (s.setReorder n m f).hostLines = s.hostLines := rfl
@[simp] theorem State.setReorder_resReqs (s : State) (n m : Nat) (f : Reorder → Reorder) : (s.setReorder n m f).resReqs = s.resReqs := rfl
@[simp] theorem State.setReorder_channels (s : State) (n m : Nat) (f : Reorder → Reorder) : (s.setReorder n m f).channels = s.channels := rfl
@[simp] theorem State.setReorder_leases (s : State) (n m : Nat) (f : Reorder → Reorder) : (s.setReorder n m f).leases = s.leases := rfl
@[simp] theorem State.setReorder_graphs (s : State) (n m : Nat) (f : Reorder → Reorder) : (s.setReorder n m f).graphs = s.graphs := rfl
@[simp] theorem State.setReorder_comms (s : State) (n m : Nat) (f : Reorder → Reorder) : (s.setReorder n m f).comms = s.comms := rfl
@[simp] theorem State.setReorder_colls (s : State) (n m : Nat) (f : Reorder → Reorder) : (s.setReorder n m f).colls = s.colls := rfl
@[simp] theorem State.setReorder_collNet (s : State) (n m : Nat) (f : Reorder → Reorder) : (s.setReorder n m f).collNet = s.collNet := rfl
@[simp] theorem State.setReorder_switches (s : State) (n m : Nat) (f : Reorder → Reorder) : (s.setReorder n m f).switches = s.switches := rfl
@[simp] theorem State.setReorder_counters (s : State) (n m : Nat) (f : Reorder → Reorder) : (s.setReorder n m f).counters = s.counters := rfl
@[simp] theorem State.setReorder_sends (s : State) (n m : Nat) (f : Reorder → Reorder) : (s.setReorder n m f).sends = s.sends := rfl
@[simp] theorem State.setReorder_green (s : State) (n m : Nat) (f : Reorder → Reorder) : (s.setReorder n m f).green = s.green := rfl
@[simp] theorem State.setReorder_gwRetry (s : State) (n m : Nat) (f : Reorder → Reorder) : (s.setReorder n m f).gwRetry = s.gwRetry := rfl
@[simp] theorem State.setReorder_gwQueries (s : State) (n m : Nat) (f : Reorder → Reorder) : (s.setReorder n m f).gwQueries = s.gwQueries := rfl
@[simp] theorem State.setReorder_gwNet (s : State) (n m : Nat) (f : Reorder → Reorder) : (s.setReorder n m f).gwNet = s.gwNet := rfl
@[simp] theorem State.setReorder_gwRuns (s : State) (n m : Nat) (f : Reorder → Reorder) : (s.setReorder n m f).gwRuns = s.gwRuns := rfl
@[simp] theorem State.setReorder_regions (s : State) (n m : Nat) (f : Reorder → Reorder) : (s.setReorder n m f).regions = s.regions := rfl
@[simp] theorem State.setReorder_stackSts (s : State) (n m : Nat) (f : Reorder → Reorder) : (s.setReorder n m f).stackSts = s.stackSts := rfl
@[simp] theorem State.setReorder_throttled (s : State) (n m : Nat) (f : Reorder → Reorder) : (s.setReorder n m f).throttled = s.throttled := rfl
@[simp] theorem State.setReorder_rowActs (s : State) (n m : Nat) (f : Reorder → Reorder) : (s.setReorder n m f).rowActs = s.rowActs := rfl
@[simp] theorem State.setReorder_sideBuf (s : State) (n m : Nat) (f : Reorder → Reorder) : (s.setReorder n m f).sideBuf = s.sideBuf := rfl
@[simp] theorem State.setReorder_ports (s : State) (n m : Nat) (f : Reorder → Reorder) : (s.setReorder n m f).ports = s.ports := rfl
@[simp] theorem State.setReorder_flows (s : State) (n m : Nat) (f : Reorder → Reorder) : (s.setReorder n m f).flows = s.flows := rfl
@[simp] theorem State.setReorder_remote (s : State) (n m : Nat) (f : Reorder → Reorder) : (s.setReorder n m f).remote = s.remote := rfl
@[simp] theorem State.setReorder_served (s : State) (n m : Nat) (f : Reorder → Reorder) : (s.setReorder n m f).served = s.served := rfl
@[simp] theorem State.setReorder_remoteWaiters (s : State) (n m : Nat) (f : Reorder → Reorder) : (s.setReorder n m f).remoteWaiters = s.remoteWaiters := rfl
@[simp] theorem State.setReorder_drowsy (s : State) (n m : Nat) (f : Reorder → Reorder) : (s.setReorder n m f).drowsy = s.drowsy := rfl
@[simp] theorem State.setReorder_time (s : State) (n m : Nat) (f : Reorder → Reorder) : (s.setReorder n m f).time = s.time := rfl
@[simp] theorem State.setReorder_seqs (s : State) (n m : Nat) (f : Reorder → Reorder) : (s.setReorder n m f).seqs = s.seqs := rfl
@[simp] theorem State.setReorder_flue (s : State) (n m : Nat) (f : Reorder → Reorder) : (s.setReorder n m f).flue = s.flue := rfl
@[simp] theorem State.setReorder_rings (s : State) (n m : Nat) (f : Reorder → Reorder) : (s.setReorder n m f).rings = s.rings := rfl
@[simp] theorem State.setReorder_waits (s : State) (n m : Nat) (f : Reorder → Reorder) : (s.setReorder n m f).waits = s.waits := rfl
@[simp] theorem State.setReorder_lostWaits (s : State) (n m : Nat) (f : Reorder → Reorder) : (s.setReorder n m f).lostWaits = s.lostWaits := rfl
@[simp] theorem State.setReorder_shared (s : State) (n m : Nat) (f : Reorder → Reorder) : (s.setReorder n m f).shared = s.shared := rfl
@[simp] theorem State.setReorder_softErrs (s : State) (n m : Nat) (f : Reorder → Reorder) : (s.setReorder n m f).softErrs = s.softErrs := rfl
@[simp] theorem State.setReorder_lateFaults (s : State) (n m : Nat) (f : Reorder → Reorder) : (s.setReorder n m f).lateFaults = s.lateFaults := rfl
@[simp] theorem State.setReorder_samples (s : State) (n m : Nat) (f : Reorder → Reorder) : (s.setReorder n m f).samples = s.samples := rfl
@[simp] theorem State.setReorder_dev (s : State) (n m : Nat) (f : Reorder → Reorder) : (s.setReorder n m f).dev = s.dev := rfl
@[simp] theorem State.setReorder_outbox (s : State) (n m : Nat) (f : Reorder → Reorder) : (s.setReorder n m f).outbox = s.outbox := rfl
@[simp] theorem State.setReorder_nextId (s : State) (n m : Nat) (f : Reorder → Reorder) : (s.setReorder n m f).nextId = s.nextId := rfl
@[simp] theorem State.setReorder_free (s : State) (n m : Nat) (f : Reorder → Reorder) : (s.setReorder n m f).free = s.free := rfl
@[simp] theorem State.setReorder_cur (s : State) (n m : Nat) (f : Reorder → Reorder) : (s.setReorder n m f).cur = s.cur := rfl
@[simp] theorem State.setReorder_turns (s : State) (n m : Nat) (f : Reorder → Reorder) : (s.setReorder n m f).turns = s.turns := rfl
@[simp] theorem State.setReorder_agenda (s : State) (n m : Nat) (f : Reorder → Reorder) : (s.setReorder n m f).agenda = s.agenda := rfl

@[simp] theorem State.setCounter_mem (s : State) (n : Nat) (f : Counter → Counter) : (s.setCounter n f).mem = s.mem := rfl
@[simp] theorem State.setCounter_scrubMarks (s : State) (n : Nat) (f : Counter → Counter) : (s.setCounter n f).scrubMarks = s.scrubMarks := rfl
@[simp] theorem State.setCounter_eccBad (s : State) (n : Nat) (f : Counter → Counter) : (s.setCounter n f).eccBad = s.eccBad := rfl
@[simp] theorem State.setCounter_fibres (s : State) (n : Nat) (f : Counter → Counter) : (s.setCounter n f).fibres = s.fibres := rfl
@[simp] theorem State.setCounter_crews (s : State) (n : Nat) (f : Counter → Counter) : (s.setCounter n f).crews = s.crews := rfl
@[simp] theorem State.setCounter_grids (s : State) (n : Nat) (f : Counter → Counter) : (s.setCounter n f).grids = s.grids := rfl
@[simp] theorem State.setCounter_cores (s : State) (n : Nat) (f : Counter → Counter) : (s.setCounter n f).cores = s.cores := rfl
@[simp] theorem State.setCounter_ctxs (s : State) (n : Nat) (f : Counter → Counter) : (s.setCounter n f).ctxs = s.ctxs := rfl
@[simp] theorem State.setCounter_fns (s : State) (n : Nat) (f : Counter → Counter) : (s.setCounter n f).fns = s.fns := rfl
@[simp] theorem State.setCounter_queues (s : State) (n : Nat) (f : Counter → Counter) : (s.setCounter n f).queues = s.queues := rfl
@[simp] theorem State.setCounter_packets (s : State) (n : Nat) (f : Counter → Counter) : (s.setCounter n f).packets = s.packets := rfl
@[simp] theorem State.setCounter_accesses (s : State) (n : Nat) (f : Counter → Counter) : (s.setCounter n f).accesses = s.accesses := rfl
@[simp] theorem State.setCounter_counts (s : State) (n : Nat) (f : Counter → Counter) : (s.setCounter n f).counts = s.counts := rfl
@[simp] theorem State.setCounter_stamps (s : State) (n : Nat) (f : Counter → Counter) : (s.setCounter n f).stamps = s.stamps := rfl
@[simp] theorem State.setCounter_owed (s : State) (n : Nat) (f : Counter → Counter) : (s.setCounter n f).owed = s.owed := rfl
@[simp] theorem State.setCounter_notifs (s : State) (n : Nat) (f : Counter → Counter) : (s.setCounter n f).notifs = s.notifs := rfl
@[simp] theorem State.setCounter_clocks (s : State) (n : Nat) (f : Counter → Counter) : (s.setCounter n f).clocks = s.clocks := rfl
@[simp] theorem State.setCounter_wakes (s : State) (n : Nat) (f : Counter → Counter) : (s.setCounter n f).wakes = s.wakes := rfl
@[simp] theorem State.setCounter_registrations (s : State) (n : Nat) (f : Counter → Counter) : (s.setCounter n f).registrations = s.registrations := rfl
@[simp] theorem State.setCounter_moves (s : State) (n : Nat) (f : Counter → Counter) : (s.setCounter n f).moves = s.moves := rfl
@[simp] theorem State.setCounter_tlb (s : State) (n : Nat) (f : Counter → Counter) : (s.setCounter n f).tlb = s.tlb := rfl
@[simp] theorem State.setCounter_walks (s : State) (n : Nat) (f : Counter → Counter) : (s.setCounter n f).walks = s.walks := rfl
@[simp] theorem State.setCounter_migrations (s : State) (n : Nat) (f : Counter → Counter) : (s.setCounter n f).migrations = s.migrations := rfl
@[simp] theorem State.setCounter_hostLines (s : State) (n : Nat) (f : Counter → Counter) : (s.setCounter n f).hostLines = s.hostLines := rfl
@[simp] theorem State.setCounter_resReqs (s : State) (n : Nat) (f : Counter → Counter) : (s.setCounter n f).resReqs = s.resReqs := rfl
@[simp] theorem State.setCounter_channels (s : State) (n : Nat) (f : Counter → Counter) : (s.setCounter n f).channels = s.channels := rfl
@[simp] theorem State.setCounter_leases (s : State) (n : Nat) (f : Counter → Counter) : (s.setCounter n f).leases = s.leases := rfl
@[simp] theorem State.setCounter_graphs (s : State) (n : Nat) (f : Counter → Counter) : (s.setCounter n f).graphs = s.graphs := rfl
@[simp] theorem State.setCounter_comms (s : State) (n : Nat) (f : Counter → Counter) : (s.setCounter n f).comms = s.comms := rfl
@[simp] theorem State.setCounter_colls (s : State) (n : Nat) (f : Counter → Counter) : (s.setCounter n f).colls = s.colls := rfl
@[simp] theorem State.setCounter_collNet (s : State) (n : Nat) (f : Counter → Counter) : (s.setCounter n f).collNet = s.collNet := rfl
@[simp] theorem State.setCounter_switches (s : State) (n : Nat) (f : Counter → Counter) : (s.setCounter n f).switches = s.switches := rfl
@[simp] theorem State.setCounter_sends (s : State) (n : Nat) (f : Counter → Counter) : (s.setCounter n f).sends = s.sends := rfl
@[simp] theorem State.setCounter_green (s : State) (n : Nat) (f : Counter → Counter) : (s.setCounter n f).green = s.green := rfl
@[simp] theorem State.setCounter_gwRetry (s : State) (n : Nat) (f : Counter → Counter) : (s.setCounter n f).gwRetry = s.gwRetry := rfl
@[simp] theorem State.setCounter_gwQueries (s : State) (n : Nat) (f : Counter → Counter) : (s.setCounter n f).gwQueries = s.gwQueries := rfl
@[simp] theorem State.setCounter_gwNet (s : State) (n : Nat) (f : Counter → Counter) : (s.setCounter n f).gwNet = s.gwNet := rfl
@[simp] theorem State.setCounter_gwRuns (s : State) (n : Nat) (f : Counter → Counter) : (s.setCounter n f).gwRuns = s.gwRuns := rfl
@[simp] theorem State.setCounter_regions (s : State) (n : Nat) (f : Counter → Counter) : (s.setCounter n f).regions = s.regions := rfl
@[simp] theorem State.setCounter_stackSts (s : State) (n : Nat) (f : Counter → Counter) : (s.setCounter n f).stackSts = s.stackSts := rfl
@[simp] theorem State.setCounter_throttled (s : State) (n : Nat) (f : Counter → Counter) : (s.setCounter n f).throttled = s.throttled := rfl
@[simp] theorem State.setCounter_rowActs (s : State) (n : Nat) (f : Counter → Counter) : (s.setCounter n f).rowActs = s.rowActs := rfl
@[simp] theorem State.setCounter_sideBuf (s : State) (n : Nat) (f : Counter → Counter) : (s.setCounter n f).sideBuf = s.sideBuf := rfl
@[simp] theorem State.setCounter_ports (s : State) (n : Nat) (f : Counter → Counter) : (s.setCounter n f).ports = s.ports := rfl
@[simp] theorem State.setCounter_flows (s : State) (n : Nat) (f : Counter → Counter) : (s.setCounter n f).flows = s.flows := rfl
@[simp] theorem State.setCounter_reorder (s : State) (n : Nat) (f : Counter → Counter) : (s.setCounter n f).reorder = s.reorder := rfl
@[simp] theorem State.setCounter_remote (s : State) (n : Nat) (f : Counter → Counter) : (s.setCounter n f).remote = s.remote := rfl
@[simp] theorem State.setCounter_served (s : State) (n : Nat) (f : Counter → Counter) : (s.setCounter n f).served = s.served := rfl
@[simp] theorem State.setCounter_remoteWaiters (s : State) (n : Nat) (f : Counter → Counter) : (s.setCounter n f).remoteWaiters = s.remoteWaiters := rfl
@[simp] theorem State.setCounter_drowsy (s : State) (n : Nat) (f : Counter → Counter) : (s.setCounter n f).drowsy = s.drowsy := rfl
@[simp] theorem State.setCounter_time (s : State) (n : Nat) (f : Counter → Counter) : (s.setCounter n f).time = s.time := rfl
@[simp] theorem State.setCounter_seqs (s : State) (n : Nat) (f : Counter → Counter) : (s.setCounter n f).seqs = s.seqs := rfl
@[simp] theorem State.setCounter_flue (s : State) (n : Nat) (f : Counter → Counter) : (s.setCounter n f).flue = s.flue := rfl
@[simp] theorem State.setCounter_rings (s : State) (n : Nat) (f : Counter → Counter) : (s.setCounter n f).rings = s.rings := rfl
@[simp] theorem State.setCounter_waits (s : State) (n : Nat) (f : Counter → Counter) : (s.setCounter n f).waits = s.waits := rfl
@[simp] theorem State.setCounter_lostWaits (s : State) (n : Nat) (f : Counter → Counter) : (s.setCounter n f).lostWaits = s.lostWaits := rfl
@[simp] theorem State.setCounter_shared (s : State) (n : Nat) (f : Counter → Counter) : (s.setCounter n f).shared = s.shared := rfl
@[simp] theorem State.setCounter_softErrs (s : State) (n : Nat) (f : Counter → Counter) : (s.setCounter n f).softErrs = s.softErrs := rfl
@[simp] theorem State.setCounter_lateFaults (s : State) (n : Nat) (f : Counter → Counter) : (s.setCounter n f).lateFaults = s.lateFaults := rfl
@[simp] theorem State.setCounter_samples (s : State) (n : Nat) (f : Counter → Counter) : (s.setCounter n f).samples = s.samples := rfl
@[simp] theorem State.setCounter_dev (s : State) (n : Nat) (f : Counter → Counter) : (s.setCounter n f).dev = s.dev := rfl
@[simp] theorem State.setCounter_outbox (s : State) (n : Nat) (f : Counter → Counter) : (s.setCounter n f).outbox = s.outbox := rfl
@[simp] theorem State.setCounter_nextId (s : State) (n : Nat) (f : Counter → Counter) : (s.setCounter n f).nextId = s.nextId := rfl
@[simp] theorem State.setCounter_free (s : State) (n : Nat) (f : Counter → Counter) : (s.setCounter n f).free = s.free := rfl
@[simp] theorem State.setCounter_cur (s : State) (n : Nat) (f : Counter → Counter) : (s.setCounter n f).cur = s.cur := rfl
@[simp] theorem State.setCounter_turns (s : State) (n : Nat) (f : Counter → Counter) : (s.setCounter n f).turns = s.turns := rfl
@[simp] theorem State.setCounter_agenda (s : State) (n : Nat) (f : Counter → Counter) : (s.setCounter n f).agenda = s.agenda := rfl

@[simp] theorem State.setGw_mem (s : State) (n m : Nat) (f : GwEntry → GwEntry) : (s.setGw n m f).mem = s.mem := rfl
@[simp] theorem State.setGw_scrubMarks (s : State) (n m : Nat) (f : GwEntry → GwEntry) : (s.setGw n m f).scrubMarks = s.scrubMarks := rfl
@[simp] theorem State.setGw_eccBad (s : State) (n m : Nat) (f : GwEntry → GwEntry) : (s.setGw n m f).eccBad = s.eccBad := rfl
@[simp] theorem State.setGw_fibres (s : State) (n m : Nat) (f : GwEntry → GwEntry) : (s.setGw n m f).fibres = s.fibres := rfl
@[simp] theorem State.setGw_crews (s : State) (n m : Nat) (f : GwEntry → GwEntry) : (s.setGw n m f).crews = s.crews := rfl
@[simp] theorem State.setGw_grids (s : State) (n m : Nat) (f : GwEntry → GwEntry) : (s.setGw n m f).grids = s.grids := rfl
@[simp] theorem State.setGw_cores (s : State) (n m : Nat) (f : GwEntry → GwEntry) : (s.setGw n m f).cores = s.cores := rfl
@[simp] theorem State.setGw_ctxs (s : State) (n m : Nat) (f : GwEntry → GwEntry) : (s.setGw n m f).ctxs = s.ctxs := rfl
@[simp] theorem State.setGw_fns (s : State) (n m : Nat) (f : GwEntry → GwEntry) : (s.setGw n m f).fns = s.fns := rfl
@[simp] theorem State.setGw_queues (s : State) (n m : Nat) (f : GwEntry → GwEntry) : (s.setGw n m f).queues = s.queues := rfl
@[simp] theorem State.setGw_packets (s : State) (n m : Nat) (f : GwEntry → GwEntry) : (s.setGw n m f).packets = s.packets := rfl
@[simp] theorem State.setGw_accesses (s : State) (n m : Nat) (f : GwEntry → GwEntry) : (s.setGw n m f).accesses = s.accesses := rfl
@[simp] theorem State.setGw_counts (s : State) (n m : Nat) (f : GwEntry → GwEntry) : (s.setGw n m f).counts = s.counts := rfl
@[simp] theorem State.setGw_stamps (s : State) (n m : Nat) (f : GwEntry → GwEntry) : (s.setGw n m f).stamps = s.stamps := rfl
@[simp] theorem State.setGw_owed (s : State) (n m : Nat) (f : GwEntry → GwEntry) : (s.setGw n m f).owed = s.owed := rfl
@[simp] theorem State.setGw_notifs (s : State) (n m : Nat) (f : GwEntry → GwEntry) : (s.setGw n m f).notifs = s.notifs := rfl
@[simp] theorem State.setGw_clocks (s : State) (n m : Nat) (f : GwEntry → GwEntry) : (s.setGw n m f).clocks = s.clocks := rfl
@[simp] theorem State.setGw_wakes (s : State) (n m : Nat) (f : GwEntry → GwEntry) : (s.setGw n m f).wakes = s.wakes := rfl
@[simp] theorem State.setGw_registrations (s : State) (n m : Nat) (f : GwEntry → GwEntry) : (s.setGw n m f).registrations = s.registrations := rfl
@[simp] theorem State.setGw_moves (s : State) (n m : Nat) (f : GwEntry → GwEntry) : (s.setGw n m f).moves = s.moves := rfl
@[simp] theorem State.setGw_tlb (s : State) (n m : Nat) (f : GwEntry → GwEntry) : (s.setGw n m f).tlb = s.tlb := rfl
@[simp] theorem State.setGw_walks (s : State) (n m : Nat) (f : GwEntry → GwEntry) : (s.setGw n m f).walks = s.walks := rfl
@[simp] theorem State.setGw_migrations (s : State) (n m : Nat) (f : GwEntry → GwEntry) : (s.setGw n m f).migrations = s.migrations := rfl
@[simp] theorem State.setGw_hostLines (s : State) (n m : Nat) (f : GwEntry → GwEntry) : (s.setGw n m f).hostLines = s.hostLines := rfl
@[simp] theorem State.setGw_resReqs (s : State) (n m : Nat) (f : GwEntry → GwEntry) : (s.setGw n m f).resReqs = s.resReqs := rfl
@[simp] theorem State.setGw_channels (s : State) (n m : Nat) (f : GwEntry → GwEntry) : (s.setGw n m f).channels = s.channels := rfl
@[simp] theorem State.setGw_leases (s : State) (n m : Nat) (f : GwEntry → GwEntry) : (s.setGw n m f).leases = s.leases := rfl
@[simp] theorem State.setGw_graphs (s : State) (n m : Nat) (f : GwEntry → GwEntry) : (s.setGw n m f).graphs = s.graphs := rfl
@[simp] theorem State.setGw_comms (s : State) (n m : Nat) (f : GwEntry → GwEntry) : (s.setGw n m f).comms = s.comms := rfl
@[simp] theorem State.setGw_colls (s : State) (n m : Nat) (f : GwEntry → GwEntry) : (s.setGw n m f).colls = s.colls := rfl
@[simp] theorem State.setGw_collNet (s : State) (n m : Nat) (f : GwEntry → GwEntry) : (s.setGw n m f).collNet = s.collNet := rfl
@[simp] theorem State.setGw_switches (s : State) (n m : Nat) (f : GwEntry → GwEntry) : (s.setGw n m f).switches = s.switches := rfl
@[simp] theorem State.setGw_counters (s : State) (n m : Nat) (f : GwEntry → GwEntry) : (s.setGw n m f).counters = s.counters := rfl
@[simp] theorem State.setGw_sends (s : State) (n m : Nat) (f : GwEntry → GwEntry) : (s.setGw n m f).sends = s.sends := rfl
@[simp] theorem State.setGw_gwRetry (s : State) (n m : Nat) (f : GwEntry → GwEntry) : (s.setGw n m f).gwRetry = s.gwRetry := rfl
@[simp] theorem State.setGw_gwQueries (s : State) (n m : Nat) (f : GwEntry → GwEntry) : (s.setGw n m f).gwQueries = s.gwQueries := rfl
@[simp] theorem State.setGw_gwNet (s : State) (n m : Nat) (f : GwEntry → GwEntry) : (s.setGw n m f).gwNet = s.gwNet := rfl
@[simp] theorem State.setGw_gwRuns (s : State) (n m : Nat) (f : GwEntry → GwEntry) : (s.setGw n m f).gwRuns = s.gwRuns := rfl
@[simp] theorem State.setGw_regions (s : State) (n m : Nat) (f : GwEntry → GwEntry) : (s.setGw n m f).regions = s.regions := rfl
@[simp] theorem State.setGw_stackSts (s : State) (n m : Nat) (f : GwEntry → GwEntry) : (s.setGw n m f).stackSts = s.stackSts := rfl
@[simp] theorem State.setGw_throttled (s : State) (n m : Nat) (f : GwEntry → GwEntry) : (s.setGw n m f).throttled = s.throttled := rfl
@[simp] theorem State.setGw_rowActs (s : State) (n m : Nat) (f : GwEntry → GwEntry) : (s.setGw n m f).rowActs = s.rowActs := rfl
@[simp] theorem State.setGw_sideBuf (s : State) (n m : Nat) (f : GwEntry → GwEntry) : (s.setGw n m f).sideBuf = s.sideBuf := rfl
@[simp] theorem State.setGw_ports (s : State) (n m : Nat) (f : GwEntry → GwEntry) : (s.setGw n m f).ports = s.ports := rfl
@[simp] theorem State.setGw_flows (s : State) (n m : Nat) (f : GwEntry → GwEntry) : (s.setGw n m f).flows = s.flows := rfl
@[simp] theorem State.setGw_reorder (s : State) (n m : Nat) (f : GwEntry → GwEntry) : (s.setGw n m f).reorder = s.reorder := rfl
@[simp] theorem State.setGw_remote (s : State) (n m : Nat) (f : GwEntry → GwEntry) : (s.setGw n m f).remote = s.remote := rfl
@[simp] theorem State.setGw_served (s : State) (n m : Nat) (f : GwEntry → GwEntry) : (s.setGw n m f).served = s.served := rfl
@[simp] theorem State.setGw_remoteWaiters (s : State) (n m : Nat) (f : GwEntry → GwEntry) : (s.setGw n m f).remoteWaiters = s.remoteWaiters := rfl
@[simp] theorem State.setGw_drowsy (s : State) (n m : Nat) (f : GwEntry → GwEntry) : (s.setGw n m f).drowsy = s.drowsy := rfl
@[simp] theorem State.setGw_time (s : State) (n m : Nat) (f : GwEntry → GwEntry) : (s.setGw n m f).time = s.time := rfl
@[simp] theorem State.setGw_seqs (s : State) (n m : Nat) (f : GwEntry → GwEntry) : (s.setGw n m f).seqs = s.seqs := rfl
@[simp] theorem State.setGw_flue (s : State) (n m : Nat) (f : GwEntry → GwEntry) : (s.setGw n m f).flue = s.flue := rfl
@[simp] theorem State.setGw_rings (s : State) (n m : Nat) (f : GwEntry → GwEntry) : (s.setGw n m f).rings = s.rings := rfl
@[simp] theorem State.setGw_waits (s : State) (n m : Nat) (f : GwEntry → GwEntry) : (s.setGw n m f).waits = s.waits := rfl
@[simp] theorem State.setGw_lostWaits (s : State) (n m : Nat) (f : GwEntry → GwEntry) : (s.setGw n m f).lostWaits = s.lostWaits := rfl
@[simp] theorem State.setGw_shared (s : State) (n m : Nat) (f : GwEntry → GwEntry) : (s.setGw n m f).shared = s.shared := rfl
@[simp] theorem State.setGw_softErrs (s : State) (n m : Nat) (f : GwEntry → GwEntry) : (s.setGw n m f).softErrs = s.softErrs := rfl
@[simp] theorem State.setGw_lateFaults (s : State) (n m : Nat) (f : GwEntry → GwEntry) : (s.setGw n m f).lateFaults = s.lateFaults := rfl
@[simp] theorem State.setGw_samples (s : State) (n m : Nat) (f : GwEntry → GwEntry) : (s.setGw n m f).samples = s.samples := rfl
@[simp] theorem State.setGw_dev (s : State) (n m : Nat) (f : GwEntry → GwEntry) : (s.setGw n m f).dev = s.dev := rfl
@[simp] theorem State.setGw_outbox (s : State) (n m : Nat) (f : GwEntry → GwEntry) : (s.setGw n m f).outbox = s.outbox := rfl
@[simp] theorem State.setGw_nextId (s : State) (n m : Nat) (f : GwEntry → GwEntry) : (s.setGw n m f).nextId = s.nextId := rfl
@[simp] theorem State.setGw_free (s : State) (n m : Nat) (f : GwEntry → GwEntry) : (s.setGw n m f).free = s.free := rfl
@[simp] theorem State.setGw_cur (s : State) (n m : Nat) (f : GwEntry → GwEntry) : (s.setGw n m f).cur = s.cur := rfl
@[simp] theorem State.setGw_turns (s : State) (n m : Nat) (f : GwEntry → GwEntry) : (s.setGw n m f).turns = s.turns := rfl
@[simp] theorem State.setGw_agenda (s : State) (n m : Nat) (f : GwEntry → GwEntry) : (s.setGw n m f).agenda = s.agenda := rfl

@[simp] theorem State.setComm_mem (s : State) (n m : Nat) (f : Comm → Comm) : (s.setComm n m f).mem = s.mem := rfl
@[simp] theorem State.setComm_scrubMarks (s : State) (n m : Nat) (f : Comm → Comm) : (s.setComm n m f).scrubMarks = s.scrubMarks := rfl
@[simp] theorem State.setComm_eccBad (s : State) (n m : Nat) (f : Comm → Comm) : (s.setComm n m f).eccBad = s.eccBad := rfl
@[simp] theorem State.setComm_fibres (s : State) (n m : Nat) (f : Comm → Comm) : (s.setComm n m f).fibres = s.fibres := rfl
@[simp] theorem State.setComm_crews (s : State) (n m : Nat) (f : Comm → Comm) : (s.setComm n m f).crews = s.crews := rfl
@[simp] theorem State.setComm_grids (s : State) (n m : Nat) (f : Comm → Comm) : (s.setComm n m f).grids = s.grids := rfl
@[simp] theorem State.setComm_cores (s : State) (n m : Nat) (f : Comm → Comm) : (s.setComm n m f).cores = s.cores := rfl
@[simp] theorem State.setComm_ctxs (s : State) (n m : Nat) (f : Comm → Comm) : (s.setComm n m f).ctxs = s.ctxs := rfl
@[simp] theorem State.setComm_fns (s : State) (n m : Nat) (f : Comm → Comm) : (s.setComm n m f).fns = s.fns := rfl
@[simp] theorem State.setComm_queues (s : State) (n m : Nat) (f : Comm → Comm) : (s.setComm n m f).queues = s.queues := rfl
@[simp] theorem State.setComm_packets (s : State) (n m : Nat) (f : Comm → Comm) : (s.setComm n m f).packets = s.packets := rfl
@[simp] theorem State.setComm_accesses (s : State) (n m : Nat) (f : Comm → Comm) : (s.setComm n m f).accesses = s.accesses := rfl
@[simp] theorem State.setComm_counts (s : State) (n m : Nat) (f : Comm → Comm) : (s.setComm n m f).counts = s.counts := rfl
@[simp] theorem State.setComm_stamps (s : State) (n m : Nat) (f : Comm → Comm) : (s.setComm n m f).stamps = s.stamps := rfl
@[simp] theorem State.setComm_owed (s : State) (n m : Nat) (f : Comm → Comm) : (s.setComm n m f).owed = s.owed := rfl
@[simp] theorem State.setComm_notifs (s : State) (n m : Nat) (f : Comm → Comm) : (s.setComm n m f).notifs = s.notifs := rfl
@[simp] theorem State.setComm_clocks (s : State) (n m : Nat) (f : Comm → Comm) : (s.setComm n m f).clocks = s.clocks := rfl
@[simp] theorem State.setComm_wakes (s : State) (n m : Nat) (f : Comm → Comm) : (s.setComm n m f).wakes = s.wakes := rfl
@[simp] theorem State.setComm_registrations (s : State) (n m : Nat) (f : Comm → Comm) : (s.setComm n m f).registrations = s.registrations := rfl
@[simp] theorem State.setComm_moves (s : State) (n m : Nat) (f : Comm → Comm) : (s.setComm n m f).moves = s.moves := rfl
@[simp] theorem State.setComm_tlb (s : State) (n m : Nat) (f : Comm → Comm) : (s.setComm n m f).tlb = s.tlb := rfl
@[simp] theorem State.setComm_walks (s : State) (n m : Nat) (f : Comm → Comm) : (s.setComm n m f).walks = s.walks := rfl
@[simp] theorem State.setComm_migrations (s : State) (n m : Nat) (f : Comm → Comm) : (s.setComm n m f).migrations = s.migrations := rfl
@[simp] theorem State.setComm_hostLines (s : State) (n m : Nat) (f : Comm → Comm) : (s.setComm n m f).hostLines = s.hostLines := rfl
@[simp] theorem State.setComm_resReqs (s : State) (n m : Nat) (f : Comm → Comm) : (s.setComm n m f).resReqs = s.resReqs := rfl
@[simp] theorem State.setComm_channels (s : State) (n m : Nat) (f : Comm → Comm) : (s.setComm n m f).channels = s.channels := rfl
@[simp] theorem State.setComm_leases (s : State) (n m : Nat) (f : Comm → Comm) : (s.setComm n m f).leases = s.leases := rfl
@[simp] theorem State.setComm_graphs (s : State) (n m : Nat) (f : Comm → Comm) : (s.setComm n m f).graphs = s.graphs := rfl
@[simp] theorem State.setComm_colls (s : State) (n m : Nat) (f : Comm → Comm) : (s.setComm n m f).colls = s.colls := rfl
@[simp] theorem State.setComm_collNet (s : State) (n m : Nat) (f : Comm → Comm) : (s.setComm n m f).collNet = s.collNet := rfl
@[simp] theorem State.setComm_switches (s : State) (n m : Nat) (f : Comm → Comm) : (s.setComm n m f).switches = s.switches := rfl
@[simp] theorem State.setComm_counters (s : State) (n m : Nat) (f : Comm → Comm) : (s.setComm n m f).counters = s.counters := rfl
@[simp] theorem State.setComm_sends (s : State) (n m : Nat) (f : Comm → Comm) : (s.setComm n m f).sends = s.sends := rfl
@[simp] theorem State.setComm_green (s : State) (n m : Nat) (f : Comm → Comm) : (s.setComm n m f).green = s.green := rfl
@[simp] theorem State.setComm_gwRetry (s : State) (n m : Nat) (f : Comm → Comm) : (s.setComm n m f).gwRetry = s.gwRetry := rfl
@[simp] theorem State.setComm_gwQueries (s : State) (n m : Nat) (f : Comm → Comm) : (s.setComm n m f).gwQueries = s.gwQueries := rfl
@[simp] theorem State.setComm_gwNet (s : State) (n m : Nat) (f : Comm → Comm) : (s.setComm n m f).gwNet = s.gwNet := rfl
@[simp] theorem State.setComm_gwRuns (s : State) (n m : Nat) (f : Comm → Comm) : (s.setComm n m f).gwRuns = s.gwRuns := rfl
@[simp] theorem State.setComm_regions (s : State) (n m : Nat) (f : Comm → Comm) : (s.setComm n m f).regions = s.regions := rfl
@[simp] theorem State.setComm_stackSts (s : State) (n m : Nat) (f : Comm → Comm) : (s.setComm n m f).stackSts = s.stackSts := rfl
@[simp] theorem State.setComm_throttled (s : State) (n m : Nat) (f : Comm → Comm) : (s.setComm n m f).throttled = s.throttled := rfl
@[simp] theorem State.setComm_rowActs (s : State) (n m : Nat) (f : Comm → Comm) : (s.setComm n m f).rowActs = s.rowActs := rfl
@[simp] theorem State.setComm_sideBuf (s : State) (n m : Nat) (f : Comm → Comm) : (s.setComm n m f).sideBuf = s.sideBuf := rfl
@[simp] theorem State.setComm_ports (s : State) (n m : Nat) (f : Comm → Comm) : (s.setComm n m f).ports = s.ports := rfl
@[simp] theorem State.setComm_flows (s : State) (n m : Nat) (f : Comm → Comm) : (s.setComm n m f).flows = s.flows := rfl
@[simp] theorem State.setComm_reorder (s : State) (n m : Nat) (f : Comm → Comm) : (s.setComm n m f).reorder = s.reorder := rfl
@[simp] theorem State.setComm_remote (s : State) (n m : Nat) (f : Comm → Comm) : (s.setComm n m f).remote = s.remote := rfl
@[simp] theorem State.setComm_served (s : State) (n m : Nat) (f : Comm → Comm) : (s.setComm n m f).served = s.served := rfl
@[simp] theorem State.setComm_remoteWaiters (s : State) (n m : Nat) (f : Comm → Comm) : (s.setComm n m f).remoteWaiters = s.remoteWaiters := rfl
@[simp] theorem State.setComm_drowsy (s : State) (n m : Nat) (f : Comm → Comm) : (s.setComm n m f).drowsy = s.drowsy := rfl
@[simp] theorem State.setComm_time (s : State) (n m : Nat) (f : Comm → Comm) : (s.setComm n m f).time = s.time := rfl
@[simp] theorem State.setComm_seqs (s : State) (n m : Nat) (f : Comm → Comm) : (s.setComm n m f).seqs = s.seqs := rfl
@[simp] theorem State.setComm_flue (s : State) (n m : Nat) (f : Comm → Comm) : (s.setComm n m f).flue = s.flue := rfl
@[simp] theorem State.setComm_rings (s : State) (n m : Nat) (f : Comm → Comm) : (s.setComm n m f).rings = s.rings := rfl
@[simp] theorem State.setComm_waits (s : State) (n m : Nat) (f : Comm → Comm) : (s.setComm n m f).waits = s.waits := rfl
@[simp] theorem State.setComm_lostWaits (s : State) (n m : Nat) (f : Comm → Comm) : (s.setComm n m f).lostWaits = s.lostWaits := rfl
@[simp] theorem State.setComm_shared (s : State) (n m : Nat) (f : Comm → Comm) : (s.setComm n m f).shared = s.shared := rfl
@[simp] theorem State.setComm_softErrs (s : State) (n m : Nat) (f : Comm → Comm) : (s.setComm n m f).softErrs = s.softErrs := rfl
@[simp] theorem State.setComm_lateFaults (s : State) (n m : Nat) (f : Comm → Comm) : (s.setComm n m f).lateFaults = s.lateFaults := rfl
@[simp] theorem State.setComm_samples (s : State) (n m : Nat) (f : Comm → Comm) : (s.setComm n m f).samples = s.samples := rfl
@[simp] theorem State.setComm_dev (s : State) (n m : Nat) (f : Comm → Comm) : (s.setComm n m f).dev = s.dev := rfl
@[simp] theorem State.setComm_outbox (s : State) (n m : Nat) (f : Comm → Comm) : (s.setComm n m f).outbox = s.outbox := rfl
@[simp] theorem State.setComm_nextId (s : State) (n m : Nat) (f : Comm → Comm) : (s.setComm n m f).nextId = s.nextId := rfl
@[simp] theorem State.setComm_free (s : State) (n m : Nat) (f : Comm → Comm) : (s.setComm n m f).free = s.free := rfl
@[simp] theorem State.setComm_cur (s : State) (n m : Nat) (f : Comm → Comm) : (s.setComm n m f).cur = s.cur := rfl
@[simp] theorem State.setComm_turns (s : State) (n m : Nat) (f : Comm → Comm) : (s.setComm n m f).turns = s.turns := rfl
@[simp] theorem State.setComm_agenda (s : State) (n m : Nat) (f : Comm → Comm) : (s.setComm n m f).agenda = s.agenda := rfl

@[simp] theorem State.setPart_mem (s : State) (n m : Nat) (f : CollPart → CollPart) : (s.setPart n m f).mem = s.mem := rfl
@[simp] theorem State.setPart_scrubMarks (s : State) (n m : Nat) (f : CollPart → CollPart) : (s.setPart n m f).scrubMarks = s.scrubMarks := rfl
@[simp] theorem State.setPart_eccBad (s : State) (n m : Nat) (f : CollPart → CollPart) : (s.setPart n m f).eccBad = s.eccBad := rfl
@[simp] theorem State.setPart_fibres (s : State) (n m : Nat) (f : CollPart → CollPart) : (s.setPart n m f).fibres = s.fibres := rfl
@[simp] theorem State.setPart_crews (s : State) (n m : Nat) (f : CollPart → CollPart) : (s.setPart n m f).crews = s.crews := rfl
@[simp] theorem State.setPart_grids (s : State) (n m : Nat) (f : CollPart → CollPart) : (s.setPart n m f).grids = s.grids := rfl
@[simp] theorem State.setPart_cores (s : State) (n m : Nat) (f : CollPart → CollPart) : (s.setPart n m f).cores = s.cores := rfl
@[simp] theorem State.setPart_ctxs (s : State) (n m : Nat) (f : CollPart → CollPart) : (s.setPart n m f).ctxs = s.ctxs := rfl
@[simp] theorem State.setPart_fns (s : State) (n m : Nat) (f : CollPart → CollPart) : (s.setPart n m f).fns = s.fns := rfl
@[simp] theorem State.setPart_queues (s : State) (n m : Nat) (f : CollPart → CollPart) : (s.setPart n m f).queues = s.queues := rfl
@[simp] theorem State.setPart_packets (s : State) (n m : Nat) (f : CollPart → CollPart) : (s.setPart n m f).packets = s.packets := rfl
@[simp] theorem State.setPart_accesses (s : State) (n m : Nat) (f : CollPart → CollPart) : (s.setPart n m f).accesses = s.accesses := rfl
@[simp] theorem State.setPart_counts (s : State) (n m : Nat) (f : CollPart → CollPart) : (s.setPart n m f).counts = s.counts := rfl
@[simp] theorem State.setPart_stamps (s : State) (n m : Nat) (f : CollPart → CollPart) : (s.setPart n m f).stamps = s.stamps := rfl
@[simp] theorem State.setPart_owed (s : State) (n m : Nat) (f : CollPart → CollPart) : (s.setPart n m f).owed = s.owed := rfl
@[simp] theorem State.setPart_notifs (s : State) (n m : Nat) (f : CollPart → CollPart) : (s.setPart n m f).notifs = s.notifs := rfl
@[simp] theorem State.setPart_clocks (s : State) (n m : Nat) (f : CollPart → CollPart) : (s.setPart n m f).clocks = s.clocks := rfl
@[simp] theorem State.setPart_wakes (s : State) (n m : Nat) (f : CollPart → CollPart) : (s.setPart n m f).wakes = s.wakes := rfl
@[simp] theorem State.setPart_registrations (s : State) (n m : Nat) (f : CollPart → CollPart) : (s.setPart n m f).registrations = s.registrations := rfl
@[simp] theorem State.setPart_moves (s : State) (n m : Nat) (f : CollPart → CollPart) : (s.setPart n m f).moves = s.moves := rfl
@[simp] theorem State.setPart_tlb (s : State) (n m : Nat) (f : CollPart → CollPart) : (s.setPart n m f).tlb = s.tlb := rfl
@[simp] theorem State.setPart_walks (s : State) (n m : Nat) (f : CollPart → CollPart) : (s.setPart n m f).walks = s.walks := rfl
@[simp] theorem State.setPart_migrations (s : State) (n m : Nat) (f : CollPart → CollPart) : (s.setPart n m f).migrations = s.migrations := rfl
@[simp] theorem State.setPart_hostLines (s : State) (n m : Nat) (f : CollPart → CollPart) : (s.setPart n m f).hostLines = s.hostLines := rfl
@[simp] theorem State.setPart_resReqs (s : State) (n m : Nat) (f : CollPart → CollPart) : (s.setPart n m f).resReqs = s.resReqs := rfl
@[simp] theorem State.setPart_channels (s : State) (n m : Nat) (f : CollPart → CollPart) : (s.setPart n m f).channels = s.channels := rfl
@[simp] theorem State.setPart_leases (s : State) (n m : Nat) (f : CollPart → CollPart) : (s.setPart n m f).leases = s.leases := rfl
@[simp] theorem State.setPart_graphs (s : State) (n m : Nat) (f : CollPart → CollPart) : (s.setPart n m f).graphs = s.graphs := rfl
@[simp] theorem State.setPart_comms (s : State) (n m : Nat) (f : CollPart → CollPart) : (s.setPart n m f).comms = s.comms := rfl
@[simp] theorem State.setPart_collNet (s : State) (n m : Nat) (f : CollPart → CollPart) : (s.setPart n m f).collNet = s.collNet := rfl
@[simp] theorem State.setPart_switches (s : State) (n m : Nat) (f : CollPart → CollPart) : (s.setPart n m f).switches = s.switches := rfl
@[simp] theorem State.setPart_counters (s : State) (n m : Nat) (f : CollPart → CollPart) : (s.setPart n m f).counters = s.counters := rfl
@[simp] theorem State.setPart_sends (s : State) (n m : Nat) (f : CollPart → CollPart) : (s.setPart n m f).sends = s.sends := rfl
@[simp] theorem State.setPart_green (s : State) (n m : Nat) (f : CollPart → CollPart) : (s.setPart n m f).green = s.green := rfl
@[simp] theorem State.setPart_gwRetry (s : State) (n m : Nat) (f : CollPart → CollPart) : (s.setPart n m f).gwRetry = s.gwRetry := rfl
@[simp] theorem State.setPart_gwQueries (s : State) (n m : Nat) (f : CollPart → CollPart) : (s.setPart n m f).gwQueries = s.gwQueries := rfl
@[simp] theorem State.setPart_gwNet (s : State) (n m : Nat) (f : CollPart → CollPart) : (s.setPart n m f).gwNet = s.gwNet := rfl
@[simp] theorem State.setPart_gwRuns (s : State) (n m : Nat) (f : CollPart → CollPart) : (s.setPart n m f).gwRuns = s.gwRuns := rfl
@[simp] theorem State.setPart_regions (s : State) (n m : Nat) (f : CollPart → CollPart) : (s.setPart n m f).regions = s.regions := rfl
@[simp] theorem State.setPart_stackSts (s : State) (n m : Nat) (f : CollPart → CollPart) : (s.setPart n m f).stackSts = s.stackSts := rfl
@[simp] theorem State.setPart_throttled (s : State) (n m : Nat) (f : CollPart → CollPart) : (s.setPart n m f).throttled = s.throttled := rfl
@[simp] theorem State.setPart_rowActs (s : State) (n m : Nat) (f : CollPart → CollPart) : (s.setPart n m f).rowActs = s.rowActs := rfl
@[simp] theorem State.setPart_sideBuf (s : State) (n m : Nat) (f : CollPart → CollPart) : (s.setPart n m f).sideBuf = s.sideBuf := rfl
@[simp] theorem State.setPart_ports (s : State) (n m : Nat) (f : CollPart → CollPart) : (s.setPart n m f).ports = s.ports := rfl
@[simp] theorem State.setPart_flows (s : State) (n m : Nat) (f : CollPart → CollPart) : (s.setPart n m f).flows = s.flows := rfl
@[simp] theorem State.setPart_reorder (s : State) (n m : Nat) (f : CollPart → CollPart) : (s.setPart n m f).reorder = s.reorder := rfl
@[simp] theorem State.setPart_remote (s : State) (n m : Nat) (f : CollPart → CollPart) : (s.setPart n m f).remote = s.remote := rfl
@[simp] theorem State.setPart_served (s : State) (n m : Nat) (f : CollPart → CollPart) : (s.setPart n m f).served = s.served := rfl
@[simp] theorem State.setPart_remoteWaiters (s : State) (n m : Nat) (f : CollPart → CollPart) : (s.setPart n m f).remoteWaiters = s.remoteWaiters := rfl
@[simp] theorem State.setPart_drowsy (s : State) (n m : Nat) (f : CollPart → CollPart) : (s.setPart n m f).drowsy = s.drowsy := rfl
@[simp] theorem State.setPart_time (s : State) (n m : Nat) (f : CollPart → CollPart) : (s.setPart n m f).time = s.time := rfl
@[simp] theorem State.setPart_seqs (s : State) (n m : Nat) (f : CollPart → CollPart) : (s.setPart n m f).seqs = s.seqs := rfl
@[simp] theorem State.setPart_flue (s : State) (n m : Nat) (f : CollPart → CollPart) : (s.setPart n m f).flue = s.flue := rfl
@[simp] theorem State.setPart_rings (s : State) (n m : Nat) (f : CollPart → CollPart) : (s.setPart n m f).rings = s.rings := rfl
@[simp] theorem State.setPart_waits (s : State) (n m : Nat) (f : CollPart → CollPart) : (s.setPart n m f).waits = s.waits := rfl
@[simp] theorem State.setPart_lostWaits (s : State) (n m : Nat) (f : CollPart → CollPart) : (s.setPart n m f).lostWaits = s.lostWaits := rfl
@[simp] theorem State.setPart_shared (s : State) (n m : Nat) (f : CollPart → CollPart) : (s.setPart n m f).shared = s.shared := rfl
@[simp] theorem State.setPart_softErrs (s : State) (n m : Nat) (f : CollPart → CollPart) : (s.setPart n m f).softErrs = s.softErrs := rfl
@[simp] theorem State.setPart_lateFaults (s : State) (n m : Nat) (f : CollPart → CollPart) : (s.setPart n m f).lateFaults = s.lateFaults := rfl
@[simp] theorem State.setPart_samples (s : State) (n m : Nat) (f : CollPart → CollPart) : (s.setPart n m f).samples = s.samples := rfl
@[simp] theorem State.setPart_dev (s : State) (n m : Nat) (f : CollPart → CollPart) : (s.setPart n m f).dev = s.dev := rfl
@[simp] theorem State.setPart_outbox (s : State) (n m : Nat) (f : CollPart → CollPart) : (s.setPart n m f).outbox = s.outbox := rfl
@[simp] theorem State.setPart_nextId (s : State) (n m : Nat) (f : CollPart → CollPart) : (s.setPart n m f).nextId = s.nextId := rfl
@[simp] theorem State.setPart_free (s : State) (n m : Nat) (f : CollPart → CollPart) : (s.setPart n m f).free = s.free := rfl
@[simp] theorem State.setPart_cur (s : State) (n m : Nat) (f : CollPart → CollPart) : (s.setPart n m f).cur = s.cur := rfl
@[simp] theorem State.setPart_turns (s : State) (n m : Nat) (f : CollPart → CollPart) : (s.setPart n m f).turns = s.turns := rfl
@[simp] theorem State.setPart_agenda (s : State) (n m : Nat) (f : CollPart → CollPart) : (s.setPart n m f).agenda = s.agenda := rfl

@[simp] theorem State.dropClock_mem (s : State) (k : ClockKey) : (s.dropClock k).mem = s.mem := rfl
@[simp] theorem State.dropClock_scrubMarks (s : State) (k : ClockKey) : (s.dropClock k).scrubMarks = s.scrubMarks := rfl
@[simp] theorem State.dropClock_eccBad (s : State) (k : ClockKey) : (s.dropClock k).eccBad = s.eccBad := rfl
@[simp] theorem State.dropClock_fibres (s : State) (k : ClockKey) : (s.dropClock k).fibres = s.fibres := rfl
@[simp] theorem State.dropClock_crews (s : State) (k : ClockKey) : (s.dropClock k).crews = s.crews := rfl
@[simp] theorem State.dropClock_grids (s : State) (k : ClockKey) : (s.dropClock k).grids = s.grids := rfl
@[simp] theorem State.dropClock_cores (s : State) (k : ClockKey) : (s.dropClock k).cores = s.cores := rfl
@[simp] theorem State.dropClock_ctxs (s : State) (k : ClockKey) : (s.dropClock k).ctxs = s.ctxs := rfl
@[simp] theorem State.dropClock_fns (s : State) (k : ClockKey) : (s.dropClock k).fns = s.fns := rfl
@[simp] theorem State.dropClock_queues (s : State) (k : ClockKey) : (s.dropClock k).queues = s.queues := rfl
@[simp] theorem State.dropClock_packets (s : State) (k : ClockKey) : (s.dropClock k).packets = s.packets := rfl
@[simp] theorem State.dropClock_accesses (s : State) (k : ClockKey) : (s.dropClock k).accesses = s.accesses := rfl
@[simp] theorem State.dropClock_counts (s : State) (k : ClockKey) : (s.dropClock k).counts = s.counts := rfl
@[simp] theorem State.dropClock_stamps (s : State) (k : ClockKey) : (s.dropClock k).stamps = s.stamps := rfl
@[simp] theorem State.dropClock_owed (s : State) (k : ClockKey) : (s.dropClock k).owed = s.owed := rfl
@[simp] theorem State.dropClock_notifs (s : State) (k : ClockKey) : (s.dropClock k).notifs = s.notifs := rfl
@[simp] theorem State.dropClock_wakes (s : State) (k : ClockKey) : (s.dropClock k).wakes = s.wakes := rfl
@[simp] theorem State.dropClock_registrations (s : State) (k : ClockKey) : (s.dropClock k).registrations = s.registrations := rfl
@[simp] theorem State.dropClock_moves (s : State) (k : ClockKey) : (s.dropClock k).moves = s.moves := rfl
@[simp] theorem State.dropClock_tlb (s : State) (k : ClockKey) : (s.dropClock k).tlb = s.tlb := rfl
@[simp] theorem State.dropClock_walks (s : State) (k : ClockKey) : (s.dropClock k).walks = s.walks := rfl
@[simp] theorem State.dropClock_migrations (s : State) (k : ClockKey) : (s.dropClock k).migrations = s.migrations := rfl
@[simp] theorem State.dropClock_hostLines (s : State) (k : ClockKey) : (s.dropClock k).hostLines = s.hostLines := rfl
@[simp] theorem State.dropClock_resReqs (s : State) (k : ClockKey) : (s.dropClock k).resReqs = s.resReqs := rfl
@[simp] theorem State.dropClock_channels (s : State) (k : ClockKey) : (s.dropClock k).channels = s.channels := rfl
@[simp] theorem State.dropClock_leases (s : State) (k : ClockKey) : (s.dropClock k).leases = s.leases := rfl
@[simp] theorem State.dropClock_graphs (s : State) (k : ClockKey) : (s.dropClock k).graphs = s.graphs := rfl
@[simp] theorem State.dropClock_comms (s : State) (k : ClockKey) : (s.dropClock k).comms = s.comms := rfl
@[simp] theorem State.dropClock_colls (s : State) (k : ClockKey) : (s.dropClock k).colls = s.colls := rfl
@[simp] theorem State.dropClock_collNet (s : State) (k : ClockKey) : (s.dropClock k).collNet = s.collNet := rfl
@[simp] theorem State.dropClock_switches (s : State) (k : ClockKey) : (s.dropClock k).switches = s.switches := rfl
@[simp] theorem State.dropClock_counters (s : State) (k : ClockKey) : (s.dropClock k).counters = s.counters := rfl
@[simp] theorem State.dropClock_sends (s : State) (k : ClockKey) : (s.dropClock k).sends = s.sends := rfl
@[simp] theorem State.dropClock_green (s : State) (k : ClockKey) : (s.dropClock k).green = s.green := rfl
@[simp] theorem State.dropClock_gwRetry (s : State) (k : ClockKey) : (s.dropClock k).gwRetry = s.gwRetry := rfl
@[simp] theorem State.dropClock_gwQueries (s : State) (k : ClockKey) : (s.dropClock k).gwQueries = s.gwQueries := rfl
@[simp] theorem State.dropClock_gwNet (s : State) (k : ClockKey) : (s.dropClock k).gwNet = s.gwNet := rfl
@[simp] theorem State.dropClock_gwRuns (s : State) (k : ClockKey) : (s.dropClock k).gwRuns = s.gwRuns := rfl
@[simp] theorem State.dropClock_regions (s : State) (k : ClockKey) : (s.dropClock k).regions = s.regions := rfl
@[simp] theorem State.dropClock_stackSts (s : State) (k : ClockKey) : (s.dropClock k).stackSts = s.stackSts := rfl
@[simp] theorem State.dropClock_throttled (s : State) (k : ClockKey) : (s.dropClock k).throttled = s.throttled := rfl
@[simp] theorem State.dropClock_rowActs (s : State) (k : ClockKey) : (s.dropClock k).rowActs = s.rowActs := rfl
@[simp] theorem State.dropClock_sideBuf (s : State) (k : ClockKey) : (s.dropClock k).sideBuf = s.sideBuf := rfl
@[simp] theorem State.dropClock_ports (s : State) (k : ClockKey) : (s.dropClock k).ports = s.ports := rfl
@[simp] theorem State.dropClock_flows (s : State) (k : ClockKey) : (s.dropClock k).flows = s.flows := rfl
@[simp] theorem State.dropClock_reorder (s : State) (k : ClockKey) : (s.dropClock k).reorder = s.reorder := rfl
@[simp] theorem State.dropClock_remote (s : State) (k : ClockKey) : (s.dropClock k).remote = s.remote := rfl
@[simp] theorem State.dropClock_served (s : State) (k : ClockKey) : (s.dropClock k).served = s.served := rfl
@[simp] theorem State.dropClock_remoteWaiters (s : State) (k : ClockKey) : (s.dropClock k).remoteWaiters = s.remoteWaiters := rfl
@[simp] theorem State.dropClock_drowsy (s : State) (k : ClockKey) : (s.dropClock k).drowsy = s.drowsy := rfl
@[simp] theorem State.dropClock_time (s : State) (k : ClockKey) : (s.dropClock k).time = s.time := rfl
@[simp] theorem State.dropClock_seqs (s : State) (k : ClockKey) : (s.dropClock k).seqs = s.seqs := rfl
@[simp] theorem State.dropClock_flue (s : State) (k : ClockKey) : (s.dropClock k).flue = s.flue := rfl
@[simp] theorem State.dropClock_rings (s : State) (k : ClockKey) : (s.dropClock k).rings = s.rings := rfl
@[simp] theorem State.dropClock_waits (s : State) (k : ClockKey) : (s.dropClock k).waits = s.waits := rfl
@[simp] theorem State.dropClock_lostWaits (s : State) (k : ClockKey) : (s.dropClock k).lostWaits = s.lostWaits := rfl
@[simp] theorem State.dropClock_shared (s : State) (k : ClockKey) : (s.dropClock k).shared = s.shared := rfl
@[simp] theorem State.dropClock_softErrs (s : State) (k : ClockKey) : (s.dropClock k).softErrs = s.softErrs := rfl
@[simp] theorem State.dropClock_lateFaults (s : State) (k : ClockKey) : (s.dropClock k).lateFaults = s.lateFaults := rfl
@[simp] theorem State.dropClock_samples (s : State) (k : ClockKey) : (s.dropClock k).samples = s.samples := rfl
@[simp] theorem State.dropClock_dev (s : State) (k : ClockKey) : (s.dropClock k).dev = s.dev := rfl
@[simp] theorem State.dropClock_outbox (s : State) (k : ClockKey) : (s.dropClock k).outbox = s.outbox := rfl
@[simp] theorem State.dropClock_nextId (s : State) (k : ClockKey) : (s.dropClock k).nextId = s.nextId := rfl
@[simp] theorem State.dropClock_free (s : State) (k : ClockKey) : (s.dropClock k).free = s.free := rfl
@[simp] theorem State.dropClock_cur (s : State) (k : ClockKey) : (s.dropClock k).cur = s.cur := rfl
@[simp] theorem State.dropClock_turns (s : State) (k : ClockKey) : (s.dropClock k).turns = s.turns := rfl
@[simp] theorem State.dropClock_agenda (s : State) (k : ClockKey) : (s.dropClock k).agenda = s.agenda := rfl

@[simp] theorem State.addClock_mem (s : State) (k : ClockKey) (x : Stamp) : (s.addClock k x).mem = s.mem := by unfold State.addClock; split <;> rfl
@[simp] theorem State.addClock_scrubMarks (s : State) (k : ClockKey) (x : Stamp) : (s.addClock k x).scrubMarks = s.scrubMarks := by unfold State.addClock; split <;> rfl
@[simp] theorem State.addClock_eccBad (s : State) (k : ClockKey) (x : Stamp) : (s.addClock k x).eccBad = s.eccBad := by unfold State.addClock; split <;> rfl
@[simp] theorem State.addClock_fibres (s : State) (k : ClockKey) (x : Stamp) : (s.addClock k x).fibres = s.fibres := by unfold State.addClock; split <;> rfl
@[simp] theorem State.addClock_crews (s : State) (k : ClockKey) (x : Stamp) : (s.addClock k x).crews = s.crews := by unfold State.addClock; split <;> rfl
@[simp] theorem State.addClock_grids (s : State) (k : ClockKey) (x : Stamp) : (s.addClock k x).grids = s.grids := by unfold State.addClock; split <;> rfl
@[simp] theorem State.addClock_cores (s : State) (k : ClockKey) (x : Stamp) : (s.addClock k x).cores = s.cores := by unfold State.addClock; split <;> rfl
@[simp] theorem State.addClock_ctxs (s : State) (k : ClockKey) (x : Stamp) : (s.addClock k x).ctxs = s.ctxs := by unfold State.addClock; split <;> rfl
@[simp] theorem State.addClock_fns (s : State) (k : ClockKey) (x : Stamp) : (s.addClock k x).fns = s.fns := by unfold State.addClock; split <;> rfl
@[simp] theorem State.addClock_queues (s : State) (k : ClockKey) (x : Stamp) : (s.addClock k x).queues = s.queues := by unfold State.addClock; split <;> rfl
@[simp] theorem State.addClock_packets (s : State) (k : ClockKey) (x : Stamp) : (s.addClock k x).packets = s.packets := by unfold State.addClock; split <;> rfl
@[simp] theorem State.addClock_accesses (s : State) (k : ClockKey) (x : Stamp) : (s.addClock k x).accesses = s.accesses := by unfold State.addClock; split <;> rfl
@[simp] theorem State.addClock_counts (s : State) (k : ClockKey) (x : Stamp) : (s.addClock k x).counts = s.counts := by unfold State.addClock; split <;> rfl
@[simp] theorem State.addClock_stamps (s : State) (k : ClockKey) (x : Stamp) : (s.addClock k x).stamps = s.stamps := by unfold State.addClock; split <;> rfl
@[simp] theorem State.addClock_owed (s : State) (k : ClockKey) (x : Stamp) : (s.addClock k x).owed = s.owed := by unfold State.addClock; split <;> rfl
@[simp] theorem State.addClock_notifs (s : State) (k : ClockKey) (x : Stamp) : (s.addClock k x).notifs = s.notifs := by unfold State.addClock; split <;> rfl
@[simp] theorem State.addClock_wakes (s : State) (k : ClockKey) (x : Stamp) : (s.addClock k x).wakes = s.wakes := by unfold State.addClock; split <;> rfl
@[simp] theorem State.addClock_registrations (s : State) (k : ClockKey) (x : Stamp) : (s.addClock k x).registrations = s.registrations := by unfold State.addClock; split <;> rfl
@[simp] theorem State.addClock_moves (s : State) (k : ClockKey) (x : Stamp) : (s.addClock k x).moves = s.moves := by unfold State.addClock; split <;> rfl
@[simp] theorem State.addClock_tlb (s : State) (k : ClockKey) (x : Stamp) : (s.addClock k x).tlb = s.tlb := by unfold State.addClock; split <;> rfl
@[simp] theorem State.addClock_walks (s : State) (k : ClockKey) (x : Stamp) : (s.addClock k x).walks = s.walks := by unfold State.addClock; split <;> rfl
@[simp] theorem State.addClock_migrations (s : State) (k : ClockKey) (x : Stamp) : (s.addClock k x).migrations = s.migrations := by unfold State.addClock; split <;> rfl
@[simp] theorem State.addClock_hostLines (s : State) (k : ClockKey) (x : Stamp) : (s.addClock k x).hostLines = s.hostLines := by unfold State.addClock; split <;> rfl
@[simp] theorem State.addClock_resReqs (s : State) (k : ClockKey) (x : Stamp) : (s.addClock k x).resReqs = s.resReqs := by unfold State.addClock; split <;> rfl
@[simp] theorem State.addClock_channels (s : State) (k : ClockKey) (x : Stamp) : (s.addClock k x).channels = s.channels := by unfold State.addClock; split <;> rfl
@[simp] theorem State.addClock_leases (s : State) (k : ClockKey) (x : Stamp) : (s.addClock k x).leases = s.leases := by unfold State.addClock; split <;> rfl
@[simp] theorem State.addClock_graphs (s : State) (k : ClockKey) (x : Stamp) : (s.addClock k x).graphs = s.graphs := by unfold State.addClock; split <;> rfl
@[simp] theorem State.addClock_comms (s : State) (k : ClockKey) (x : Stamp) : (s.addClock k x).comms = s.comms := by unfold State.addClock; split <;> rfl
@[simp] theorem State.addClock_colls (s : State) (k : ClockKey) (x : Stamp) : (s.addClock k x).colls = s.colls := by unfold State.addClock; split <;> rfl
@[simp] theorem State.addClock_collNet (s : State) (k : ClockKey) (x : Stamp) : (s.addClock k x).collNet = s.collNet := by unfold State.addClock; split <;> rfl
@[simp] theorem State.addClock_switches (s : State) (k : ClockKey) (x : Stamp) : (s.addClock k x).switches = s.switches := by unfold State.addClock; split <;> rfl
@[simp] theorem State.addClock_counters (s : State) (k : ClockKey) (x : Stamp) : (s.addClock k x).counters = s.counters := by unfold State.addClock; split <;> rfl
@[simp] theorem State.addClock_sends (s : State) (k : ClockKey) (x : Stamp) : (s.addClock k x).sends = s.sends := by unfold State.addClock; split <;> rfl
@[simp] theorem State.addClock_green (s : State) (k : ClockKey) (x : Stamp) : (s.addClock k x).green = s.green := by unfold State.addClock; split <;> rfl
@[simp] theorem State.addClock_gwRetry (s : State) (k : ClockKey) (x : Stamp) : (s.addClock k x).gwRetry = s.gwRetry := by unfold State.addClock; split <;> rfl
@[simp] theorem State.addClock_gwQueries (s : State) (k : ClockKey) (x : Stamp) : (s.addClock k x).gwQueries = s.gwQueries := by unfold State.addClock; split <;> rfl
@[simp] theorem State.addClock_gwNet (s : State) (k : ClockKey) (x : Stamp) : (s.addClock k x).gwNet = s.gwNet := by unfold State.addClock; split <;> rfl
@[simp] theorem State.addClock_gwRuns (s : State) (k : ClockKey) (x : Stamp) : (s.addClock k x).gwRuns = s.gwRuns := by unfold State.addClock; split <;> rfl
@[simp] theorem State.addClock_regions (s : State) (k : ClockKey) (x : Stamp) : (s.addClock k x).regions = s.regions := by unfold State.addClock; split <;> rfl
@[simp] theorem State.addClock_stackSts (s : State) (k : ClockKey) (x : Stamp) : (s.addClock k x).stackSts = s.stackSts := by unfold State.addClock; split <;> rfl
@[simp] theorem State.addClock_throttled (s : State) (k : ClockKey) (x : Stamp) : (s.addClock k x).throttled = s.throttled := by unfold State.addClock; split <;> rfl
@[simp] theorem State.addClock_rowActs (s : State) (k : ClockKey) (x : Stamp) : (s.addClock k x).rowActs = s.rowActs := by unfold State.addClock; split <;> rfl
@[simp] theorem State.addClock_sideBuf (s : State) (k : ClockKey) (x : Stamp) : (s.addClock k x).sideBuf = s.sideBuf := by unfold State.addClock; split <;> rfl
@[simp] theorem State.addClock_ports (s : State) (k : ClockKey) (x : Stamp) : (s.addClock k x).ports = s.ports := by unfold State.addClock; split <;> rfl
@[simp] theorem State.addClock_flows (s : State) (k : ClockKey) (x : Stamp) : (s.addClock k x).flows = s.flows := by unfold State.addClock; split <;> rfl
@[simp] theorem State.addClock_reorder (s : State) (k : ClockKey) (x : Stamp) : (s.addClock k x).reorder = s.reorder := by unfold State.addClock; split <;> rfl
@[simp] theorem State.addClock_remote (s : State) (k : ClockKey) (x : Stamp) : (s.addClock k x).remote = s.remote := by unfold State.addClock; split <;> rfl
@[simp] theorem State.addClock_served (s : State) (k : ClockKey) (x : Stamp) : (s.addClock k x).served = s.served := by unfold State.addClock; split <;> rfl
@[simp] theorem State.addClock_remoteWaiters (s : State) (k : ClockKey) (x : Stamp) : (s.addClock k x).remoteWaiters = s.remoteWaiters := by unfold State.addClock; split <;> rfl
@[simp] theorem State.addClock_drowsy (s : State) (k : ClockKey) (x : Stamp) : (s.addClock k x).drowsy = s.drowsy := by unfold State.addClock; split <;> rfl
@[simp] theorem State.addClock_time (s : State) (k : ClockKey) (x : Stamp) : (s.addClock k x).time = s.time := by unfold State.addClock; split <;> rfl
@[simp] theorem State.addClock_seqs (s : State) (k : ClockKey) (x : Stamp) : (s.addClock k x).seqs = s.seqs := by unfold State.addClock; split <;> rfl
@[simp] theorem State.addClock_flue (s : State) (k : ClockKey) (x : Stamp) : (s.addClock k x).flue = s.flue := by unfold State.addClock; split <;> rfl
@[simp] theorem State.addClock_rings (s : State) (k : ClockKey) (x : Stamp) : (s.addClock k x).rings = s.rings := by unfold State.addClock; split <;> rfl
@[simp] theorem State.addClock_waits (s : State) (k : ClockKey) (x : Stamp) : (s.addClock k x).waits = s.waits := by unfold State.addClock; split <;> rfl
@[simp] theorem State.addClock_lostWaits (s : State) (k : ClockKey) (x : Stamp) : (s.addClock k x).lostWaits = s.lostWaits := by unfold State.addClock; split <;> rfl
@[simp] theorem State.addClock_shared (s : State) (k : ClockKey) (x : Stamp) : (s.addClock k x).shared = s.shared := by unfold State.addClock; split <;> rfl
@[simp] theorem State.addClock_softErrs (s : State) (k : ClockKey) (x : Stamp) : (s.addClock k x).softErrs = s.softErrs := by unfold State.addClock; split <;> rfl
@[simp] theorem State.addClock_lateFaults (s : State) (k : ClockKey) (x : Stamp) : (s.addClock k x).lateFaults = s.lateFaults := by unfold State.addClock; split <;> rfl
@[simp] theorem State.addClock_samples (s : State) (k : ClockKey) (x : Stamp) : (s.addClock k x).samples = s.samples := by unfold State.addClock; split <;> rfl
@[simp] theorem State.addClock_dev (s : State) (k : ClockKey) (x : Stamp) : (s.addClock k x).dev = s.dev := by unfold State.addClock; split <;> rfl
@[simp] theorem State.addClock_outbox (s : State) (k : ClockKey) (x : Stamp) : (s.addClock k x).outbox = s.outbox := by unfold State.addClock; split <;> rfl
@[simp] theorem State.addClock_nextId (s : State) (k : ClockKey) (x : Stamp) : (s.addClock k x).nextId = s.nextId := by unfold State.addClock; split <;> rfl
@[simp] theorem State.addClock_free (s : State) (k : ClockKey) (x : Stamp) : (s.addClock k x).free = s.free := by unfold State.addClock; split <;> rfl
@[simp] theorem State.addClock_cur (s : State) (k : ClockKey) (x : Stamp) : (s.addClock k x).cur = s.cur := by unfold State.addClock; split <;> rfl
@[simp] theorem State.addClock_turns (s : State) (k : ClockKey) (x : Stamp) : (s.addClock k x).turns = s.turns := by unfold State.addClock; split <;> rfl
@[simp] theorem State.addClock_agenda (s : State) (k : ClockKey) (x : Stamp) : (s.addClock k x).agenda = s.agenda := by unfold State.addClock; split <;> rfl

@[simp] theorem State.teach_mem (s : State) (id : Nat) (x : Stamp) : (s.teach id x).mem = s.mem := by unfold State.teach; split <;> rfl
@[simp] theorem State.teach_scrubMarks (s : State) (id : Nat) (x : Stamp) : (s.teach id x).scrubMarks = s.scrubMarks := by unfold State.teach; split <;> rfl
@[simp] theorem State.teach_eccBad (s : State) (id : Nat) (x : Stamp) : (s.teach id x).eccBad = s.eccBad := by unfold State.teach; split <;> rfl
@[simp] theorem State.teach_crews (s : State) (id : Nat) (x : Stamp) : (s.teach id x).crews = s.crews := by unfold State.teach; split <;> rfl
@[simp] theorem State.teach_grids (s : State) (id : Nat) (x : Stamp) : (s.teach id x).grids = s.grids := by unfold State.teach; split <;> rfl
@[simp] theorem State.teach_cores (s : State) (id : Nat) (x : Stamp) : (s.teach id x).cores = s.cores := by unfold State.teach; split <;> rfl
@[simp] theorem State.teach_ctxs (s : State) (id : Nat) (x : Stamp) : (s.teach id x).ctxs = s.ctxs := by unfold State.teach; split <;> rfl
@[simp] theorem State.teach_fns (s : State) (id : Nat) (x : Stamp) : (s.teach id x).fns = s.fns := by unfold State.teach; split <;> rfl
@[simp] theorem State.teach_queues (s : State) (id : Nat) (x : Stamp) : (s.teach id x).queues = s.queues := by unfold State.teach; split <;> rfl
@[simp] theorem State.teach_packets (s : State) (id : Nat) (x : Stamp) : (s.teach id x).packets = s.packets := by unfold State.teach; split <;> rfl
@[simp] theorem State.teach_accesses (s : State) (id : Nat) (x : Stamp) : (s.teach id x).accesses = s.accesses := by unfold State.teach; split <;> rfl
@[simp] theorem State.teach_counts (s : State) (id : Nat) (x : Stamp) : (s.teach id x).counts = s.counts := by unfold State.teach; split <;> rfl
@[simp] theorem State.teach_stamps (s : State) (id : Nat) (x : Stamp) : (s.teach id x).stamps = s.stamps := by unfold State.teach; split <;> rfl
@[simp] theorem State.teach_owed (s : State) (id : Nat) (x : Stamp) : (s.teach id x).owed = s.owed := by unfold State.teach; split <;> rfl
@[simp] theorem State.teach_notifs (s : State) (id : Nat) (x : Stamp) : (s.teach id x).notifs = s.notifs := by unfold State.teach; split <;> rfl
@[simp] theorem State.teach_clocks (s : State) (id : Nat) (x : Stamp) : (s.teach id x).clocks = s.clocks := by unfold State.teach; split <;> rfl
@[simp] theorem State.teach_wakes (s : State) (id : Nat) (x : Stamp) : (s.teach id x).wakes = s.wakes := by unfold State.teach; split <;> rfl
@[simp] theorem State.teach_registrations (s : State) (id : Nat) (x : Stamp) : (s.teach id x).registrations = s.registrations := by unfold State.teach; split <;> rfl
@[simp] theorem State.teach_moves (s : State) (id : Nat) (x : Stamp) : (s.teach id x).moves = s.moves := by unfold State.teach; split <;> rfl
@[simp] theorem State.teach_tlb (s : State) (id : Nat) (x : Stamp) : (s.teach id x).tlb = s.tlb := by unfold State.teach; split <;> rfl
@[simp] theorem State.teach_walks (s : State) (id : Nat) (x : Stamp) : (s.teach id x).walks = s.walks := by unfold State.teach; split <;> rfl
@[simp] theorem State.teach_migrations (s : State) (id : Nat) (x : Stamp) : (s.teach id x).migrations = s.migrations := by unfold State.teach; split <;> rfl
@[simp] theorem State.teach_hostLines (s : State) (id : Nat) (x : Stamp) : (s.teach id x).hostLines = s.hostLines := by unfold State.teach; split <;> rfl
@[simp] theorem State.teach_resReqs (s : State) (id : Nat) (x : Stamp) : (s.teach id x).resReqs = s.resReqs := by unfold State.teach; split <;> rfl
@[simp] theorem State.teach_channels (s : State) (id : Nat) (x : Stamp) : (s.teach id x).channels = s.channels := by unfold State.teach; split <;> rfl
@[simp] theorem State.teach_leases (s : State) (id : Nat) (x : Stamp) : (s.teach id x).leases = s.leases := by unfold State.teach; split <;> rfl
@[simp] theorem State.teach_graphs (s : State) (id : Nat) (x : Stamp) : (s.teach id x).graphs = s.graphs := by unfold State.teach; split <;> rfl
@[simp] theorem State.teach_comms (s : State) (id : Nat) (x : Stamp) : (s.teach id x).comms = s.comms := by unfold State.teach; split <;> rfl
@[simp] theorem State.teach_colls (s : State) (id : Nat) (x : Stamp) : (s.teach id x).colls = s.colls := by unfold State.teach; split <;> rfl
@[simp] theorem State.teach_collNet (s : State) (id : Nat) (x : Stamp) : (s.teach id x).collNet = s.collNet := by unfold State.teach; split <;> rfl
@[simp] theorem State.teach_switches (s : State) (id : Nat) (x : Stamp) : (s.teach id x).switches = s.switches := by unfold State.teach; split <;> rfl
@[simp] theorem State.teach_counters (s : State) (id : Nat) (x : Stamp) : (s.teach id x).counters = s.counters := by unfold State.teach; split <;> rfl
@[simp] theorem State.teach_sends (s : State) (id : Nat) (x : Stamp) : (s.teach id x).sends = s.sends := by unfold State.teach; split <;> rfl
@[simp] theorem State.teach_green (s : State) (id : Nat) (x : Stamp) : (s.teach id x).green = s.green := by unfold State.teach; split <;> rfl
@[simp] theorem State.teach_gwRetry (s : State) (id : Nat) (x : Stamp) : (s.teach id x).gwRetry = s.gwRetry := by unfold State.teach; split <;> rfl
@[simp] theorem State.teach_gwQueries (s : State) (id : Nat) (x : Stamp) : (s.teach id x).gwQueries = s.gwQueries := by unfold State.teach; split <;> rfl
@[simp] theorem State.teach_gwNet (s : State) (id : Nat) (x : Stamp) : (s.teach id x).gwNet = s.gwNet := by unfold State.teach; split <;> rfl
@[simp] theorem State.teach_gwRuns (s : State) (id : Nat) (x : Stamp) : (s.teach id x).gwRuns = s.gwRuns := by unfold State.teach; split <;> rfl
@[simp] theorem State.teach_regions (s : State) (id : Nat) (x : Stamp) : (s.teach id x).regions = s.regions := by unfold State.teach; split <;> rfl
@[simp] theorem State.teach_stackSts (s : State) (id : Nat) (x : Stamp) : (s.teach id x).stackSts = s.stackSts := by unfold State.teach; split <;> rfl
@[simp] theorem State.teach_throttled (s : State) (id : Nat) (x : Stamp) : (s.teach id x).throttled = s.throttled := by unfold State.teach; split <;> rfl
@[simp] theorem State.teach_rowActs (s : State) (id : Nat) (x : Stamp) : (s.teach id x).rowActs = s.rowActs := by unfold State.teach; split <;> rfl
@[simp] theorem State.teach_sideBuf (s : State) (id : Nat) (x : Stamp) : (s.teach id x).sideBuf = s.sideBuf := by unfold State.teach; split <;> rfl
@[simp] theorem State.teach_ports (s : State) (id : Nat) (x : Stamp) : (s.teach id x).ports = s.ports := by unfold State.teach; split <;> rfl
@[simp] theorem State.teach_flows (s : State) (id : Nat) (x : Stamp) : (s.teach id x).flows = s.flows := by unfold State.teach; split <;> rfl
@[simp] theorem State.teach_reorder (s : State) (id : Nat) (x : Stamp) : (s.teach id x).reorder = s.reorder := by unfold State.teach; split <;> rfl
@[simp] theorem State.teach_remote (s : State) (id : Nat) (x : Stamp) : (s.teach id x).remote = s.remote := by unfold State.teach; split <;> rfl
@[simp] theorem State.teach_served (s : State) (id : Nat) (x : Stamp) : (s.teach id x).served = s.served := by unfold State.teach; split <;> rfl
@[simp] theorem State.teach_remoteWaiters (s : State) (id : Nat) (x : Stamp) : (s.teach id x).remoteWaiters = s.remoteWaiters := by unfold State.teach; split <;> rfl
@[simp] theorem State.teach_drowsy (s : State) (id : Nat) (x : Stamp) : (s.teach id x).drowsy = s.drowsy := by unfold State.teach; split <;> rfl
@[simp] theorem State.teach_time (s : State) (id : Nat) (x : Stamp) : (s.teach id x).time = s.time := by unfold State.teach; split <;> rfl
@[simp] theorem State.teach_seqs (s : State) (id : Nat) (x : Stamp) : (s.teach id x).seqs = s.seqs := by unfold State.teach; split <;> rfl
@[simp] theorem State.teach_flue (s : State) (id : Nat) (x : Stamp) : (s.teach id x).flue = s.flue := by unfold State.teach; split <;> rfl
@[simp] theorem State.teach_rings (s : State) (id : Nat) (x : Stamp) : (s.teach id x).rings = s.rings := by unfold State.teach; split <;> rfl
@[simp] theorem State.teach_waits (s : State) (id : Nat) (x : Stamp) : (s.teach id x).waits = s.waits := by unfold State.teach; split <;> rfl
@[simp] theorem State.teach_lostWaits (s : State) (id : Nat) (x : Stamp) : (s.teach id x).lostWaits = s.lostWaits := by unfold State.teach; split <;> rfl
@[simp] theorem State.teach_shared (s : State) (id : Nat) (x : Stamp) : (s.teach id x).shared = s.shared := by unfold State.teach; split <;> rfl
@[simp] theorem State.teach_softErrs (s : State) (id : Nat) (x : Stamp) : (s.teach id x).softErrs = s.softErrs := by unfold State.teach; split <;> rfl
@[simp] theorem State.teach_lateFaults (s : State) (id : Nat) (x : Stamp) : (s.teach id x).lateFaults = s.lateFaults := by unfold State.teach; split <;> rfl
@[simp] theorem State.teach_samples (s : State) (id : Nat) (x : Stamp) : (s.teach id x).samples = s.samples := by unfold State.teach; split <;> rfl
@[simp] theorem State.teach_dev (s : State) (id : Nat) (x : Stamp) : (s.teach id x).dev = s.dev := by unfold State.teach; split <;> rfl
@[simp] theorem State.teach_outbox (s : State) (id : Nat) (x : Stamp) : (s.teach id x).outbox = s.outbox := by unfold State.teach; split <;> rfl
@[simp] theorem State.teach_nextId (s : State) (id : Nat) (x : Stamp) : (s.teach id x).nextId = s.nextId := by unfold State.teach; split <;> rfl
@[simp] theorem State.teach_free (s : State) (id : Nat) (x : Stamp) : (s.teach id x).free = s.free := by unfold State.teach; split <;> rfl
@[simp] theorem State.teach_cur (s : State) (id : Nat) (x : Stamp) : (s.teach id x).cur = s.cur := by unfold State.teach; split <;> rfl
@[simp] theorem State.teach_turns (s : State) (id : Nat) (x : Stamp) : (s.teach id x).turns = s.turns := by unfold State.teach; split <;> rfl
@[simp] theorem State.teach_agenda (s : State) (id : Nat) (x : Stamp) : (s.teach id x).agenda = s.agenda := by unfold State.teach; split <;> rfl

@[simp] theorem mint_mem (s : State) (d : Nat) : (mint s d).2.mem = s.mem := rfl
@[simp] theorem mint_scrubMarks (s : State) (d : Nat) : (mint s d).2.scrubMarks = s.scrubMarks := rfl
@[simp] theorem mint_eccBad (s : State) (d : Nat) : (mint s d).2.eccBad = s.eccBad := rfl
@[simp] theorem mint_fibres (s : State) (d : Nat) : (mint s d).2.fibres = s.fibres := rfl
@[simp] theorem mint_crews (s : State) (d : Nat) : (mint s d).2.crews = s.crews := rfl
@[simp] theorem mint_grids (s : State) (d : Nat) : (mint s d).2.grids = s.grids := rfl
@[simp] theorem mint_cores (s : State) (d : Nat) : (mint s d).2.cores = s.cores := rfl
@[simp] theorem mint_ctxs (s : State) (d : Nat) : (mint s d).2.ctxs = s.ctxs := rfl
@[simp] theorem mint_fns (s : State) (d : Nat) : (mint s d).2.fns = s.fns := rfl
@[simp] theorem mint_queues (s : State) (d : Nat) : (mint s d).2.queues = s.queues := rfl
@[simp] theorem mint_packets (s : State) (d : Nat) : (mint s d).2.packets = s.packets := rfl
@[simp] theorem mint_accesses (s : State) (d : Nat) : (mint s d).2.accesses = s.accesses := rfl
@[simp] theorem mint_counts (s : State) (d : Nat) : (mint s d).2.counts = s.counts := rfl
@[simp] theorem mint_stamps (s : State) (d : Nat) : (mint s d).2.stamps = s.stamps := rfl
@[simp] theorem mint_owed (s : State) (d : Nat) : (mint s d).2.owed = s.owed := rfl
@[simp] theorem mint_notifs (s : State) (d : Nat) : (mint s d).2.notifs = s.notifs := rfl
@[simp] theorem mint_clocks (s : State) (d : Nat) : (mint s d).2.clocks = s.clocks := rfl
@[simp] theorem mint_wakes (s : State) (d : Nat) : (mint s d).2.wakes = s.wakes := rfl
@[simp] theorem mint_registrations (s : State) (d : Nat) : (mint s d).2.registrations = s.registrations := rfl
@[simp] theorem mint_moves (s : State) (d : Nat) : (mint s d).2.moves = s.moves := rfl
@[simp] theorem mint_tlb (s : State) (d : Nat) : (mint s d).2.tlb = s.tlb := rfl
@[simp] theorem mint_walks (s : State) (d : Nat) : (mint s d).2.walks = s.walks := rfl
@[simp] theorem mint_migrations (s : State) (d : Nat) : (mint s d).2.migrations = s.migrations := rfl
@[simp] theorem mint_hostLines (s : State) (d : Nat) : (mint s d).2.hostLines = s.hostLines := rfl
@[simp] theorem mint_resReqs (s : State) (d : Nat) : (mint s d).2.resReqs = s.resReqs := rfl
@[simp] theorem mint_channels (s : State) (d : Nat) : (mint s d).2.channels = s.channels := rfl
@[simp] theorem mint_leases (s : State) (d : Nat) : (mint s d).2.leases = s.leases := rfl
@[simp] theorem mint_graphs (s : State) (d : Nat) : (mint s d).2.graphs = s.graphs := rfl
@[simp] theorem mint_comms (s : State) (d : Nat) : (mint s d).2.comms = s.comms := rfl
@[simp] theorem mint_colls (s : State) (d : Nat) : (mint s d).2.colls = s.colls := rfl
@[simp] theorem mint_collNet (s : State) (d : Nat) : (mint s d).2.collNet = s.collNet := rfl
@[simp] theorem mint_switches (s : State) (d : Nat) : (mint s d).2.switches = s.switches := rfl
@[simp] theorem mint_counters (s : State) (d : Nat) : (mint s d).2.counters = s.counters := rfl
@[simp] theorem mint_sends (s : State) (d : Nat) : (mint s d).2.sends = s.sends := rfl
@[simp] theorem mint_green (s : State) (d : Nat) : (mint s d).2.green = s.green := rfl
@[simp] theorem mint_gwRetry (s : State) (d : Nat) : (mint s d).2.gwRetry = s.gwRetry := rfl
@[simp] theorem mint_gwQueries (s : State) (d : Nat) : (mint s d).2.gwQueries = s.gwQueries := rfl
@[simp] theorem mint_gwNet (s : State) (d : Nat) : (mint s d).2.gwNet = s.gwNet := rfl
@[simp] theorem mint_gwRuns (s : State) (d : Nat) : (mint s d).2.gwRuns = s.gwRuns := rfl
@[simp] theorem mint_regions (s : State) (d : Nat) : (mint s d).2.regions = s.regions := rfl
@[simp] theorem mint_stackSts (s : State) (d : Nat) : (mint s d).2.stackSts = s.stackSts := rfl
@[simp] theorem mint_throttled (s : State) (d : Nat) : (mint s d).2.throttled = s.throttled := rfl
@[simp] theorem mint_rowActs (s : State) (d : Nat) : (mint s d).2.rowActs = s.rowActs := rfl
@[simp] theorem mint_sideBuf (s : State) (d : Nat) : (mint s d).2.sideBuf = s.sideBuf := rfl
@[simp] theorem mint_ports (s : State) (d : Nat) : (mint s d).2.ports = s.ports := rfl
@[simp] theorem mint_flows (s : State) (d : Nat) : (mint s d).2.flows = s.flows := rfl
@[simp] theorem mint_reorder (s : State) (d : Nat) : (mint s d).2.reorder = s.reorder := rfl
@[simp] theorem mint_remote (s : State) (d : Nat) : (mint s d).2.remote = s.remote := rfl
@[simp] theorem mint_served (s : State) (d : Nat) : (mint s d).2.served = s.served := rfl
@[simp] theorem mint_remoteWaiters (s : State) (d : Nat) : (mint s d).2.remoteWaiters = s.remoteWaiters := rfl
@[simp] theorem mint_drowsy (s : State) (d : Nat) : (mint s d).2.drowsy = s.drowsy := rfl
@[simp] theorem mint_time (s : State) (d : Nat) : (mint s d).2.time = s.time := rfl
@[simp] theorem mint_flue (s : State) (d : Nat) : (mint s d).2.flue = s.flue := rfl
@[simp] theorem mint_rings (s : State) (d : Nat) : (mint s d).2.rings = s.rings := rfl
@[simp] theorem mint_waits (s : State) (d : Nat) : (mint s d).2.waits = s.waits := rfl
@[simp] theorem mint_lostWaits (s : State) (d : Nat) : (mint s d).2.lostWaits = s.lostWaits := rfl
@[simp] theorem mint_shared (s : State) (d : Nat) : (mint s d).2.shared = s.shared := rfl
@[simp] theorem mint_softErrs (s : State) (d : Nat) : (mint s d).2.softErrs = s.softErrs := rfl
@[simp] theorem mint_lateFaults (s : State) (d : Nat) : (mint s d).2.lateFaults = s.lateFaults := rfl
@[simp] theorem mint_samples (s : State) (d : Nat) : (mint s d).2.samples = s.samples := rfl
@[simp] theorem mint_dev (s : State) (d : Nat) : (mint s d).2.dev = s.dev := rfl
@[simp] theorem mint_outbox (s : State) (d : Nat) : (mint s d).2.outbox = s.outbox := rfl
@[simp] theorem mint_nextId (s : State) (d : Nat) : (mint s d).2.nextId = s.nextId := rfl
@[simp] theorem mint_free (s : State) (d : Nat) : (mint s d).2.free = s.free := rfl
@[simp] theorem mint_cur (s : State) (d : Nat) : (mint s d).2.cur = s.cur := rfl
@[simp] theorem mint_turns (s : State) (d : Nat) : (mint s d).2.turns = s.turns := rfl
@[simp] theorem mint_agenda (s : State) (d : Nat) : (mint s d).2.agenda = s.agenda := rfl

@[simp] theorem draw_mem (s : State) : (draw s).2.mem = s.mem := rfl
@[simp] theorem draw_scrubMarks (s : State) : (draw s).2.scrubMarks = s.scrubMarks := rfl
@[simp] theorem draw_eccBad (s : State) : (draw s).2.eccBad = s.eccBad := rfl
@[simp] theorem draw_fibres (s : State) : (draw s).2.fibres = s.fibres := rfl
@[simp] theorem draw_crews (s : State) : (draw s).2.crews = s.crews := rfl
@[simp] theorem draw_grids (s : State) : (draw s).2.grids = s.grids := rfl
@[simp] theorem draw_cores (s : State) : (draw s).2.cores = s.cores := rfl
@[simp] theorem draw_ctxs (s : State) : (draw s).2.ctxs = s.ctxs := rfl
@[simp] theorem draw_fns (s : State) : (draw s).2.fns = s.fns := rfl
@[simp] theorem draw_queues (s : State) : (draw s).2.queues = s.queues := rfl
@[simp] theorem draw_packets (s : State) : (draw s).2.packets = s.packets := rfl
@[simp] theorem draw_accesses (s : State) : (draw s).2.accesses = s.accesses := rfl
@[simp] theorem draw_counts (s : State) : (draw s).2.counts = s.counts := rfl
@[simp] theorem draw_stamps (s : State) : (draw s).2.stamps = s.stamps := rfl
@[simp] theorem draw_owed (s : State) : (draw s).2.owed = s.owed := rfl
@[simp] theorem draw_notifs (s : State) : (draw s).2.notifs = s.notifs := rfl
@[simp] theorem draw_clocks (s : State) : (draw s).2.clocks = s.clocks := rfl
@[simp] theorem draw_wakes (s : State) : (draw s).2.wakes = s.wakes := rfl
@[simp] theorem draw_registrations (s : State) : (draw s).2.registrations = s.registrations := rfl
@[simp] theorem draw_moves (s : State) : (draw s).2.moves = s.moves := rfl
@[simp] theorem draw_tlb (s : State) : (draw s).2.tlb = s.tlb := rfl
@[simp] theorem draw_walks (s : State) : (draw s).2.walks = s.walks := rfl
@[simp] theorem draw_migrations (s : State) : (draw s).2.migrations = s.migrations := rfl
@[simp] theorem draw_hostLines (s : State) : (draw s).2.hostLines = s.hostLines := rfl
@[simp] theorem draw_resReqs (s : State) : (draw s).2.resReqs = s.resReqs := rfl
@[simp] theorem draw_channels (s : State) : (draw s).2.channels = s.channels := rfl
@[simp] theorem draw_leases (s : State) : (draw s).2.leases = s.leases := rfl
@[simp] theorem draw_graphs (s : State) : (draw s).2.graphs = s.graphs := rfl
@[simp] theorem draw_comms (s : State) : (draw s).2.comms = s.comms := rfl
@[simp] theorem draw_colls (s : State) : (draw s).2.colls = s.colls := rfl
@[simp] theorem draw_collNet (s : State) : (draw s).2.collNet = s.collNet := rfl
@[simp] theorem draw_switches (s : State) : (draw s).2.switches = s.switches := rfl
@[simp] theorem draw_counters (s : State) : (draw s).2.counters = s.counters := rfl
@[simp] theorem draw_sends (s : State) : (draw s).2.sends = s.sends := rfl
@[simp] theorem draw_green (s : State) : (draw s).2.green = s.green := rfl
@[simp] theorem draw_gwRetry (s : State) : (draw s).2.gwRetry = s.gwRetry := rfl
@[simp] theorem draw_gwQueries (s : State) : (draw s).2.gwQueries = s.gwQueries := rfl
@[simp] theorem draw_gwNet (s : State) : (draw s).2.gwNet = s.gwNet := rfl
@[simp] theorem draw_gwRuns (s : State) : (draw s).2.gwRuns = s.gwRuns := rfl
@[simp] theorem draw_regions (s : State) : (draw s).2.regions = s.regions := rfl
@[simp] theorem draw_stackSts (s : State) : (draw s).2.stackSts = s.stackSts := rfl
@[simp] theorem draw_throttled (s : State) : (draw s).2.throttled = s.throttled := rfl
@[simp] theorem draw_rowActs (s : State) : (draw s).2.rowActs = s.rowActs := rfl
@[simp] theorem draw_sideBuf (s : State) : (draw s).2.sideBuf = s.sideBuf := rfl
@[simp] theorem draw_ports (s : State) : (draw s).2.ports = s.ports := rfl
@[simp] theorem draw_flows (s : State) : (draw s).2.flows = s.flows := rfl
@[simp] theorem draw_reorder (s : State) : (draw s).2.reorder = s.reorder := rfl
@[simp] theorem draw_remote (s : State) : (draw s).2.remote = s.remote := rfl
@[simp] theorem draw_served (s : State) : (draw s).2.served = s.served := rfl
@[simp] theorem draw_remoteWaiters (s : State) : (draw s).2.remoteWaiters = s.remoteWaiters := rfl
@[simp] theorem draw_drowsy (s : State) : (draw s).2.drowsy = s.drowsy := rfl
@[simp] theorem draw_time (s : State) : (draw s).2.time = s.time := rfl
@[simp] theorem draw_seqs (s : State) : (draw s).2.seqs = s.seqs := rfl
@[simp] theorem draw_flue (s : State) : (draw s).2.flue = s.flue := rfl
@[simp] theorem draw_rings (s : State) : (draw s).2.rings = s.rings := rfl
@[simp] theorem draw_waits (s : State) : (draw s).2.waits = s.waits := rfl
@[simp] theorem draw_lostWaits (s : State) : (draw s).2.lostWaits = s.lostWaits := rfl
@[simp] theorem draw_shared (s : State) : (draw s).2.shared = s.shared := rfl
@[simp] theorem draw_softErrs (s : State) : (draw s).2.softErrs = s.softErrs := rfl
@[simp] theorem draw_lateFaults (s : State) : (draw s).2.lateFaults = s.lateFaults := rfl
@[simp] theorem draw_samples (s : State) : (draw s).2.samples = s.samples := rfl
@[simp] theorem draw_dev (s : State) : (draw s).2.dev = s.dev := rfl
@[simp] theorem draw_outbox (s : State) : (draw s).2.outbox = s.outbox := rfl
@[simp] theorem draw_nextId (s : State) : (draw s).2.nextId = s.nextId := rfl
@[simp] theorem draw_cur (s : State) : (draw s).2.cur = s.cur := rfl
@[simp] theorem draw_turns (s : State) : (draw s).2.turns = s.turns := rfl
@[simp] theorem draw_agenda (s : State) : (draw s).2.agenda = s.agenda := rfl

end Sys2Proof.Machine
end

