-- ==== Sys2Proof/Laws/Issue.lean ====
section
/-! SUPPORT. What the issue of an instruction does around its effect, said once: the lemmas that completion proofs cite instead of unfolding
`issue`. -/

namespace Sys2Proof.Machine

/-- A step that leaves the fibres and all but the counting marks alone. -/
def Counted (s t : State) : Prop := t.fibres = s.fibres ∧ OnlyFibres s t

theorem counted_refl (s : State) : Counted s s := ⟨rfl, rfl, rfl, rfl, fun _ h => h⟩

theorem counted_trans {s t u : State} (h : Counted s t) (k : Counted t u) : Counted s u := by
  obtain ⟨hf, h1, h2, h3, h4⟩ := h
  obtain ⟨kf, k1, k2, k3, k4⟩ := k
  refine ⟨kf.trans hf, ?_, k2.trans h2, k3.trans h3, fun d hd => h4 d (k4 d hd)⟩
  have e : ({ u with fibres := s.fibres, cores := s.cores, drowsy := s.drowsy, ctxs := s.ctxs } : State) =
      { ({ u with fibres := t.fibres, cores := t.cores, drowsy := t.drowsy, ctxs := t.ctxs } : State) with
        fibres := s.fibres, cores := s.cores, drowsy := s.drowsy, ctxs := s.ctxs } := rfl
  rw [e, k1, h1]

theorem perfAdd_counted (s : State) (core ev n : Nat) : Counted s (perfAdd s core ev n) := by
  refine ⟨rfl, rfl, ?_, rfl, fun _ h => h⟩
  simp only [perfAdd, mapIf, List.map_map]
  refine List.map_congr_left fun c _ => ?_
  simp only [Function.comp]
  split <;> rfl

theorem wakeBanks_counted (s : State) (core part : Nat) (banks : List Nat) : Counted s (wakeBanks s core part banks) := by
  unfold wakeBanks
  split
  · exact counted_refl s
  · have h0 (p : Nat × Nat × Nat → Bool) : Counted s { s with drowsy := s.drowsy.filter p } :=
      ⟨rfl, rfl, rfl, rfl, fun d h => (List.mem_filter.1 h).1⟩
    exact counted_trans (h0 _) (perfAdd_counted _ _ _ _)

theorem markStepped_counted (s : State) (ids : List Nat) : Counted s (markStepped s ids) := by
  refine ⟨rfl, rfl, rfl, ?_, fun _ h => h⟩
  simp only [markStepped, List.map_map]
  exact List.map_congr_left fun c _ => rfl

theorem foldl_counted {α : Type} (f : State → α → State) (h : ∀ s x, Counted s (f s x)) (l : List α) (s : State) :
    Counted s (l.foldl f s) := by
  induction l generalizing s with
  | nil => exact counted_refl s
  | cons x l ih => exact counted_trans (h s x) (ih _)

theorem issueCounts_counted (e : Enc) (u : Usage) (s : State) : Counted s (issueCounts e u s) :=
  counted_trans (markStepped_counted s _)
    (counted_trans (counted_trans (counted_trans (perfAdd_counted _ _ _ _) (perfAdd_counted _ _ _ _)) (perfAdd_counted _ _ _ _))
      (foldl_counted _ (fun s _ => wakeBanks_counted s _ _ _) _ _))

theorem guardFault_eq {i : Instr} {e : Enc} {u : Usage} {s : State} (h : CanIssue i e u s) {f : Fibre} (hf : f ∈ s.lanes) : guardFault e f = false := by
  simp [guardFault, Fibre.unreadable, h.parity f hf]

theorem laneIn_eq {i : Instr} {e : Enc} {u : Usage} {s : State} (h : CanIssue i e u s) {f : Fibre} (hf : f ∈ s.lanes) : laneIn e f = laneGuard e f := by
  simp [laneIn, guardFault_eq h hf]

theorem trappedExec_nil {i : Instr} {e : Enc} {u : Usage} {s : State} (h : CanIssue i e u s) : trappedExec e u s.lanes = [] := by
  simp only [trappedExec, List.filter_eq_nil_iff]
  intro f hf
  have := h.operands f hf
  cases hg : laneGuard e f <;> simp_all [guardFault_eq h hf]

theorem readyExec_eq {i : Instr} {e : Enc} {u : Usage} {s : State} (h : CanIssue i e u s) :
    readyExec e u s.lanes = s.lanes.filter (laneGuard e) := by
  simp only [readyExec]
  refine List.filter_congr fun f hf => ?_
  have := h.operands f hf
  cases hg : laneGuard e f <;> simp_all [laneIn_eq h hf]

theorem prepare_eq {i : Instr} {e : Enc} {u : Usage} {s : State} (h : CanIssue i e u s) (t : State) : prepare e u s.lanes t = t := by
  have hn : ((readyExec e u s.lanes).filter fun f => (regReads e u).any fun n => f.badParity.contains n) = [] := by
    rw [readyExec_eq h, List.filter_eq_nil_iff]
    intro f hf
    simp [h.parity f (List.mem_filter.1 hf).1]
  simp only [prepare, trappedExec_nil h, hn, List.foldl_nil]

theorem issueBody_eq {i : Instr} {e : Enc} {u : Usage} {s : State} (h : CanIssue i e u s) (k : Issue → State → State) :
    issueBody e u s s.lanes k = k (cleanIssue e u s) (issueCounts e u s) := by
  have hf : (issueCounts e u s).fibres = s.fibres := (issueCounts_counted e u s).1
  have he : readyExec e u s.lanes = s.lanes.filter (laneGuard e) := readyExec_eq h
  have ht := trappedExec_nil h
  have hp := prepare_eq h (issueCounts e u s)
  have hi : s.lanes.filter (laneIn e) = s.lanes.filter (laneGuard e) := List.filter_congr fun f hf => laneIn_eq h hf
  have hj : (s.lanes.filter fun g => !guardFault e g && !laneGuard e g) = s.lanes.filter fun g => !laneGuard e g :=
    List.filter_congr fun f hf => by simp [guardFault_eq h hf]
  unfold issueBody
  simp only [he, hi, hj, ht, List.isEmpty_nil, if_true, Bool.not_true]
  change k _ (prepare e u s.lanes (issueCounts e u s)) = _
  rw [hp]
  congr 1
  unfold cleanIssue sources execIds offIds
  have hp' : (prepare e u s.lanes
      (wakeIssue (countIssue (markStepped s (s.lanes.map (·.id))) ((s.cur.map (·.core)).getD 0) e (s.lanes.filter (laneGuard e)).length)
        ((s.cur.map (·.core)).getD 0) e u s.lanes)).fibres = s.fibres := by
    rw [← hf]; exact congrArg State.fibres hp
  rw [hp']
  congr 1
  refine List.filter_congr fun f _ => ?_
  rw [Bool.eq_iff_iff]
  simp [List.any_eq_true, and_assoc]

theorem repairGuards_eq {i : Instr} {e : Enc} {u : Usage} {s : State} (h : CanIssue i e u s) : repairGuards e s = s := by
  have hn : (s.lanes.filter fun f => isGuarded e && f.badParity.contains 0 && f.dup.any (·.1 == 0)) = [] := by
    rw [List.filter_eq_nil_iff]
    intro f hf
    simp [h.parity f hf]
  simp only [repairGuards, hn, List.foldl_nil]

theorem issueWhen_eq {i : Instr} {e : Enc} {u : Usage} {s : State} (h : CanIssue i e u s) (ready : List Fibre → Bool)
    (hr : ready (s.lanes.filter (laneGuard e)) = true) (k : Issue → State → State) :
    issueWhen i s ready k = .next (k (cleanIssue e u s) (issueCounts e u s)) := by
  have h1 : s.lanes.isEmpty = false := by
    cases hl : s.lanes with
    | nil => exact absurd hl h.lanes
    | cons _ _ => rfl
  have h2 : (s.lanes.any fun f => featureMissing s i f) = false := by
    simp only [List.any_eq_false]; intro f hf; simp [h.feature f hf]
  have h3 : (s.lanes.all fun f => e.windowOk u f.ws) = true := by
    simp only [List.all_eq_true]; exact h.window
  have hi : s.lanes.filter (laneIn e) = s.lanes.filter (laneGuard e) := List.filter_congr fun f hf => laneIn_eq h hf
  unfold issueWhen issueLanes
  simp only [h.enc, h.usage, repairGuards_eq h, hi, h1, h2, h3, h.reserved, h.idle, hr, issueBody_eq h]
  simp

theorem issue_eq {i : Instr} {e : Enc} {u : Usage} {s : State} (h : CanIssue i e u s) (k : Issue → State → State) :
    issue i s k = .next (k (cleanIssue e u s) (issueCounts e u s)) := issueWhen_eq h _ rfl k

/-- The names of the lanes of `exec` are those of the sources. -/
theorem mem_cleanIssue_ids {e : Enc} {u : Usage} {s : State} {f : Fibre} (hf : f ∈ s.fibres) :
    (cleanIssue e u s).ids.contains f.id = (execIds e s).contains f.id := by
  rw [Bool.eq_iff_iff]
  simp only [cleanIssue, Issue.ids, sources, List.contains_iff_mem, List.mem_map, List.mem_filter]
  constructor
  · rintro ⟨g, ⟨-, hg⟩, hi⟩; rwa [hi] at hg
  · intro h; exact ⟨f, ⟨hf, h⟩, rfl⟩

theorem mem_cleanIssue_offIds {e : Enc} {u : Usage} {s : State} {f : Fibre} (hf : f ∈ s.fibres) :
    (cleanIssue e u s).offIds.contains f.id = (offIds e s).contains f.id := by
  rw [Bool.eq_iff_iff]
  simp only [cleanIssue, Issue.offIds, List.contains_iff_mem, List.mem_map, List.mem_filter]
  constructor
  · rintro ⟨g, ⟨-, hg⟩, hi⟩; rwa [hi] at hg
  · intro h; exact ⟨f, ⟨hf, h⟩, rfl⟩

/-- An instruction that computes in its lanes from the lanes of `exec` completes. -/
theorem completes_crosswise {i : Instr} {o : Issue → Fibre → LaneOut} {out : List Fibre → Fibre → LaneOut}
    (h : ∀ s, exec i s = crosswise i s o)
    (ho : ∀ w l, i.enc = some w.enc → o w l = out w.exec l) : Completes i out := by
  intro e u s hc
  have hcnt := issueCounts_counted e u s
  refine ⟨complete (cleanIssue e u s) (issueCounts e u s) (o (cleanIssue e u s)), ?_, ?_, ?_⟩
  · rw [h]; exact issue_eq hc _
  · obtain ⟨_, h1, h2, h3, h4⟩ := hcnt
    exact ⟨h1, h2, h3, h4⟩
  · simp only [complete, hcnt.1]
    refine List.map_congr_left fun f hf => ?_
    rw [mem_cleanIssue_ids hf, mem_cleanIssue_offIds hf]
    have : o (cleanIssue e u s) f = out (sources e s) f := ho (cleanIssue e u s) f hc.enc
    rw [this]
    rfl

/-- An instruction that computes in each lane from that lane's operands completes. -/
theorem completes_lanewise {i : Instr} {o : Enc → Fibre → LaneOut} {out : Fibre → LaneOut}
    (h : ∀ s, exec i s = lanewise i s o) (ho : ∀ e l, i.enc = some e → o e l = out l) : Completes i fun _ l => out l :=
  completes_crosswise (o := fun w => o w.enc) h fun w l hw => ho w.enc l hw

/-! ### Where a result goes, by format -/

theorem field63 (d : BitVec 6) : d.toNat = 63 ↔ d = 63 := by rw [← BitVec.toNat_inj]; rfl

theorem dField_h (op : BitVec 4) (f : HF) : dField (.h op f) = hDest f := by
  unfold dField hDest
  simp only [beq_iff_eq]

theorem dField_w (op : BitVec 10) (f : WF) : dField (.w op f) = wDest f := by
  unfold dField wDest
  simp only [Enc.nw, Enc.fields, Bool.or_eq_true, beq_iff_eq, field63]

theorem dField_wi (op : BitVec 10) (f : WIF) : dField (.wi op f) = wiDest f := by
  unfold dField wiDest
  simp only [Enc.nw, Enc.fields, Bool.false_or, beq_iff_eq, field63]

theorem dField_l (op : BitVec 10) (f : LF) : dField (.l op f) = lDest f := by
  unfold dField lDest
  simp only [Enc.nw, Enc.fields, Bool.or_eq_true, beq_iff_eq, field63]

theorem dField_li (op : BitVec 10) (f : LIF) : dField (.li op f) = liDest f := by
  unfold dField liDest
  simp only [Enc.nw, Enc.fields, Bool.or_eq_true, beq_iff_eq, field63]

theorem out32_eq (e : Enc) (v : Word) : out32 e v = word (dField e) v := by
  unfold out32 word
  cases dField e <;> rfl

theorem out64_eq (e : Enc) (v : DWord) : out64 e v = dword (dField e) v := by
  unfold out64 dword
  cases dField e <;> simp [lo32, hi32]

end Sys2Proof.Machine
end

