-- ==== Sys2Proof/Laws/Memory.lean ====
section
/-! SUPPORT. Memory keeps its canonical form under every operation, and reads give back what writes have put there. -/

namespace Sys2Proof.Machine

/-- Whether an address lies above an optional bound. -/
def above : Option Nat → Nat → Bool
  | none, _ => true
  | some l, a => decide (l < a)

theorem memWfFrom_cons (lo : Option Nat) (k : Nat) (v : Byte) (m : List Host.Cell) :
    memWfFrom lo ((k, v) :: m) = true ↔ above lo k = true ∧ v ≠ 0 ∧ memWfFrom (some k) m = true := by
  cases lo <;> simp [memWfFrom, above, and_assoc]

theorem above_trans {lo : Option Nat} {k a : Nat} (h : above lo k = true) (hk : k < a) : above lo a = true := by
  cases lo with
  | none => rfl
  | some l => simp [above] at *; omega

theorem memWfFrom_mono {m : List Host.Cell} {lo : Option Nat} {k : Nat} (hl : above lo k = true) (h : memWfFrom (some k) m = true) :
    memWfFrom lo m = true := by
  cases m with
  | nil => cases lo <;> rfl
  | cons c m =>
    obtain ⟨j, v⟩ := c
    rw [memWfFrom_cons] at h ⊢
    exact ⟨above_trans hl (by simpa [above] using h.1), h.2⟩

theorem memCons_wf {lo : Option Nat} {a : Nat} {b : Byte} {m : List Host.Cell} (ha : above lo a = true) (h : memWfFrom (some a) m = true) :
    memWfFrom lo (memCons a b m) = true := by
  unfold memCons
  split
  · exact memWfFrom_mono ha h
  · next hb => exact (memWfFrom_cons ..).2 ⟨ha, hb, h⟩

theorem memSet_wf {m : List Host.Cell} : ∀ {lo : Option Nat} {a : Nat} {b : Byte}, above lo a = true → memWfFrom lo m = true →
    memWfFrom lo (memSet m a b) = true := by
  induction m with
  | nil => intro lo a b ha _; exact memCons_wf ha (by rfl)
  | cons c m ih =>
    obtain ⟨k, v⟩ := c
    intro lo a b ha h
    rw [memWfFrom_cons] at h
    unfold memSet
    split
    · next hlt => exact memCons_wf ha ((memWfFrom_cons ..).2 ⟨by simpa [above] using hlt, h.2⟩)
    · next hge =>
      split
      · next he => subst he; exact memCons_wf ha h.2.2
      · next hne =>
        exact (memWfFrom_cons ..).2 ⟨h.1, h.2.1, ih (lo := some k) (by simp only [above, decide_eq_true_eq]; omega) h.2.2⟩

/-- A write keeps the canonical form. -/
theorem Memory.wf_memSet {m : List Host.Cell} {a : Nat} {b : Byte} (h : Memory.wf m = true) : Memory.wf (memSet m a b) = true :=
  memSet_wf (lo := none) rfl h

theorem filter_wf {p : Host.Cell → Bool} {m : List Host.Cell} : ∀ {lo : Option Nat}, memWfFrom lo m = true → memWfFrom lo (m.filter p) = true := by
  induction m with
  | nil => intro lo _; cases lo <;> rfl
  | cons c m ih =>
    obtain ⟨k, v⟩ := c
    intro lo h
    rw [memWfFrom_cons] at h
    rw [List.filter_cons]
    split
    · exact (memWfFrom_cons ..).2 ⟨h.1, h.2.1, ih h.2.2⟩
    · exact ih (memWfFrom_mono h.1 h.2.2)

/-- Zeroing a range keeps the canonical form. -/
theorem Memory.wf_memZero {m : List Host.Cell} {a n : Nat} (h : Memory.wf m = true) : Memory.wf (memZero m a n) = true := filter_wf h

/-- Writing bytes keeps it. -/
theorem Memory.wf_memWrite : ∀ {bs : List Byte} {m : List Host.Cell} {a : Nat}, Memory.wf m = true → Memory.wf (memWrite m a bs) = true
  | [], _, _, h => h
  | _ :: bs, _, _, h => Memory.wf_memWrite (bs := bs) (Memory.wf_memSet h)

theorem Memory.wf_memWriteAt : ∀ {bs : List (Nat × Byte)} {m : List Host.Cell} {a : Nat}, Memory.wf m = true → Memory.wf (memWriteAt m a bs) = true
  | [], _, _, h => h
  | _ :: bs, _, _, h => Memory.wf_memWriteAt (bs := bs) (Memory.wf_memSet h)

/-! ### Reads after writes -/

theorem memGet_below {m : List Host.Cell} {lo a : Nat} (h : memWfFrom (some lo) m = true) (ha : a ≤ lo) : memGet m a = 0 := by
  cases m with
  | nil => rfl
  | cons c m =>
    obtain ⟨k, v⟩ := c
    have hk := ((memWfFrom_cons ..).1 h).1
    simp only [above, decide_eq_true_eq] at hk
    unfold memGet
    rw [if_neg (by omega), if_pos (by omega)]

theorem memGet_memCons {m : List Host.Cell} {a c : Nat} {b : Byte} (h : memWfFrom (some a) m = true) :
    memGet (memCons a b m) c = if c = a then b else if c < a then 0 else memGet m c := by
  unfold memCons
  split
  · next hb =>
    split
    · next hc => rw [hb, hc]; exact memGet_below h (Nat.le_refl a)
    · split
      · exact memGet_below h (by omega)
      · rfl
  · rfl

theorem memGet_memSet {m : List Host.Cell} : ∀ {lo : Option Nat} {a c : Nat} {b : Byte}, memWfFrom lo m = true →
    memGet (memSet m a b) c = if c = a then b else memGet m c := by
  induction m with
  | nil => intro lo a c b _; unfold memSet; rw [memGet_memCons (by rfl)]; simp [memGet]
  | cons d m ih =>
    obtain ⟨k, v⟩ := d
    intro lo a c b h
    rw [memWfFrom_cons] at h
    unfold memSet
    split
    · next hlt =>
      rw [memGet_memCons ((memWfFrom_cons ..).2 ⟨by simpa [above] using hlt, h.2⟩)]
      split
      · rfl
      · split
        · next hc hca => simp only [memGet]; rw [if_neg (by omega), if_pos (by omega)]
        · rfl
    · next hge =>
      split
      · next he =>
        subst he
        rw [memGet_memCons h.2.2]
        simp only [memGet]
        split
        · rfl
        · rfl
      · next hne =>
        simp only [memGet]
        split
        · next hck => rw [if_neg (by omega)]
        · split
          · next hck hlt => rw [if_neg (by omega)]
          · exact ih h.2.2

/-- A read after a write to the same place. -/
theorem memGet_memSet_same {m : List Host.Cell} {a : Nat} {b : Byte} (h : Memory.wf m = true) : memGet (memSet m a b) a = b := by
  rw [memGet_memSet (lo := none) h]; simp

/-- A write leaves every other place alone. -/
theorem memGet_memSet_other {m : List Host.Cell} {a c : Nat} {b : Byte} (h : Memory.wf m = true) (hc : c ≠ a) :
    memGet (memSet m a b) c = memGet m c := by
  rw [memGet_memSet (lo := none) h]; simp [hc]

/-! ### The state's memory -/

theorem scrubGranule_wf {s : State} {g : Nat} (h : Memory.wf s.mem = true) : Memory.wf (scrubGranule s g).mem = true := by
  unfold scrubGranule
  split
  · exact Memory.wf_memZero h
  · exact h

theorem putByte_wf {s : State} {a : Nat} {b : Byte} (h : Memory.wf s.mem = true) : Memory.wf (s.putByte a b).mem = true :=
  Memory.wf_memSet (scrubGranule_wf h)

theorem putBytes_wf : ∀ {bs : List Byte} {s : State} {a : Nat}, Memory.wf s.mem = true → Memory.wf (s.putBytes a bs).mem = true
  | [], _, _, h => h
  | _ :: bs, _, _, h => putBytes_wf (bs := bs) (putByte_wf h)

theorem putBytesAt_wf : ∀ {bs : List (Nat × Byte)} {s : State} {a : Nat}, Memory.wf s.mem = true → Memory.wf (s.putBytesAt a bs).mem = true
  | [], _, _, h => h
  | _ :: bs, _, _, h => putBytesAt_wf (bs := bs) (putByte_wf h)

theorem fillFrame_wf {s : State} {spa n : Nat} {bs : List Byte} (h : Memory.wf s.mem = true) : Memory.wf (fillFrame s spa n bs).mem = true :=
  putBytes_wf (Memory.wf_memZero h)

/-- The machine right after reset lists nothing. -/
theorem reset_wf : Memory.wf State.reset.mem = true := rfl

end Sys2Proof.Machine
end

