-- ==== Sys2Proof/Laws/PerInstr.lean ====
section
/-! SUPPORT. The family Encoding: for every instruction, the opcode table that the decoder builds from gives back the instruction whose form
the encoder writes. -/

namespace Sys2Proof.Laws.Encoding

/-- The form of an instruction is built back to it (spec/03 R56): encoder and decoder name the same native opcode. -/
def Statement (i : Instr) : Prop := ∀ e : Enc, i.enc = some e → e.build = .ok i

theorem movH (f : HF) : Statement (.movH f) := by intro e h; cases h; rfl
theorem addS32H (f : HF) : Statement (.addS32H f) := by intro e h; cases h; rfl
theorem subS32H (f : HF) : Statement (.subS32H f) := by intro e h; cases h; rfl
theorem mulS32H (f : HF) : Statement (.mulS32H f) := by intro e h; cases h; rfl
theorem andH (f : HF) : Statement (.andH f) := by intro e h; cases h; rfl
theorem orH (f : HF) : Statement (.orH f) := by intro e h; cases h; rfl
theorem xorH (f : HF) : Statement (.xorH f) := by intro e h; cases h; rfl
theorem shlH (f : HF) : Statement (.shlH f) := by intro e h; cases h; rfl
theorem shrH (f : HF) : Statement (.shrH f) := by intro e h; cases h; rfl
theorem sarH (f : HF) : Statement (.sarH f) := by intro e h; cases h; rfl
theorem addF32H (f : HF) : Statement (.addF32H f) := by intro e h; cases h; rfl
theorem subF32H (f : HF) : Statement (.subF32H f) := by intro e h; cases h; rfl
theorem mulF32H (f : HF) : Statement (.mulF32H f) := by intro e h; cases h; rfl
theorem minF32H (f : HF) : Statement (.minF32H f) := by intro e h; cases h; rfl
theorem maxF32H (f : HF) : Statement (.maxF32H f) := by intro e h; cases h; rfl
theorem negF32H (f : HF) : Statement (.negF32H f) := by intro e h; cases h; rfl
theorem movW (f : WF) : Statement (.movW f) := by intro e h; cases h; rfl
theorem movL (f : LF) : Statement (.movL f) := by intro e h; cases h; rfl
theorem li (f : LIF) : Statement (.li f) := by intro e h; cases h; rfl
theorem addW (f : WF) : Statement (.addW f) := by intro e h; cases h; rfl
theorem addWi (f : WIF) : Statement (.addWi f) := by intro e h; cases h; rfl
theorem addL (f : LF) : Statement (.addL f) := by intro e h; cases h; rfl
theorem subW (f : WF) : Statement (.subW f) := by intro e h; cases h; rfl
theorem subL (f : LF) : Statement (.subL f) := by intro e h; cases h; rfl
theorem addSatW (f : WF) : Statement (.addSatW f) := by intro e h; cases h; rfl
theorem addSatL (f : LF) : Statement (.addSatL f) := by intro e h; cases h; rfl
theorem subSatW (f : WF) : Statement (.subSatW f) := by intro e h; cases h; rfl
theorem subSatL (f : LF) : Statement (.subSatL f) := by intro e h; cases h; rfl
theorem mulW (f : WF) : Statement (.mulW f) := by intro e h; cases h; rfl
theorem mulWi (f : WIF) : Statement (.mulWi f) := by intro e h; cases h; rfl
theorem mulL (f : LF) : Statement (.mulL f) := by intro e h; cases h; rfl
theorem mulhiW (f : WF) : Statement (.mulhiW f) := by intro e h; cases h; rfl
theorem mulhiL (f : LF) : Statement (.mulhiL f) := by intro e h; cases h; rfl
theorem mulwW (f : WF) : Statement (.mulwW f) := by intro e h; cases h; rfl
theorem mulwL (f : LF) : Statement (.mulwL f) := by intro e h; cases h; rfl
theorem mad (f : LF) : Statement (.mad f) := by intro e h; cases h; rfl
theorem madw (f : LF) : Statement (.madw f) := by intro e h; cases h; rfl
theorem minW (f : WF) : Statement (.minW f) := by intro e h; cases h; rfl
theorem minWi (f : WIF) : Statement (.minWi f) := by intro e h; cases h; rfl
theorem minL (f : LF) : Statement (.minL f) := by intro e h; cases h; rfl
theorem maxW (f : WF) : Statement (.maxW f) := by intro e h; cases h; rfl
theorem maxWi (f : WIF) : Statement (.maxWi f) := by intro e h; cases h; rfl
theorem maxL (f : LF) : Statement (.maxL f) := by intro e h; cases h; rfl
theorem absW (f : WF) : Statement (.absW f) := by intro e h; cases h; rfl
theorem absL (f : LF) : Statement (.absL f) := by intro e h; cases h; rfl
theorem negW (f : WF) : Statement (.negW f) := by intro e h; cases h; rfl
theorem negL (f : LF) : Statement (.negL f) := by intro e h; cases h; rfl
theorem andW (f : WF) : Statement (.andW f) := by intro e h; cases h; rfl
theorem andWi (f : WIF) : Statement (.andWi f) := by intro e h; cases h; rfl
theorem andL (f : LF) : Statement (.andL f) := by intro e h; cases h; rfl
theorem orW (f : WF) : Statement (.orW f) := by intro e h; cases h; rfl
theorem orWi (f : WIF) : Statement (.orWi f) := by intro e h; cases h; rfl
theorem orL (f : LF) : Statement (.orL f) := by intro e h; cases h; rfl
theorem xorW (f : WF) : Statement (.xorW f) := by intro e h; cases h; rfl
theorem xorWi (f : WIF) : Statement (.xorWi f) := by intro e h; cases h; rfl
theorem xorL (f : LF) : Statement (.xorL f) := by intro e h; cases h; rfl
theorem andnW (f : WF) : Statement (.andnW f) := by intro e h; cases h; rfl
theorem andnL (f : LF) : Statement (.andnL f) := by intro e h; cases h; rfl
theorem notW (f : WF) : Statement (.notW f) := by intro e h; cases h; rfl
theorem notL (f : LF) : Statement (.notL f) := by intro e h; cases h; rfl
theorem shlW (f : WF) : Statement (.shlW f) := by intro e h; cases h; rfl
theorem shlWi (f : WIF) : Statement (.shlWi f) := by intro e h; cases h; rfl
theorem shlL (f : LF) : Statement (.shlL f) := by intro e h; cases h; rfl
theorem shrW (f : WF) : Statement (.shrW f) := by intro e h; cases h; rfl
theorem shrWi (f : WIF) : Statement (.shrWi f) := by intro e h; cases h; rfl
theorem shrL (f : LF) : Statement (.shrL f) := by intro e h; cases h; rfl
theorem sarW (f : WF) : Statement (.sarW f) := by intro e h; cases h; rfl
theorem sarWi (f : WIF) : Statement (.sarWi f) := by intro e h; cases h; rfl
theorem sarL (f : LF) : Statement (.sarL f) := by intro e h; cases h; rfl
theorem rotW (f : WF) : Statement (.rotW f) := by intro e h; cases h; rfl
theorem rotWi (f : WIF) : Statement (.rotWi f) := by intro e h; cases h; rfl
theorem rotL (f : LF) : Statement (.rotL f) := by intro e h; cases h; rfl
theorem bfx (f : LF) : Statement (.bfx f) := by intro e h; cases h; rfl
theorem bfi (f : LF) : Statement (.bfi f) := by intro e h; cases h; rfl
theorem popcW (f : WF) : Statement (.popcW f) := by intro e h; cases h; rfl
theorem popcL (f : LF) : Statement (.popcL f) := by intro e h; cases h; rfl
theorem clzW (f : WF) : Statement (.clzW f) := by intro e h; cases h; rfl
theorem clzL (f : LF) : Statement (.clzL f) := by intro e h; cases h; rfl
theorem ctzW (f : WF) : Statement (.ctzW f) := by intro e h; cases h; rfl
theorem ctzL (f : LF) : Statement (.ctzL f) := by intro e h; cases h; rfl
theorem brevW (f : WF) : Statement (.brevW f) := by intro e h; cases h; rfl
theorem brevL (f : LF) : Statement (.brevL f) := by intro e h; cases h; rfl
theorem bsel (f : LF) : Statement (.bsel f) := by intro e h; cases h; rfl
theorem cmpEqW (f : WF) : Statement (.cmpEqW f) := by intro e h; cases h; rfl
theorem cmpNeW (f : WF) : Statement (.cmpNeW f) := by intro e h; cases h; rfl
theorem cmpLtW (f : WF) : Statement (.cmpLtW f) := by intro e h; cases h; rfl
theorem cmpLeW (f : WF) : Statement (.cmpLeW f) := by intro e h; cases h; rfl
theorem cmpGtW (f : WF) : Statement (.cmpGtW f) := by intro e h; cases h; rfl
theorem cmpGeW (f : WF) : Statement (.cmpGeW f) := by intro e h; cases h; rfl
theorem cmpEqWi (f : WIF) : Statement (.cmpEqWi f) := by intro e h; cases h; rfl
theorem cmpNeWi (f : WIF) : Statement (.cmpNeWi f) := by intro e h; cases h; rfl
theorem cmpLtWi (f : WIF) : Statement (.cmpLtWi f) := by intro e h; cases h; rfl
theorem cmpLeWi (f : WIF) : Statement (.cmpLeWi f) := by intro e h; cases h; rfl
theorem cmpGtWi (f : WIF) : Statement (.cmpGtWi f) := by intro e h; cases h; rfl
theorem cmpGeWi (f : WIF) : Statement (.cmpGeWi f) := by intro e h; cases h; rfl
theorem cmpEqL (f : LF) : Statement (.cmpEqL f) := by intro e h; cases h; rfl
theorem cmpNeL (f : LF) : Statement (.cmpNeL f) := by intro e h; cases h; rfl
theorem cmpLtL (f : LF) : Statement (.cmpLtL f) := by intro e h; cases h; rfl
theorem cmpLeL (f : LF) : Statement (.cmpLeL f) := by intro e h; cases h; rfl
theorem cmpGtL (f : LF) : Statement (.cmpGtL f) := by intro e h; cases h; rfl
theorem cmpGeL (f : LF) : Statement (.cmpGeL f) := by intro e h; cases h; rfl
theorem sel (f : LF) : Statement (.sel f) := by intro e h; cases h; rfl
theorem add64 (f : LF) : Statement (.add64 f) := by intro e h; cases h; rfl
theorem lea64 (f : LF) : Statement (.lea64 f) := by intro e h; cases h; rfl
theorem addF32W (f : WF) : Statement (.addF32W f) := by intro e h; cases h; rfl
theorem addFloatL (f : LF) : Statement (.addFloatL f) := by intro e h; cases h; rfl
theorem subF32W (f : WF) : Statement (.subF32W f) := by intro e h; cases h; rfl
theorem subFloatL (f : LF) : Statement (.subFloatL f) := by intro e h; cases h; rfl
theorem mulF32W (f : WF) : Statement (.mulF32W f) := by intro e h; cases h; rfl
theorem mulFloatL (f : LF) : Statement (.mulFloatL f) := by intro e h; cases h; rfl
theorem fma (f : LF) : Statement (.fma f) := by intro e h; cases h; rfl
theorem minF32W (f : WF) : Statement (.minF32W f) := by intro e h; cases h; rfl
theorem minFloatL (f : LF) : Statement (.minFloatL f) := by intro e h; cases h; rfl
theorem maxF32W (f : WF) : Statement (.maxF32W f) := by intro e h; cases h; rfl
theorem maxFloatL (f : LF) : Statement (.maxFloatL f) := by intro e h; cases h; rfl
theorem minpW (f : WF) : Statement (.minpW f) := by intro e h; cases h; rfl
theorem minpL (f : LF) : Statement (.minpL f) := by intro e h; cases h; rfl
theorem maxpW (f : WF) : Statement (.maxpW f) := by intro e h; cases h; rfl
theorem maxpL (f : LF) : Statement (.maxpL f) := by intro e h; cases h; rfl
theorem absF32W (f : WF) : Statement (.absF32W f) := by intro e h; cases h; rfl
theorem absFloatL (f : LF) : Statement (.absFloatL f) := by intro e h; cases h; rfl
theorem negF32W (f : WF) : Statement (.negF32W f) := by intro e h; cases h; rfl
theorem negFloatL (f : LF) : Statement (.negFloatL f) := by intro e h; cases h; rfl
theorem clsW (f : WF) : Statement (.clsW f) := by intro e h; cases h; rfl
theorem clsL (f : LF) : Statement (.clsL f) := by intro e h; cases h; rfl
theorem cmpEqF32W (f : WF) : Statement (.cmpEqF32W f) := by intro e h; cases h; rfl
theorem cmpNeF32W (f : WF) : Statement (.cmpNeF32W f) := by intro e h; cases h; rfl
theorem cmpLtF32W (f : WF) : Statement (.cmpLtF32W f) := by intro e h; cases h; rfl
theorem cmpLeF32W (f : WF) : Statement (.cmpLeF32W f) := by intro e h; cases h; rfl
theorem cmpGtF32W (f : WF) : Statement (.cmpGtF32W f) := by intro e h; cases h; rfl
theorem cmpGeF32W (f : WF) : Statement (.cmpGeF32W f) := by intro e h; cases h; rfl
theorem cmpEqFloatL (f : LF) : Statement (.cmpEqFloatL f) := by intro e h; cases h; rfl
theorem cmpNeFloatL (f : LF) : Statement (.cmpNeFloatL f) := by intro e h; cases h; rfl
theorem cmpLtFloatL (f : LF) : Statement (.cmpLtFloatL f) := by intro e h; cases h; rfl
theorem cmpLeFloatL (f : LF) : Statement (.cmpLeFloatL f) := by intro e h; cases h; rfl
theorem cmpGtFloatL (f : LF) : Statement (.cmpGtFloatL f) := by intro e h; cases h; rfl
theorem cmpGeFloatL (f : LF) : Statement (.cmpGeFloatL f) := by intro e h; cases h; rfl
theorem rcpW (f : WF) : Statement (.rcpW f) := by intro e h; cases h; rfl
theorem rcpL (f : LF) : Statement (.rcpL f) := by intro e h; cases h; rfl
theorem rsqW (f : WF) : Statement (.rsqW f) := by intro e h; cases h; rfl
theorem rsqL (f : LF) : Statement (.rsqL f) := by intro e h; cases h; rfl
theorem sqrtW (f : WF) : Statement (.sqrtW f) := by intro e h; cases h; rfl
theorem sqrtL (f : LF) : Statement (.sqrtL f) := by intro e h; cases h; rfl
theorem divW (f : WF) : Statement (.divW f) := by intro e h; cases h; rfl
theorem divL (f : LF) : Statement (.divL f) := by intro e h; cases h; rfl
theorem exp2W (f : WF) : Statement (.exp2W f) := by intro e h; cases h; rfl
theorem exp2L (f : LF) : Statement (.exp2L f) := by intro e h; cases h; rfl
theorem log2W (f : WF) : Statement (.log2W f) := by intro e h; cases h; rfl
theorem log2L (f : LF) : Statement (.log2L f) := by intro e h; cases h; rfl
theorem sinpW (f : WF) : Statement (.sinpW f) := by intro e h; cases h; rfl
theorem sinpL (f : LF) : Statement (.sinpL f) := by intro e h; cases h; rfl
theorem cospW (f : WF) : Statement (.cospW f) := by intro e h; cases h; rfl
theorem cospL (f : LF) : Statement (.cospL f) := by intro e h; cases h; rfl
theorem frcW (f : WF) : Statement (.frcW f) := by intro e h; cases h; rfl
theorem frcL (f : LF) : Statement (.frcL f) := by intro e h; cases h; rfl
theorem rintW (f : WF) : Statement (.rintW f) := by intro e h; cases h; rfl
theorem rintL (f : LF) : Statement (.rintL f) := by intro e h; cases h; rfl
theorem ldexpW (f : WF) : Statement (.ldexpW f) := by intro e h; cases h; rfl
theorem ldexpL (f : LF) : Statement (.ldexpL f) := by intro e h; cases h; rfl
theorem dot2 (f : LF) : Statement (.dot2 f) := by intro e h; cases h; rfl
theorem cmul (f : LF) : Statement (.cmul f) := by intro e h; cases h; rfl
theorem bfly (f : LF) : Statement (.bfly f) := by intro e h; cases h; rfl
theorem twid (f : LF) : Statement (.twid f) := by intro e h; cases h; rfl
theorem cvt (f : LF) : Statement (.cvt f) := by intro e h; cases h; rfl
theorem pkW (f : WF) : Statement (.pkW f) := by intro e h; cases h; rfl
theorem pkL (f : LF) : Statement (.pkL f) := by intro e h; cases h; rfl
theorem upkW (f : WF) : Statement (.upkW f) := by intro e h; cases h; rfl
theorem upkL (f : LF) : Statement (.upkL f) := by intro e h; cases h; rfl
theorem qblk (f : LF) : Statement (.qblk f) := by intro e h; cases h; rfl
theorem dqblk (f : LF) : Statement (.dqblk f) := by intro e h; cases h; rfl
theorem shufIdxW (f : WF) : Statement (.shufIdxW f) := by intro e h; cases h; rfl
theorem shufIdxL (f : LF) : Statement (.shufIdxL f) := by intro e h; cases h; rfl
theorem shufUpW (f : WF) : Statement (.shufUpW f) := by intro e h; cases h; rfl
theorem shufUpL (f : LF) : Statement (.shufUpL f) := by intro e h; cases h; rfl
theorem shufDnW (f : WF) : Statement (.shufDnW f) := by intro e h; cases h; rfl
theorem shufDnL (f : LF) : Statement (.shufDnL f) := by intro e h; cases h; rfl
theorem shufXorW (f : WF) : Statement (.shufXorW f) := by intro e h; cases h; rfl
theorem shufXorL (f : LF) : Statement (.shufXorL f) := by intro e h; cases h; rfl
theorem voteAnyW (f : WF) : Statement (.voteAnyW f) := by intro e h; cases h; rfl
theorem voteAnyL (f : LF) : Statement (.voteAnyL f) := by intro e h; cases h; rfl
theorem voteAllW (f : WF) : Statement (.voteAllW f) := by intro e h; cases h; rfl
theorem voteAllL (f : LF) : Statement (.voteAllL f) := by intro e h; cases h; rfl
theorem voteBalW (f : WF) : Statement (.voteBalW f) := by intro e h; cases h; rfl
theorem voteBalL (f : LF) : Statement (.voteBalL f) := by intro e h; cases h; rfl
theorem redcAddW (f : WF) : Statement (.redcAddW f) := by intro e h; cases h; rfl
theorem redcAddL (f : LF) : Statement (.redcAddL f) := by intro e h; cases h; rfl
theorem redcMinW (f : WF) : Statement (.redcMinW f) := by intro e h; cases h; rfl
theorem redcMinL (f : LF) : Statement (.redcMinL f) := by intro e h; cases h; rfl
theorem redcMaxW (f : WF) : Statement (.redcMaxW f) := by intro e h; cases h; rfl
theorem redcMaxL (f : LF) : Statement (.redcMaxL f) := by intro e h; cases h; rfl
theorem ld (z : LdSize) (f : LF) : Statement (.ld z f) := by intro e h; cases z <;> cases h <;> rfl
theorem st (z : StSize) (f : LF) : Statement (.st z f) := by intro e h; cases z <;> cases h <;> rfl
theorem lds (z : LdSize) (f : LF) : Statement (.lds z f) := by intro e h; cases z <;> cases h <;> rfl
theorem sts (z : StSize) (f : LF) : Statement (.sts z f) := by intro e h; cases z <;> cases h <;> rfl
theorem sldt (f : LF) : Statement (.sldt f) := by intro e h; cases h; rfl
theorem atom (z : AtomOp) (f : LF) : Statement (.atom z f) := by intro e h; cases z <;> cases h <;> rfl
theorem atoms (z : AtomOp) (f : LF) : Statement (.atoms z f) := by intro e h; cases z <;> cases h <;> rfl
theorem pf (f : LF) : Statement (.pf f) := by intro e h; cases h; rfl
theorem cpa (f : LF) : Statement (.cpa f) := by intro e h; cases h; rfl
theorem cpw (f : WF) : Statement (.cpw f) := by intro e h; cases h; rfl
theorem cpq (f : WF) : Statement (.cpq f) := by intro e h; cases h; rfl
theorem bcopy (f : LF) : Statement (.bcopy f) := by intro e h; cases h; rfl
theorem lease (f : LF) : Statement (.lease f) := by intro e h; cases h; rfl
theorem unlease (f : WF) : Statement (.unlease f) := by intro e h; cases h; rfl
theorem mtask (f : LF) : Statement (.mtask f) := by intro e h; cases h; rfl
theorem accz (f : LF) : Statement (.accz f) := by intro e h; cases h; rfl
theorem accld (f : LF) : Statement (.accld f) := by intro e h; cases h; rfl
theorem accst (f : LF) : Statement (.accst f) := by intro e h; cases h; rfl
theorem accdrain (f : LF) : Statement (.accdrain f) := by intro e h; cases h; rfl
theorem br (f : LIF) : Statement (.br f) := by intro e h; cases h; rfl
theorem bcT (f : LIF) : Statement (.bcT f) := by intro e h; cases h; rfl
theorem bcF (f : LIF) : Statement (.bcF f) := by intro e h; cases h; rfl
theorem brx (f : WF) : Statement (.brx f) := by intro e h; cases h; rfl
theorem call (f : LIF) : Statement (.call f) := by intro e h; cases h; rfl
theorem ret (f : WF) : Statement (.ret f) := by intro e h; cases h; rfl
theorem fork (f : LF) : Statement (.fork f) := by intro e h; cases h; rfl
theorem halt (f : WF) : Statement (.halt f) := by intro e h; cases h; rfl
theorem yield (f : WF) : Statement (.yield f) := by intro e h; cases h; rfl
theorem trap (f : WIF) : Statement (.trap f) := by intro e h; cases h; rfl
theorem brk (f : WIF) : Statement (.brk f) := by intro e h; cases h; rfl
theorem bar (f : WIF) : Statement (.bar f) := by intro e h; cases h; rfl
theorem barArv (f : WIF) : Statement (.barArv f) := by intro e h; cases h; rfl
theorem barWt (f : WIF) : Statement (.barWt f) := by intro e h; cases h; rfl
theorem gbar (f : WIF) : Statement (.gbar f) := by intro e h; cases h; rfl
theorem fence (f : WIF) : Statement (.fence f) := by intro e h; cases h; rfl
theorem vfence (f : WF) : Statement (.vfence f) := by intro e h; cases h; rfl
theorem sigAdd (f : LF) : Statement (.sigAdd f) := by intro e h; cases h; rfl
theorem sigSet (f : LF) : Statement (.sigSet f) := by intro e h; cases h; rfl
theorem sigRead (f : LF) : Statement (.sigRead f) := by intro e h; cases h; rfl
theorem sigw (f : LF) : Statement (.sigw f) := by intro e h; cases h; rfl
theorem enq (f : LF) : Statement (.enq f) := by intro e h; cases h; rfl
theorem wwait (f : LF) : Statement (.wwait f) := by intro e h; cases h; rfl
theorem ctrAdd (f : LF) : Statement (.ctrAdd f) := by intro e h; cases h; rfl
theorem ctrRead (f : LF) : Statement (.ctrRead f) := by intro e h; cases h; rfl
theorem ctrSet (f : LF) : Statement (.ctrSet f) := by intro e h; cases h; rfl
theorem tsend (f : LF) : Statement (.tsend f) := by intro e h; cases h; rfl
theorem invoke (f : LF) : Statement (.invoke f) := by intro e h; cases h; rfl
theorem hwait (f : LF) : Statement (.hwait f) := by intro e h; cases h; rfl
theorem hstat (f : LF) : Statement (.hstat f) := by intro e h; cases h; rfl
theorem timeI (f : WF) : Statement (.timeI f) := by intro e h; cases h; rfl
theorem evt (f : LF) : Statement (.evt f) := by intro e h; cases h; rfl
theorem perf (f : LF) : Statement (.perf f) := by intro e h; cases h; rfl
theorem sysr (f : WIF) : Statement (.sysr f) := by intro e h; cases h; rfl
theorem resreq (f : LF) : Statement (.resreq f) := by intro e h; cases h; rfl
theorem join : Statement .join := by intro e h; cases h; rfl
theorem nop : Statement .nop := by intro e h; cases h; rfl
theorem nopG : Statement .nopG := by intro e h; cases h; rfl
theorem doorbell (vf : Nat) (value : DWord) : Statement (.doorbell vf value) := nofun
theorem packetFetch (q : Nat) : Statement (.packetFetch q) := nofun
theorem kernelPacket (p : Nat) : Statement (.kernelPacket p) := nofun
theorem graphPacket (p : Nat) : Statement (.graphPacket p) := nofun
theorem copyPacket (p : Nat) : Statement (.copyPacket p) := nofun
theorem tilePacket (p : Nat) : Statement (.tilePacket p) := nofun
theorem collectivePacket (p : Nat) : Statement (.collectivePacket p) := nofun
theorem invokePacket (p : Nat) : Statement (.invokePacket p) := nofun
theorem barrierAll (p : Nat) : Statement (.barrierAll p) := nofun
theorem barrierAny (p : Nat) : Statement (.barrierAny p) := nofun
theorem barrierEvaluate (p : Nat) : Statement (.barrierEvaluate p) := nofun
theorem barrierPacketTimeout (p : Nat) : Statement (.barrierPacketTimeout p) := nofun
theorem signalSet (p : Nat) : Statement (.signalSet p) := nofun
theorem signalDec (p : Nat) : Statement (.signalDec p) := nofun
theorem queueDrain (q : Nat) : Statement (.queueDrain q) := nofun
theorem queueMap (slot : Nat) : Statement (.queueMap slot) := nofun
theorem quantumEnd (slot : Nat) : Statement (.quantumEnd slot) := nofun
theorem priorityAging (q : Nat) : Statement (.priorityAging q) := nofun
theorem queueCreate (vf : Nat) : Statement (.queueCreate vf) := nofun
theorem queueReset (vf : Nat) : Statement (.queueReset vf) := nofun
theorem queueSet (vf : Nat) : Statement (.queueSet vf) := nofun
theorem queueDestroy (vf : Nat) : Statement (.queueDestroy vf) := nofun
theorem decodeLoad (vf : Nat) : Statement (.decodeLoad vf) := nofun
theorem regionSet (vf : Nat) : Statement (.regionSet vf) := nofun
theorem regionClear (vf : Nat) : Statement (.regionClear vf) := nofun
theorem templateSet (vf : Nat) : Statement (.templateSet vf) := nofun
theorem templateClear (vf : Nat) : Statement (.templateClear vf) := nofun
theorem genBump (vf : Nat) : Statement (.genBump vf) := nofun
theorem resDone (vf : Nat) : Statement (.resDone vf) := nofun
theorem resringSet (vf : Nat) : Statement (.resringSet vf) := nofun
theorem kill (vf : Nat) : Statement (.kill vf) := nofun
theorem traceLevel (vf : Nat) : Statement (.traceLevel vf) := nofun
theorem ringSize (vf : Nat) : Statement (.ringSize vf) := nofun
theorem saggarRead (vf : Nat) : Statement (.saggarRead vf) := nofun
theorem saggarClear (vf : Nat) : Statement (.saggarClear vf) := nofun
theorem waitRead (vf : Nat) : Statement (.waitRead vf) := nofun
theorem sampleSet (vf : Nat) : Statement (.sampleSet vf) := nofun
theorem perfSelect (vf : Nat) : Statement (.perfSelect vf) := nofun
theorem perfRead (vf : Nat) : Statement (.perfRead vf) := nofun
theorem healthRead (vf : Nat) : Statement (.healthRead vf) := nofun
theorem checkRead (vf : Nat) : Statement (.checkRead vf) := nofun
theorem dbgAttach (vf : Nat) : Statement (.dbgAttach vf) := nofun
theorem greenRead (vf : Nat) : Statement (.greenRead vf) := nofun
theorem greenQuota (vf : Nat) : Statement (.greenQuota vf) := nofun
theorem commCreate (vf : Nat) : Statement (.commCreate vf) := nofun
theorem commAdmit (vf : Nat) : Statement (.commAdmit vf) := nofun
theorem ckptSet (vf : Nat) : Statement (.ckptSet vf) := nofun
theorem ckptTake (vf : Nat) : Statement (.ckptTake vf) := nofun
theorem ckptTakeDone (vf : Nat) : Statement (.ckptTakeDone vf) := nofun
theorem ckptRead (vf : Nat) : Statement (.ckptRead vf) := nofun
theorem spareFill (vf : Nat) : Statement (.spareFill vf) := nofun
theorem spareFillDone (vf : Nat) (sourceOk : Bool) : Statement (.spareFillDone vf sourceOk) := nofun
theorem exportMem (vf : Nat) : Statement (.exportMem vf) := nofun
theorem unexportMem (vf : Nat) : Statement (.unexportMem vf) := nofun
theorem unexportTimeout (vf : Nat) : Statement (.unexportTimeout vf) := nofun
theorem partSet (vf : Nat) : Statement (.partSet vf) := nofun
theorem vfSlice (vf : Nat) : Statement (.vfSlice vf) := nofun
theorem vfQuota (vf : Nat) : Statement (.vfQuota vf) := nofun
theorem vfReset (vf : Nat) : Statement (.vfReset vf) := nofun
theorem profileSet (vf : Nat) : Statement (.profileSet vf) := nofun
theorem profilePauseEnd : Statement .profilePauseEnd := nofun
theorem imageStage (vf : Nat) : Statement (.imageStage vf) := nofun
theorem imageActivate (vf : Nat) : Statement (.imageActivate vf) := nofun
theorem schedPin (vf : Nat) : Statement (.schedPin vf) := nofun
theorem flushInbound (vf : Nat) (value : DWord) : Statement (.flushInbound vf value) := nofun
theorem flushOutbound (vf : Nat) (value : DWord) : Statement (.flushOutbound vf value) := nofun
theorem flushBoth (vf : Nat) (value : DWord) : Statement (.flushBoth vf value) := nofun
theorem flushDone (vf : Nat) : Statement (.flushDone vf) := nofun
theorem featureCommit (vf : Nat) : Statement (.featureCommit vf) := nofun
theorem registerWrite (vf : Nat) (offset : Nat) (value : DWord) : Statement (.registerWrite vf offset value) := nofun
theorem barWrite (vf : Nat) (gpa : Nat) (data : List Byte) : Statement (.barWrite vf gpa data) := nofun
theorem barRead (vf : Nat) (what : OutRead) (n : Nat) : Statement (.barRead vf what n) := nofun
theorem hostWindowAccess (offset : Nat) (n : Nat) (write : Option (List Byte)) : Statement (.hostWindowAccess offset n write) := nofun
theorem accessPerformed (ref : Nat) : Statement (.accessPerformed ref) := nofun
theorem responseArrival (ref : Nat) : Statement (.responseArrival ref) := nofun
theorem errorResponse (ref : Nat) : Statement (.errorResponse ref) := nofun
theorem cpaLand (ref : Nat) : Statement (.cpaLand ref) := nofun
theorem wakeDelivery (ref : Nat) : Statement (.wakeDelivery ref) := nofun
theorem sigwEvaluate (fibre : Nat) : Statement (.sigwEvaluate fibre) := nofun
theorem sigwTimeout (fibre : Nat) : Statement (.sigwTimeout fibre) := nofun
theorem hwaitTimeout (fibre : Nat) : Statement (.hwaitTimeout fibre) := nofun
theorem joinRelease (crew part jgrp : Nat) : Statement (.joinRelease crew part jgrp) := nofun
theorem cohortMerge (a b : Nat) : Statement (.cohortMerge a b) := nofun
theorem lateWriteSplit (cohort : Nat) : Statement (.lateWriteSplit cohort) := nofun
theorem bankDrowsy (core part bank : Nat) : Statement (.bankDrowsy core part bank) := nofun
theorem crewStart (grid core part : Nat) : Statement (.crewStart grid core part) := nofun
theorem crewRetire (crew : Nat) : Statement (.crewRetire crew) := nofun
theorem gridKill (grid : Nat) : Statement (.gridKill grid) := nofun
theorem handlerFibreStart (fibre : Nat) : Statement (.handlerFibreStart fibre) := nofun
theorem handlerWindowTimeout (fibre : Nat) : Statement (.handlerWindowTimeout fibre) := nofun
theorem copyStart (chan : Nat) : Statement (.copyStart chan) := nofun
theorem copyDone (chan : Nat) : Statement (.copyDone chan) := nofun
theorem channelAccept (chan : Nat) : Statement (.channelAccept chan) := nofun
theorem apertureStart (ref : Nat) : Statement (.apertureStart ref) := nofun
theorem apertureJoin (ref : Nat) : Statement (.apertureJoin ref) := nofun
theorem tileIssue (core : Nat) : Statement (.tileIssue core) := nofun
theorem tileDone (core : Nat) : Statement (.tileDone core) := nofun
theorem accOpDone (core : Nat) : Statement (.accOpDone core) := nofun
theorem nodeDispatch (graph node : Nat) : Statement (.nodeDispatch graph node) := nofun
theorem nodeDone (graph node : Nat) : Statement (.nodeDone graph node) := nofun
theorem nodeScratchpadReserve (graph : Nat) : Statement (.nodeScratchpadReserve graph) := nofun
theorem dieIsolation (die : Nat) : Statement (.dieIsolation die) := nofun
theorem dieBoundaryFailure (boundary : Nat) : Statement (.dieBoundaryFailure boundary) := nofun
theorem boundaryMove (core boundary : Nat) : Statement (.boundaryMove core boundary) := nofun
theorem patrolScrub (stack granule : Nat) : Statement (.patrolScrub stack granule) := nofun
theorem scrubPendingZero (granule : Nat) : Statement (.scrubPendingZero granule) := nofun
theorem channelFailure (stack ch : Nat) : Statement (.channelFailure stack ch) := nofun
theorem granuleMove (stack : Nat) : Statement (.granuleMove stack) := nofun
theorem refreshManagement (stack ch row : Nat) : Statement (.refreshManagement stack ch row) := nofun
theorem throttleRetry (ref : Nat) : Statement (.throttleRetry ref) := nofun
theorem generationBump (asid : Nat) : Statement (.generationBump asid) := nofun
theorem pageMigration (vf gpa frame : Nat) : Statement (.pageMigration vf gpa frame) := nofun
theorem frameReassign (frame bytes fromVf toVf toGpa : Nat) : Statement (.frameReassign frame bytes fromVf toVf toGpa) := nofun
theorem residencyRequest (ref : Nat) : Statement (.residencyRequest ref) := nofun
theorem residencyWaitTimeout (ref : Nat) : Statement (.residencyWaitTimeout ref) := nofun
theorem stage2Repair (fibre : Nat) : Statement (.stage2Repair fibre) := nofun
theorem leaseExpire (lease : Nat) : Statement (.leaseExpire lease) := nofun
theorem preemptHalt (ctx reason : Nat) : Statement (.preemptHalt ctx reason) := nofun
theorem ctxSaved (ctx : Nat) : Statement (.ctxSaved ctx) := nofun
theorem ctxRestored (ctx : Nat) (cores : List (Nat × Nat)) : Statement (.ctxRestored ctx cores) := nofun
theorem migrateFwd (core : Nat) : Statement (.migrateFwd core) := nofun
theorem forwardEntryRemoval (core crew : Nat) : Statement (.forwardEntryRemoval core crew) := nofun
theorem moveReg (line fromCore toCore : Nat) : Statement (.moveReg line fromCore toCore) := nofun
theorem sliceEnd (vf : Nat) : Statement (.sliceEnd vf) := nofun
theorem fabRead (p : FabPkt) : Statement (.fabRead p) := nofun
theorem fabWrite (p : FabPkt) : Statement (.fabWrite p) := nofun
theorem fabWriteWake (p : FabPkt) : Statement (.fabWriteWake p) := nofun
theorem fabAtomic (p : FabPkt) : Statement (.fabAtomic p) := nofun
theorem respData (p : FabPkt) : Statement (.respData p) := nofun
theorem respAck (p : FabPkt) : Statement (.respAck p) := nofun
theorem respErr (p : FabPkt) : Statement (.respErr p) := nofun
theorem ctrInc (p : FabPkt) : Statement (.ctrInc p) := nofun
theorem collData (p : FabPkt) : Statement (.collData p) := nofun
theorem collRed (p : FabPkt) : Statement (.collRed p) := nofun
theorem collMcast (p : FabPkt) : Statement (.collMcast p) := nofun
theorem collDone (coll rank : Nat) : Statement (.collDone coll rank) := nofun
theorem witnessExpire (coll rank : Nat) : Statement (.witnessExpire coll rank) := nofun
theorem gwMsg (die : Nat) (m : GwMsg) : Statement (.gwMsg die m) := nofun
theorem handleFire (die index : Nat) (dev ldie : Nat) (op : DWord) : Statement (.handleFire die index dev ldie op) := nofun
theorem handleCrack (die index : Nat) (code : Nat) (op : DWord) : Statement (.handleCrack die index code op) := nofun
theorem greenRetry (die : Nat) (handle : DWord) : Statement (.greenRetry die handle) := nofun
theorem retentionEnd (die index : Nat) : Statement (.retentionEnd die index) := nofun
theorem greenOriginTimeout (ref : Nat) : Statement (.greenOriginTimeout ref) := nofun
theorem mgmt (p : FabPkt) (m : MgmtMsg) : Statement (.mgmt p m) := nofun
theorem dtcSample (port : Nat) (offset : Int) (locked : Bool) : Statement (.dtcSample port offset locked) := nofun
theorem dtcSampleSend (port : Nat) : Statement (.dtcSampleSend port) := nofun
theorem lost (dev : Nat) (die : Option Nat) : Statement (.lost dev die) := nofun
theorem fabTimeout (tag : Nat) : Statement (.fabTimeout tag) := nofun
theorem seqGapTimeout (src plane : Nat) : Statement (.seqGapTimeout src plane) := nofun
theorem linkRetryTimeout (port : Nat) : Statement (.linkRetryTimeout port) := nofun
theorem linkWidth (port lanes : Nat) : Statement (.linkWidth port lanes) := nofun
theorem linkStepUp (port : Nat) (passed : Bool) : Statement (.linkStepUp port passed) := nofun
theorem remoteSignalPoll (fibre : Nat) : Statement (.remoteSignalPoll fibre) := nofun
theorem ptpMessage (offset : Int) : Statement (.ptpMessage offset) := nofun
theorem timeStepDeferred : Statement .timeStepDeferred := nofun
theorem holdover : Statement .holdover := nofun
theorem tepochWrite (seconds : DWord) : Statement (.tepochWrite seconds) := nofun
theorem flueWrite (what : FlueStep) : Statement (.flueWrite what) := nofun
theorem powerSample (watts : Nat) : Statement (.powerSample watts) := nofun
theorem powerGood (badStacks : BitVec 16) (monitorOk : Bool) : Statement (.powerGood badStacks monitorOk) := nofun
theorem warmReset (requester : DWord) (badStacks : BitVec 16) (monitorOk : Bool) : Statement (.warmReset requester badStacks monitorOk) := nofun
theorem pcieFlr (vf : Nat) : Statement (.pcieFlr vf) := nofun
theorem modulePowerLoss : Statement .modulePowerLoss := nofun
theorem monitorReadyTimeout : Statement .monitorReadyTimeout := nofun
theorem debugRead (asid fibre : Nat) (what : DbgItem) : Statement (.debugRead asid fibre what) := nofun
theorem debugWrite (asid fibre : Nat) (what : DbgItem) (value : DWord) : Statement (.debugWrite asid fibre what value) := nofun
theorem debugStep (asid cohort : Nat) : Statement (.debugStep asid cohort) := nofun
theorem debugRelease (asid cohort : Nat) : Statement (.debugRelease asid cohort) := nofun
theorem getVersion (req : List Byte) : Statement (.getVersion req) := nofun
theorem getCapabilities (req : List Byte) : Statement (.getCapabilities req) := nofun
theorem negotiateAlgorithms (req : List Byte) : Statement (.negotiateAlgorithms req) := nofun
theorem getDigests (req : List Byte) : Statement (.getDigests req) := nofun
theorem getCertificate (req : List Byte) : Statement (.getCertificate req) := nofun
theorem challenge (req : List Byte) : Statement (.challenge req) := nofun
theorem getMeasurements (req : List Byte) : Statement (.getMeasurements req) := nofun
theorem undefinedOpcode (code : IllCode) : Statement (.undefinedOpcode code) := nofun
theorem flit (port : Nat) (f : FlitW) (intact : Bool) : Statement (.flit port f intact) := nofun
theorem pageEviction (vf gpa : Nat) : Statement (.pageEviction vf gpa) := nofun
theorem slotDrainDone (dev slot : Nat) : Statement (.slotDrainDone dev slot) := nofun
theorem pkeyInstall (vf : Nat) (what : FmInstall) : Statement (.pkeyInstall vf what) := nofun
theorem ptpDomainSet (domain : BitVec 8) : Statement (.ptpDomainSet domain) := nofun
theorem pluginCallTimeout (vf : Nat) : Statement (.pluginCallTimeout vf) := nofun

end Sys2Proof.Laws.Encoding
end

