-- ==== Sys2Proof/Tests/Slice0.lean ====
section
/-! SUPPORT. The model's own tests: ill-formed terms that `WellFormed` refuses, words written out from the spec's encodings, results worked in the
spec, and for the statements a state and operands that meet their hypotheses. -/

open Sys2Proof Sys2Proof.Machine

namespace Sys2Proof.Tests

/-! ### Ill-formed terms, one for each check of R54 -/

/-- `mov v0, v0` is the reserved halfword (R39). -/
theorem test_wf_marker : (Instr.movH ⟨0, 0, 0⟩).staticCheck = some .marker := by decide
/-- An unused field that is not 63 (R43): C of `add` in L. -/
theorem test_wf_unused : (Instr.addL ⟨0, 0, 0, 0, 0, 0, 5, 2, 1, 3⟩).staticCheck = some .reserved := by decide
/-- MOD that the entry does not define (R67): MOD[46] of `add`. -/
theorem test_wf_mod : (Instr.addL ⟨0, 4, 0, 0, 0, 0, 63, 2, 1, 3⟩).staticCheck = some .reserved := by decide
/-- An immediate that the entry does not define (R71): a bit field that leaves the word. -/
theorem test_wf_imm : (Instr.bfx ⟨0x41F, 0, 0, 0, 0, 0, 63, 63, 1, 3⟩).staticCheck = some .reserved := by decide
/-- A bit number out of range (R73). -/
theorem test_wf_bit : (Instr.cmpLtWi ⟨10, 4, 32⟩).staticCheck = some .reserved := by decide
/-- The zero field of LI (R40). -/
theorem test_wf_zero : (Instr.li ⟨0x2000, 1, 0, 0, 63, 4⟩).staticCheck = some .reserved := by decide
/-- NW = 1 with a destination (R44). -/
theorem test_wf_nw : (Instr.addW ⟨0, 1, 2, 1, 3⟩).staticCheck = some .reserved := by decide
/-- A guard bit without a guard (R48). -/
theorem test_wf_guard : (Instr.addL ⟨0, 0, 0, 0, 0, 3, 63, 2, 1, 3⟩).staticCheck = some .reserved := by decide
/-- A latch as destination (R42). -/
theorem test_wf_dest : (Instr.addW ⟨0, 0, 2, 1, 60⟩).staticCheck = some .dest := by decide
/-- An odd pair (R43). -/
theorem test_wf_pair : (Instr.add64 ⟨64, 8, 0, 0, 0, 0, 63, 63, 6, 7⟩).staticCheck = some .pair := by decide
/-- A quad that is no multiple of 4 (R127), a block of `enq` named by a latch (R186). -/
theorem test_wf_quad : (Instr.bfly ⟨0, 0, 0, 0, 0, 0, 10, 8, 6, 14⟩).staticCheck = some .pair := by decide
theorem test_wf_block : (Instr.enq ⟨0, 0, 0, 0, 0, 0, 63, 60, 4, 63⟩).staticCheck = some .pair := by decide

/-! ### Words worked in the spec -/

/-- The words of spec/03 (R60): `add.s32 v3, v3, v7`; `add.f32 v8, v9, b0` guarded by `pw.0`; `fma.f32` guarded by `!pw.3`; `li v4, #0x2000`. -/
theorem test_words_03 :
    decode [0x62, 0x1C] = .ok (.addS32H ⟨0, 7, 3⟩) 2 ∧
    decode (natBytes 4 0xBC24_8201) = .ok (.addF32W ⟨1, 0, 60, 9, 8⟩) 4 ∧
    decode (natBytes 8 0x0000_0633_CE34_C20F) = .ok (.fma ⟨0, 0, 0, 1, 1, 3, 15, 14, 13, 12⟩) 8 ∧
    decode [0x07, 0x40, 0xFC, 0x00, 0x00, 0x20, 0x00, 0x00] = .ok (.li ⟨0x2000, 0, 0, 0, 63, 4⟩) 8 := by decide
/-- The words of spec/04: `cmp.le`, `add v2, v2, v1`, `add v1, v1, #-1`. -/
theorem test_words_04 :
    decode (natBytes 4 (0x18D + 0x1000 + 0x4_0000)) = .ok (.cmpLeWi ⟨0, 1, 1⟩) 4 ∧
    decode (natBytes 2 0x0442) = .ok (.addS32H ⟨0, 1, 2⟩) 2 ∧
    decode (natBytes 4 0xFF04_1109) = .ok (.addWi ⟨0xFF, 1, 1⟩) 4 ∧
    decode (natBytes 4 (0xA19 + 0x3_F000 + 0xFC_0000 + 0x3F00_0000)) = .ok .join 4 := by decide
/-- The words of spec/06: conversion, `fma.f64`, `add.f32.rdn`, `twid`, `bfly`. -/
theorem test_words_06 :
    decode (natBytes 8 0x0006_000F_FF24_7403) = .ok (.cvt ⟨6, 0, 0, 0, 0, 0, 63, 63, 9, 7⟩) 8 ∧
    decode (natBytes 8 0x0000_3003_8C28_820F) = .ok (.fma ⟨0, 3, 0, 0, 0, 0, 14, 12, 10, 8⟩) 8 ∧
    decode (natBytes 8 0x0002_000F_FF10_A2CF) = .ok (.twid ⟨2, 0, 0, 0, 0, 0, 63, 63, 4, 10⟩) 8 ∧
    decode (natBytes 8 0x0000_0002_8818_C2CB) = .ok (.bfly ⟨0, 0, 0, 0, 0, 0, 10, 8, 6, 12⟩) 8 := by decide
/-- The words of spec/07 and the fields of `ld`, `st`, `atom` and `lds` as R133, R140 and R142 give them. -/
theorem test_words_07 :
    decode (natBytes 8 0x0001_800F_FF10_550F) = .ok (.shufXorL ⟨1, 8, 0, 0, 0, 0, 63, 63, 4, 5⟩) 8 ∧
    decode (natBytes 8 0x0000_200F_FF08_3543) = .ok (.redcAddL ⟨0, 2, 0, 0, 0, 0, 63, 63, 2, 3⟩) 8 := by decide
/-- The words of spec/08: `cpa.b256.t2 v8, [v6+#64], v9`, `bcopy v20, v4`, `mtask v20, v4`, and `unlease v7` by R164. -/
theorem test_words_08 :
    decode (natBytes 8 0x2040_3002_481B_F803) = .ok (.cpa ⟨0x2040, 3, 0, 0, 0, 0, 9, 8, 6, 63⟩) 8 ∧
    decode (natBytes 8 0x0000_000F_FF11_4823) = .ok (.bcopy ⟨0, 0, 0, 0, 0, 0, 63, 63, 4, 20⟩) 8 ∧
    decode (natBytes 8 0x0000_000F_FF11_4903) = .ok (.mtask ⟨0, 0, 0, 0, 0, 0, 63, 63, 4, 20⟩) 8 ∧
    decode (natBytes 4 (0x211 * 4 + 1 + 63 * 2 ^ 12 + 7 * 2 ^ 18 + 63 * 2 ^ 24)) = .ok (.unlease ⟨0, 0, 63, 7, 63⟩) 4 := by decide
/-- The words of spec/09. -/
theorem test_words_09 :
    decode (natBytes 4 0x03FF_FB01) = .ok (.bar ⟨3, 63, 63⟩) 4 ∧
    decode (natBytes 4 0x0017_FB0D) = .ok (.gbar ⟨0, 5, 63⟩) 4 ∧
    decode (natBytes 4 0x3FFF_FB25) = .ok (.vfence ⟨0, 0, 63, 63, 63⟩) 4 ∧
    decode (natBytes 8 0x5000_200F_CC10_AB43) = .ok (.sigAdd ⟨0x5000, 2, 0, 0, 0, 0, 63, 12, 4, 10⟩) 8 ∧
    decode (natBytes 8 0x5000_0003_8C10_AB4F) = .ok (.sigw ⟨0x5000, 0, 0, 0, 0, 0, 14, 12, 4, 10⟩) 8 ∧
    decode (natBytes 8 0x0000_000F_FF11_4C23) = .ok (.tsend ⟨0, 0, 0, 0, 0, 0, 63, 63, 4, 20⟩) 8 ∧
    decode (natBytes 4 0x3FFC_2D01) = .ok (.timeI ⟨0, 0, 63, 63, 2⟩) 4 ∧
    decode (natBytes 4 0x0DFC_3D0D) = .ok (.sysr ⟨13, 63, 3⟩) 4 := by decide
/-- The words of spec/10, spec/19, spec/21 and spec/23. -/
theorem test_words_programs :
    decode (natBytes 4 0x00FF_FB01) = .ok (.bar ⟨0, 63, 63⟩) 4 ∧
    decode (natBytes 2 0x0A2C) = .ok (.xorH ⟨0, 2, 17⟩) 2 ∧
    decode (natBytes 8 0x0000_000F_D04B_F66B) = .ok (.sts .b32 ⟨0, 0, 0, 0, 0, 0, 63, 16, 18, 63⟩) 8 ∧
    decode (natBytes 8 0x0007_100F_CB30_E0A7) = .ok (.lea64 ⟨7, 1, 0, 0, 0, 0, 63, 11, 12, 14⟩) 8 ∧
    decode (natBytes 8 0x0057_100F_FF55_667B) = .ok (.sldt ⟨0x57, 1, 0, 0, 0, 0, 63, 63, 21, 22⟩) 8 ∧
    decode (natBytes 8 (0xC23 + 0x1_4000 + 0x2C_0000 + 0x3F00_0000 + 0xC000_0000 + (0xF + 0x10 + 0x400) * 2 ^ 32)) =
      .ok (.tsend ⟨0, 0, 0, 1, 0, 1, 63, 63, 11, 20⟩) 8 ∧
    decode (natBytes 8 (0xC43 + 0xA000 + 0x10_0000 + 0x3F00_0000 + 0xC000_0000 + 0xF * 2 ^ 32)) = .ok (.invoke ⟨0, 0, 0, 0, 0, 0, 63, 63, 4, 10⟩) 8 ∧
    decode (natBytes 8 (0xC47 + 0x1_2000 + 0x38_0000 + 0x3F00_0000 + 0xC000_0000 + 0xF * 2 ^ 32)) = .ok (.hwait ⟨0, 0, 0, 0, 0, 0, 63, 63, 14, 18⟩) 8 ∧
    decode (natBytes 8 (0xB73 + 0xD000 + 0x18_0000 + 0x0A00_0000 + 0xC000_0000 + 0xF * 2 ^ 32)) = .ok (.wwait ⟨0, 0, 0, 0, 0, 0, 63, 10, 6, 13⟩) 8 := by decide
/-- Every opcode and format bit of R39, R40 and R52 at its place: one word of each remaining kind, written as the sum of its fields. -/
theorem test_words_fields :
    decode (natBytes 8 (0x182 * 4 + 3 + 5 * 2 ^ 12 + 6 * 2 ^ 18 + 63 * 2 ^ 24 + 63 * 2 ^ 30 + 0x10 * 2 ^ 48)) =
      .ok (.ld .b32 ⟨0x10, 0, 0, 0, 0, 0, 63, 63, 6, 5⟩) 8 ∧
    decode (natBytes 2 (31 * 2 ^ 10 + 1 * 2 ^ 5 + 3 * 2 + 2 ^ 15)) = .ok (.mulS32H ⟨1, 31, 1⟩) 2 ∧
    decode (natBytes 8 (0x280 * 4 + 3 + 63 * 2 ^ 12 + 63 * 2 ^ 18 + 0xFFFF_FFFE * 2 ^ 32)) = .ok (.br ⟨0xFFFF_FFFE, 0, 0, 0, 63, 63⟩) 8 ∧
    decode (natBytes 4 (0x28B * 4 + 1 + 63 * 2 ^ 12 + 63 * 2 ^ 18 + 7 * 2 ^ 24)) = .ok (.trap ⟨7, 63, 63⟩) 4 := by decide

/-- R40, R84: `nop` (0x28A) in W with D, A and B at 63, without and with G; a D of 0 is reserved. -/
theorem test_decode_nop :
    decode (natBytes 4 (0x28A * 4 + 1 + 63 * 2 ^ 12 + 63 * 2 ^ 18 + 63 * 2 ^ 24)) = .ok .nop 4 ∧
    decode (natBytes 4 (0x28A * 4 + 1 + 63 * 2 ^ 12 + 63 * 2 ^ 18 + 63 * 2 ^ 24 + 2 ^ 31)) = .ok .nopG 4 ∧
    decode (natBytes 4 (0x28A * 4 + 1 + 63 * 2 ^ 18 + 63 * 2 ^ 24)) = .ill .reserved := by decide


/-! ### States that meet the hypotheses of the statements

`ready` is the machine of `bootState` with its one cohort about to issue: fibre 3 of crew 2 and grid 1, a window of 60 registers, a scratchpad of
4 KiB, the first GiB at virtual address 0, every feature accepted. `lane` has 0x40000 in v4 and v5, 3 in v6, 0x100 in v8 and 1 in v10. -/

/-- Its page tables, written out. -/
def tables : List Host.Cell :=
  [(131072, 1), (131073, 16), (131074, 2), (135168, 1), (135169, 32), (135170, 2), (139264, 59), (147456, 1), (147457, 80), (147458, 2), (151552, 1),
   (151553, 96), (151554, 2), (155648, 59)]
theorem tables_spec : (bootState State.reset []).mem = tables := by decide
/-- The machine about to issue its cohort. -/
def ready : State := { bootState State.reset [] with mem := tables, cur := some ⟨0, 0, 3⟩, agenda := [] }
/-- Its lane. -/
def lane : Fibre := (bootFibre 3 2).setRegs [(4, 0x40000), (6, 3), (8, 0x100), (10, 1)]
/-- The machine with a given lane. -/
def having (l : Fibre) : State := { ready with fibres := [l] }
def at0 : State := having lane

/-- The premises of `SoleLane`, and a further one that may speak of the encoding and its operand uses, as a check that runs. -/
def soleE (i : Instr) (s : State) (l : Fibre) (p : Enc → Usage → Bool) : Bool :=
  match i.enc, i.usage with
  | some e, some u =>
    decide (e.staticCheck u = none) && decide (s.lanes ≠ []) &&
    s.lanes.all (fun f => !featureMissing s i f && e.windowOk u f.ws && f.badParity.isEmpty && (!laneGuard e f || decide (operandTrap e u f = none))) &&
    !cohortWaits e u s.lanes && decide (sources e s = [l]) && decide (l.lane < 32) && p e u
  | _, _ => false

/-- A check that runs means that the premises are met together. -/
theorem soleE_spec {i : Instr} {s : State} {l : Fibre} {p : Enc → Usage → Bool} (h : soleE i s l p = true) :
    ∃ e u, SoleLane i e u s l ∧ p e u = true := by
  unfold soleE at h
  split at h
  · rename_i e u he hu
    simp only [Bool.and_eq_true, decide_eq_true_eq, List.all_eq_true, Bool.or_eq_true, Bool.not_eq_true', List.isEmpty_iff] at h
    obtain ⟨⟨⟨⟨⟨⟨h1, h2⟩, h3⟩, h4⟩, h5⟩, h6⟩, h7⟩ := h
    exact ⟨e, u, ⟨⟨he, hu, h1, h2, fun f hf => (h3 f hf).1.1.1, fun f hf => (h3 f hf).1.1.2, h4,
      fun f hf hg => ((h3 f hf).2.resolve_left (by simp [hg])), fun f hf => (h3 f hf).1.2⟩, h5, h6⟩, h7⟩
  · cases h

/-- What an answer with a possible error is. -/
def okIs {α : Type} [DecidableEq α] (x : Except Nat α) (v : α) : Bool := match x with | .ok w => w == v | .error _ => false
def errIs {α : Type} (x : Except Nat α) (c : Nat) : Bool := match x with | .ok _ => false | .error d => d == c
theorem okIs_spec {α : Type} [DecidableEq α] {x : Except Nat α} {v : α} (h : okIs x v = true) : x = .ok v := by
  cases x <;> simp_all [okIs]
theorem errIs_spec {α : Type} {x : Except Nat α} {c : Nat} (h : errIs x c = true) : x = .error c := by
  cases x <;> simp_all [errIs]

/-- The cohort of `at0` can issue `i`. -/
def sole0 (i : Instr) : Bool := soleE i at0 lane fun _ _ => true

/-! ### The machine -/

theorem witness_EncodeDecode : (Instr.addL ⟨0xFFFF, 8, 0, 1, 1, 31, 63, 63, 59, 0⟩).WellFormed ∧
    (encode (.addL ⟨0xFFFF, 8, 0, 1, 1, 31, 63, 63, 59, 0⟩)).isSome = true ∧ (Instr.trap ⟨255, 63, 63⟩).WellFormed := by decide
theorem witness_DecodeEncode : decode (natBytes 2 (0x7FE0 + 3 * 2)) = .ok (.mulS32H ⟨0, 31, 31⟩) 2 := by decide
theorem witness_ResetValues : ready.fn? 0 = some bootFn ∧ bootFn.resetting = false := by decide
theorem witness_StepKeepsMemoryCanonical : MemCanonical State.reset ∧ ∃ t, step State.reset = .next t := ⟨by unfold MemCanonical; decide, _, rfl⟩
theorem witness_StepKeepsFibreNames : NamesOk State.reset ∧ NamesOk at0 := by
  constructor <;> (unfold NamesOk; decide)
theorem witness_NoPowerStops :
    powerReturns { State.reset with dev := { State.reset.dev with poweredOff := true } } = false ∧
    powerReturns { State.reset with dev := { State.reset.dev with poweredOff := true }, agenda := [.event (.powerGood 0 true)] } = true := by decide
/-- A step that fetches `bar #3` at the program counter. -/
theorem witness_StepRunsDecoded : ∃ (s s3 : State) (f' : Fibre) (bs : List Byte),
    s.dev.poweredOff = false ∧ s.agenda = [.issue 0 0 3] ∧
    (let s1 : State := { tick s with agenda := [] }
     let s2 := boundary { s1 with cur := some ⟨0, 0, 3⟩ }
     s1.cohortLanes 3 = [bootFibre 3 2] ∧ ctxRuns s1 (bootFibre 3 2) = true ∧ s2.lanes = [f'] ∧ atBreakpoint s2 [f'] = false ∧
     fetch s2 f' = (.bytes bs, s3)) ∧ parseBytes (mapOf s3 f') bs = .ok (.bar ⟨3, 63, 63⟩) 4 :=
  ⟨bootState State.reset (natBytes 8 0x03FF_FB01), _, _, _, rfl, rfl, ⟨rfl, rfl, rfl, rfl, rfl⟩, rfl⟩
theorem witness_ChecksOfAnIssue :
    at0.lanes ≠ [] ∧
    ({ at0 with fns := [{ bootFn with feat := [0] }] }).lanes.any
      (featureMissing { at0 with fns := [{ bootFn with feat := [0] }] } (.invoke ⟨0, 0, 0, 0, 0, 0, 63, 63, 4, 10⟩)) = true ∧
    (Instr.addW ⟨0, 0, 2, 1, 61⟩).staticCheck = some .dest ∧ at0.lanes.any (featureMissing at0 (.addW ⟨0, 0, 2, 1, 61⟩)) = false ∧
    (Enc.w 2 ⟨0, 0, 2, 1, 8⟩).windowOk (wUse .dst .src .src) 8 = false ∧ (Enc.w 2 ⟨0, 0, 2, 1, 7⟩).windowOk (wUse .dst .src .src) 8 = true ∧
    cohortWaits (.w 2 ⟨0, 0, 2, 1, 7⟩) (wUse .dst .src .src) [{ lane with busy := [(7, 9)] }] = true ∧
    cohortWaits (.w 2 ⟨0, 0, 2, 1, 7⟩) (wUse .dst .src .src) [{ lane with busy := [(8, 9)] }] = false := by decide
theorem witness_FetchAndOperandFaultsPark :
    (at0.lanes = [lane] ∧ atBreakpoint at0 [lane] = false) ∧
    (match (fetch (having { lane with pc := 0x80_0000_0000 }) { lane with pc := 0x80_0000_0000 }).1 with | .fail _ _ _ => true | _ => false) = true ∧
    latchFault (.w 2 ⟨0, 0, 60, 62, 7⟩) (wUse .dst .src .src) lane = some 62 ∧
    latchFault (.w 2 ⟨0, 0, 2, 6, 7⟩) (wUse .dst .src .src) { lane with badParity := [6] } = none ∧
    parityFault (.w 2 ⟨0, 0, 2, 6, 7⟩) (wUse .dst .src .src) { lane with badParity := [6] } = some 6 := by decide
theorem witness_TakingAnException : at0.fibre? 3 = some lane ∧ at0.flue.find? (·.src == coreSrc (at0.fibreCore lane)) = none := by decide

/-- A lane parked with TRAP_USER 1 at 0x10000. -/
def parked : Parked := ⟨⟨0x101, 0x10000, 1, 0, false, 0, 0, 0, 0, 0, 0⟩, 0x10004, true, 5, 0⟩
def parkedLane : Fibre := { lane with status := .parked parked }
/-- Handlers with the verdicts RESUME at the record's PC, RESUME elsewhere, RESUME at no address, END and a bad one. -/
theorem witness_HandlerVerdicts :
    (having parkedLane).fibre? 3 = some parkedLane ∧
    pairVal (((bootFibre 4 2).setRegs [(1, 1), (12, 0x10000)]).reg 12) (((bootFibre 4 2).setRegs [(1, 1), (12, 0x10000)]).reg 13) = parked.frec.pc ∧
    (let h := (bootFibre 4 2).setRegs [(1, 1), (12, 0xFFFF_FFFE), (13, 0x01FF_FFFF)]
     h.reg 1 = 1 ∧ (pairVal (h.reg 12) (h.reg 13)).toNat % 2 = 0 ∧ (pairVal (h.reg 12) (h.reg 13)).toNat < 2 ^ 57) ∧
    (let h := (bootFibre 4 2).setRegs [(1, 1), (12, 0), (13, 0x0200_0000)]
     2 ^ 57 ≤ (pairVal (h.reg 12) (h.reg 13)).toNat) ∧
    ((bootFibre 4 2).setRegs [(1, 2)]).reg 1 = 2 ∧ ((bootFibre 4 2).reg 1 ≠ 1 ∧ (bootFibre 4 2).reg 1 ≠ 2 ∧ (at0.fibreGrid (bootFibre 4 2)).isSome = true) := by decide

/-! ### Instructions that compute -/

theorem witness_IntegerResults : sole0 (.addS32H ⟨0, 5, 6⟩) ∧ sole0 (.addW ⟨0, 0, 63, 59, 0⟩) ∧ sole0 (.addWi ⟨255, 4, 63⟩) ∧
    sole0 (.mulhiL ⟨0x8000, 9, 0, 0, 0, 0, 63, 63, 4, 7⟩) ∧ sole0 (.sarL ⟨32, 8, 0, 0, 0, 0, 63, 63, 4, 7⟩) := by decide
theorem witness_IntegerCompareResults : sole0 (.cmpEqW ⟨0, 0, 6, 4, 31⟩) ∧ sole0 (.cmpLtWi ⟨0x80, 4, 0⟩) ∧
    sole0 (.cmpGeL ⟨0, 7, 0, 0, 0, 0, 63, 6, 4, 31⟩) ∧ sole0 (.movW ⟨0, 0, 63, 6, 0⟩) := by decide
theorem witness_OneSourceAndSelectResults : sole0 (.movH ⟨0, 5, 6⟩) ∧ sole0 (.clzW ⟨0, 0, 63, 4, 7⟩) ∧ sole0 (.brevL ⟨0, 0, 0, 0, 0, 0, 63, 63, 4, 7⟩) ∧
    sole0 (.li ⟨0xFFFFFFFF, 0, 0, 0, 63, 4⟩) ∧ sole0 (.bsel ⟨0xFFFF, 8, 0, 0, 0, 0, 6, 63, 4, 7⟩) ∧ sole0 (.sel ⟨31, 0, 0, 0, 0, 0, 63, 6, 4, 7⟩) := by decide
theorem witness_WideAndBitFieldResults : sole0 (.mulwW ⟨0, 0, 6, 4, 8⟩) ∧ sole0 (.mulwL ⟨0, 1, 0, 0, 0, 0, 63, 6, 4, 8⟩) ∧
    sole0 (.mad ⟨0, 0, 0, 0, 0, 0, 10, 6, 4, 7⟩) ∧ sole0 (.madw ⟨0, 0, 0, 0, 0, 0, 10, 6, 4, 8⟩) ∧ sole0 (.bfx ⟨0x400, 0, 0, 0, 0, 0, 63, 63, 4, 7⟩) ∧
    sole0 (.bfi ⟨0x3F, 0, 0, 0, 0, 0, 63, 6, 4, 7⟩) ∧ sole0 (.add64 ⟨0xFFFF, 8, 0, 0, 0, 0, 63, 63, 4, 8⟩) ∧
    sole0 (.lea64 ⟨15, 1, 0, 0, 0, 0, 63, 6, 4, 8⟩) := by decide
theorem witness_FloatResults : sole0 (.addF32H ⟨0, 5, 6⟩) ∧ sole0 (.divW ⟨0, 0, 6, 4, 7⟩) ∧ sole0 (.mulFloatL ⟨3, 3, 0, 0, 0, 0, 63, 6, 4, 8⟩) ∧
    sole0 (.fma ⟨0, 5, 0, 0, 0, 0, 8, 6, 4, 7⟩) ∧ sole0 (.sqrtL ⟨0, 0, 0, 0, 0, 0, 63, 63, 4, 7⟩) ∧ sole0 (.clsW ⟨0, 0, 63, 4, 7⟩) ∧
    sole0 (.ldexpW ⟨0, 0, 6, 4, 7⟩) ∧ sole0 (.cmpLtF32W ⟨0, 0, 6, 4, 31⟩) ∧ sole0 (.cmpGeFloatL ⟨3, 5, 0, 0, 0, 0, 63, 6, 4, 30⟩) := by decide
theorem witness_ComplexAndFftResults : sole0 (.dot2 ⟨0, 4, 0, 0, 0, 0, 63, 6, 4, 7⟩) ∧ sole0 (.cmul ⟨8, 0, 0, 0, 0, 0, 10, 6, 4, 8⟩) ∧
    sole0 (.bfly ⟨3, 0, 0, 0, 0, 0, 10, 6, 4, 56⟩) ∧ sole0 (.twid ⟨20, 5, 0, 0, 0, 0, 63, 63, 4, 7⟩) := by decide
theorem witness_ConversionResults : sole0 (.cvt ⟨0xB, 0, 0, 0, 0, 0, 63, 63, 4, 7⟩) ∧ sole0 (.pkW ⟨0, 0, 6, 4, 7⟩) ∧ sole0 (.pkL ⟨0, 1, 0, 0, 0, 0, 63, 6, 4, 7⟩) ∧
    sole0 (.upkW ⟨0, 0, 63, 4, 8⟩) ∧ sole0 (.upkL ⟨0, 0, 0, 0, 0, 0, 63, 63, 4, 8⟩) ∧ sole0 (.qblk ⟨0x6, 0, 0, 0, 0, 0, 63, 63, 4, 8⟩) ∧
    sole0 (.dqblk ⟨0x6, 0, 0, 0, 0, 0, 63, 6, 4, 7⟩) := by decide
theorem witness_CrossLaneResults : sole0 (.shufIdxW ⟨0, 0, 6, 4, 7⟩) ∧ sole0 (.shufXorL ⟨31, 9, 0, 0, 0, 0, 63, 63, 4, 8⟩) ∧ sole0 (.voteAnyW ⟨0, 0, 63, 63, 31⟩) ∧
    sole0 (.voteBalL ⟨0, 0, 0, 0, 0, 0, 63, 63, 31, 7⟩) ∧ sole0 (.redcAddW ⟨0, 0, 63, 4, 7⟩) ∧ sole0 (.redcMaxL ⟨0, 2, 0, 0, 0, 0, 63, 63, 4, 7⟩) := by decide

/-! ### Control flow -/

theorem witness_BranchResults :
    sole0 (.br ⟨0x4, 0, 0, 0, 63, 63⟩) ∧ sole0 (.call ⟨0x4, 0, 0, 0, 63, 8⟩) ∧ sole0 (.brx ⟨0, 0, 63, 4, 63⟩) ∧ sole0 (.ret ⟨0, 0, 63, 4, 63⟩) ∧
    (soleE (.bcT ⟨4, 0, 0, 0, 63, 31⟩) (having (lane.setRegs [(0, 0x8000_0000)])) (lane.setRegs [(0, 0x8000_0000)])
      fun _ _ => (lane.setRegs [(0, 0x8000_0000)]).pw.getLsbD 31) ∧
    (soleE (.bcF ⟨4, 0, 0, 0, 63, 31⟩) at0 lane fun _ _ => !lane.pw.getLsbD 31) ∧
    (let x := lane.pc + 2 * (0x4 : BitVec 32).signExtend 64
     x.toNat % 2 = 0 ∧ x.toNat < 2 ^ 57) ∧
    -- the address is at the edge of the address space, and one that is none
    (let l := lane.setRegs [(4, 0xFFFF_FFFE), (5, 0x01FF_FFFF)]
     soleE (.brx ⟨0, 0, 63, 4, 63⟩) (having l) l fun _ _ => decide ((l.src64 4).toNat < 2 ^ 57 ∧ (l.src64 4).toNat % 2 = 0)) ∧
    (let l := lane.setRegs [(4, 0), (5, 0x0200_0000)]
     soleE (.brx ⟨0, 0, 63, 4, 63⟩) (having l) l fun _ _ => decide (2 ^ 57 ≤ (l.src64 4).toNat)) ∧
    (let l := lane.setRegs [(4, 1)]
     soleE (.ret ⟨0, 0, 63, 4, 63⟩) (having l) l fun _ _ => decide ((l.src64 4).toNat % 2 = 1)) ∧
    (let l := { lane with pc := 0x01FF_FFFF_FFFF_FFF0 }
     soleE (.fork ⟨16, 0, 0, 0, 0, 0, 63, 63, 4, 7⟩) (having l) l fun _ _ => decide (2 ^ 57 ≤ (l.pc + 2 * (16 : BitVec 16).signExtend 64).toNat)) := by
  decide
/-- Two lanes of one cohort at two program counters, and at one. -/
theorem witness_SplitByProgramCounter :
    (let s : State := { at0 with fibres := [lane, { lane with id := 2, lane := 1, pc := 0x20000 }] }
     NamesOk s ∧ (∀ f ∈ s.fibres, f.id ∈ [2, 3] → f.cohort = 3) ∧ ∃ f ∈ s.fibres, ∃ g ∈ s.fibres, f.id ∈ [2, 3] ∧ g.id ∈ [2, 3] ∧ f.pc ≠ g.pc) ∧
    (let s : State := { at0 with fibres := [lane, { lane with id := 2, lane := 1 }] }
     NamesOk s ∧ ∀ f ∈ s.fibres, ∀ g ∈ s.fibres, f.id ∈ [2, 3] → g.id ∈ [2, 3] → f.pc = g.pc) := by
  constructor <;> (unfold NamesOk; decide)
theorem witness_ForkResults : NamesOk at0 ∧
    (soleE (.fork ⟨16, 0, 0, 0, 0, 0, 63, 63, 4, 7⟩) at0 lane fun _ _ =>
      match at0.fibreCrew lane with
      | some c => (freeBase (windowsIn at0 c.core lane.part lane.lane) lane.ws).isSome && decide (freeIndex at0 c < 65536)
      | none => false) = true ∧
    -- no window is free
    (let s : State := { at0 with fibres := [lane, { bootFibre 2 2 with wb := 60, ws := 964, cohort := 2 }] }
     soleE (.fork ⟨16, 0, 0, 0, 0, 0, 63, 63, 4, 7⟩) s lane fun _ _ =>
      match s.fibreCrew lane with
      | some c => decide (freeBase (windowsIn s c.core lane.part lane.lane) lane.ws = none)
      | none => false) = true := by
  refine ⟨by unfold NamesOk; decide, by decide, by decide⟩
theorem witness_JoinYieldNopHaltResults : sole0 .join ∧ sole0 (.yield ⟨0, 0, 63, 63, 63⟩) ∧ sole0 .nop ∧
    (soleE (.halt ⟨0, 0, 63, 63, 63⟩) at0 lane fun _ _ => lane.handlerFor.isNone) ∧
    (soleE (.halt ⟨0, 0, 63, 63, 63⟩) (having { lane with handlerFor := some 2 }) { lane with handlerFor := some 2 } fun _ _ => true) ∧
    (∃ f ∈ at0.fibres, f.crew = 2 ∧ f.part = 0 ∧ f.jgrp = 3 ∧ f.status.isRunning = true) ∧
    (∀ f ∈ (having { lane with status := .heldJoin }).fibres, f.crew = 2 → f.part = 0 → f.jgrp = 3 → f.status.isRunning = false) := by decide
theorem witness_TrapAndBreakResults : sole0 (.trap ⟨255, 63, 63⟩) ∧ (soleE (.brk ⟨0, 63, 63⟩) at0 lane fun _ _ => !debugged at0 lane) ∧
    (soleE (.brk ⟨0, 63, 63⟩) { at0 with ctxs := [{ bootCtx with attached := true }] } lane fun _ _ =>
      debugged { at0 with ctxs := [{ bootCtx with attached := true }] } lane) := by decide

/-! ### Memory instructions -/

/-- The address of an instruction at `at0` passes the checks of R131. -/
def addrOk (s : State) (l : Fibre) (f : LF) (n : Nat) (need : Need) : Enc → Usage → Bool := fun e u =>
  match (checkAddr (issueCounts e u s) l (lAddr f l) n need).1 with | .ok _ _ => true | _ => false
/-- The same addresses with nothing mapped behind. -/
def at0NoPages : State := { at0 with ctxs := [{ bootCtx with root := 0x10_0000 }] }
/-- The same with the last leaf not resident. -/
def at0NonRes : State := { at0 with mem := memWrite at0.mem (bootTables + 0x2000) (natBytes 8 0x1B) }
theorem witness_LoadResults :
    soleE (.ld .b128 ⟨0xFF0, 0, 0, 0, 0, 0, 63, 63, 4, 56⟩) at0 lane (addrOk at0 lane ⟨0xFF0, 0, 0, 0, 0, 0, 63, 63, 4, 56⟩ 16 .read) ∧
    soleE (.ld .b8 ⟨0x0800, 4, 0, 0, 0, 0, 63, 63, 4, 63⟩) at0 lane (fun e u => l1Hit (issueCounts e u at0) lane (lAddr ⟨0x0800, 4, 0, 0, 0, 0, 63, 63, 4, 63⟩ lane) == none &&
      addrOk at0 lane ⟨0x0800, 4, 0, 0, 0, 0, 63, 63, 4, 63⟩ 1 .read e u) ∧
    soleE (.ld .b64 ⟨0, 8, 0, 0, 0, 0, 31, 63, 4, 8⟩) at0NonRes lane (fun e u =>
      decide ((checkAddr (issueCounts e u at0NonRes) lane (lAddr ⟨0, 8, 0, 0, 0, 0, 31, 63, 4, 8⟩ lane) 8 .read).1 = .nonres)) ∧
    sole0 (.pf ⟨0, 0, 0, 0, 0, 0, 63, 63, 4, 63⟩) := by decide
theorem witness_StoreAndAtomicResults :
    (soleE (.st .b128 ⟨0, 0, 0, 0, 0, 0, 63, 8, 4, 63⟩) at0 lane fun e u =>
      match (checkAddr (fresh (issueCounts e u at0)).2 lane (lAddr ⟨0, 0, 0, 0, 0, 0, 63, 8, 4, 63⟩ lane) 16 .write).1 with | .ok _ _ => true | _ => false) ∧
    (soleE (.atom .cas ⟨0, 0, 0, 0, 0, 0, 10, 6, 4, 7⟩) at0 lane fun e u =>
      !atomIsWide .cas e && addrOk at0 lane ⟨0, 0, 0, 0, 0, 0, 10, 6, 4, 7⟩ 4 .write e u) := by decide
theorem witness_MemoryFaultsPark :
    (2 ^ 57 ≤ (0x0200_0000_0000_0000 : DWord).toNat ∧ (0x01FF_FFFF_FFFF_FFFF : DWord).toNat < 2 ^ 57 ∧ (0x01FF_FFFF_FFFF_FFFF : DWord).toNat % 2 ≠ 0) ∧
    (soleE (.ld .b32 ⟨0xFFE, 0, 0, 0, 0, 0, 63, 63, 4, 7⟩) at0 lane fun e u =>
      match (checkAddr (issueCounts e u at0) lane (lAddr ⟨0xFFE, 0, 0, 0, 0, 0, 63, 63, 4, 7⟩ lane) 4 .read).1 with | .bad _ => true | _ => false) ∧
    (soleE (.st .b32 ⟨0, 0, 0, 0, 0, 0, 63, 8, 4, 63⟩) at0NoPages lane fun e u =>
      match (checkAddr (fresh (issueCounts e u at0NoPages)).2 lane (lAddr ⟨0, 0, 0, 0, 0, 0, 63, 8, 4, 63⟩ lane) 4 .write).1 with | .bad _ => true | _ => false) ∧
    (soleE (.atom .add ⟨2, 0, 0, 0, 0, 0, 63, 6, 4, 7⟩) at0 lane fun e u =>
      match (checkAddr (issueCounts e u at0) lane (lAddr ⟨2, 0, 0, 0, 0, 0, 63, 6, 4, 7⟩ lane) 4 .write).1 with | .bad _ => true | _ => false) := by decide
theorem witness_ScratchpadResults :
    -- the last word of the scratchpad: its last byte is 0xFFF
    (soleE (.lds .b32 ⟨4, 0, 0, 0, 0, 0, 63, 63, 8, 7⟩) at0 lane fun e u =>
      decide (scrCheck (issueCounts e u at0) lane (lScrAddr ⟨4, 0, 0, 0, 0, 0, 63, 63, 8, 7⟩ lane) 4 true = none)) ∧
    NoPendingWrites at0 lane 0x104 4 ∧
    (let l := lane.setRegs [(8, 0xFFC)]
     soleE (.sts .b32 ⟨0, 0, 0, 0, 0, 0, 63, 6, 8, 63⟩) (having l) l fun e u =>
      decide (scrCheck (issueCounts e u (having l)) l (lScrAddr ⟨0, 0, 0, 0, 0, 0, 63, 6, 8, 63⟩ l) 4 false = none)) ∧
    (soleE (.sldt ⟨2, 1, 0, 0, 0, 0, 63, 63, 8, 20⟩) at0 lane fun e u =>
      ((List.range 4).map (sldtOffset 2 0 0x100)).all fun p => decide (p + 2 ≤ scrBytes (issueCounts e u at0) lane) && !scrEcc (issueCounts e u at0) lane p 2) ∧
    (soleE (.atoms .add ⟨0, 0, 0, 0, 0, 0, 63, 6, 8, 7⟩) at0 lane fun e u =>
      decide (scrCheck (issueCounts e u at0) lane (lScrAddr ⟨0, 0, 0, 0, 0, 0, 63, 6, 8, 7⟩ lane) 4 true = none) && lane.scr.isEmpty &&
        (at0.fibreCrew lane).isSome) := by
  refine ⟨by decide, by unfold NoPendingWrites; decide, by decide, by decide, by decide⟩

/-! ### Engines, synchronisation -/

/-- A record in the scratchpad at 0x100, where v8 points. -/
def recording (n : Nat) : State := { at0 with crews := [{ bootCrew 2 1 with scratch := memWrite [] 0x100 (natBytes 64 n) }] }
/-- A copy of one row of 64 bytes; a tile task of one row, one column and one element; a send of 8 bytes on counter 0 at threshold 1. -/
def copyRecord : Nat := 0x40000 + 0x50000 * 2 ^ 64 + 64 * 2 ^ 128 + 2 ^ 160
def tileRecord : Nat := 2 ^ 32 + 2 ^ 42 + 2 ^ 64 + 2 ^ 12
def sendRecord : Nat := 0x40000 + 0x50000 * 2 ^ 64 + 8 * 2 ^ 128 + 2 ^ 192 + 0xFFFFFFFF * 2 ^ 256 + 0xFFFFFFFF * 2 ^ 160 * 2 ^ 160

theorem witness_FibreCopyResults :
    (let f : LF := ⟨0x2040, 3, 0, 0, 0, 0, 63, 8, 4, 63⟩
     soleE (.cpa f) at0 lane fun e u =>
      decide (lane.tag 2 < 63 ∧ (lane.src 8).toNat % cpaSize e = 0 ∧ (lane.src 8).toNat + cpaSize e ≤ scrBytes (issueCounts e u at0) lane ∧ 0 < cpaValid e lane) &&
      (match (checkAddr (issueCounts e u at0) lane (lAddr f lane) (cpaSize e) .read).1 with | .ok spa _ => decide (spa / 2 ^ 49 < 5) | _ => false)) ∧
    sole0 (.cpq ⟨0, 0, 63, 7, 7⟩) ∧
    (soleE (.cpw ⟨0, 0, 63, 0, 7⟩) at0 lane fun _ _ => decide (at0.lanes = [lane] ∧ at0.fibres.filter (·.cohort == lane.cohort) = [lane] ∧ lane.tag 7 ≤ 0)) ∧
    (let l := { lane with copies := List.replicate 63 ⟨2, 9, false, []⟩ }
     soleE (.cpa ⟨0x2040, 3, 0, 0, 0, 0, 63, 8, 4, 63⟩) (having l) l (fun _ _ => decide (63 ≤ l.tag 2)) ∧
     soleE (.cpw ⟨0, 0, 63, 62, 2⟩) (having l) l fun _ _ => decide (62 < l.tag 2)) := by decide
set_option maxRecDepth 20000 in
theorem witness_BulkCopyResults :
    (let f : LF := ⟨0, 0, 0, 0, 0, 0, 63, 63, 8, 20⟩
     let s := recording copyRecord
     soleE (.bcopy f) s lane (fun e u => decide (bcopyCheck e (issueCounts e u s) lane = none ∧ (s.channel 0).entries.length < 64 ∧ lane.scr = [] ∧
       s.cur.map (·.num) = some lane.cohort)) ∧
     soleE (.bcopy f) at0 lane fun e u => (bcopyCheck e (issueCounts e u at0) lane).isSome) := by decide
set_option maxRecDepth 20000 in
theorem witness_LeaseResults :
    (let l := lane.setRegs [(6, 4096)]
     soleE (.lease ⟨1000, 0, 0, 0, 0, 0, 63, 6, 4, 7⟩) (having l) l fun _ _ =>
      decide ((l.src64 4).toNat < 2 ^ 57 ∧ (l.src64 4).toNat % 4096 = 0)) ∧
    leasePages at0 0 1 0x40000 1 = some [0x40000] ∧ leaseQuota at0 0 [0x40000] = false ∧ leaseNoSpace at0 [0x40000] = false ∧
    (at0.leases.filter (·.vf == 0)).length < 2 ^ 24 - 1 ∧ sole0 (.unlease ⟨0, 0, 63, 7, 63⟩) := by decide
set_option maxRecDepth 8000 in
theorem witness_MatrixIssueResults :
    (let s := recording tileRecord
     soleE (.mtask ⟨0, 0, 0, 0, 0, 0, 63, 63, 8, 20⟩) s lane fun e u => decide (mtaskCheck e (issueCounts e u s) lane = none ∧
       ((issueCounts e u s).core (s.fibreCore lane)).mxq.length < 16 ∧ lane.scr = [] ∧ s.cur.map (·.num) = some lane.cohort)) ∧
    (soleE (.mtask ⟨0, 0, 0, 0, 0, 0, 63, 63, 8, 20⟩) at0 lane fun e u => (mtaskCheck e (issueCounts e u at0) lane).isSome) ∧
    -- one row and one column from row 511
    (let l := lane.setRegs [(7, 0x8_03FF)]
     soleE (.accz ⟨0, 0, 0, 0, 0, 0, 63, 63, 7, 20⟩) (having l) l (fun e u => decide (accCheck e 0 (issueCounts e u (having l)) l = none)) ∧
     soleE (.accld ⟨0, 0, 0, 0, 0, 0, 63, 8, 7, 20⟩) (having l) l (fun e u => decide (accCheck e 4 (issueCounts e u (having l)) l = none)) ∧
     soleE (.accst ⟨0, 0, 0, 0, 0, 0, 63, 8, 7, 20⟩) (having l) l (fun e u => decide (accCheck e 4 (issueCounts e u (having l)) l = none)) ∧
     soleE (.accdrain ⟨1, 0, 0, 0, 0, 0, 63, 8, 7, 20⟩) (having l) l (fun e u => decide (accCheck e (drainSize 1) (issueCounts e u (having l)) l = none))) ∧
    (let l := lane.setRegs [(7, 0)]
     soleE (.accz ⟨0, 0, 0, 0, 0, 0, 63, 63, 7, 20⟩) (having l) l fun e u => (accCheck e 0 (issueCounts e u (having l)) l).isSome) := by decide

/-- Crew 2 with a second fibre, and with barrier 15 in a given state. -/
def other : Fibre := { bootFibre 4 2 with cohort := 4, jgrp := 4, lane := 1, idx := 1 }
def withBar (phase : Nat) (arr : List (Nat × Nat)) : State :=
  { at0 with fibres := [lane, other], crews := [{ bootCrew 2 1 with bars := [⟨15, phase, arr, []⟩] }] }
set_option maxRecDepth 8000 in
theorem witness_BarrierResults :
    (soleE (.bar ⟨15, 63, 63⟩) (withBar 7 []) lane fun _ _ => (withBar 7 []).crews.any fun c => !hasArrived (withBar 7 []) lane 15 &&
      fibreQuiet (withBar 7 []) 1 3 && (((withBar 7 []).expected 2).any fun g => g.id == 4 && decide ((c.bar 15).arrival g.id ≠ some (c.bar 15).phase))) ∧
    (soleE (.bar ⟨15, 63, 63⟩) (withBar 7 [(4, 7)]) lane fun _ _ => (withBar 7 [(4, 7)]).crews.any fun c => !hasArrived (withBar 7 [(4, 7)]) lane 15 &&
      ((withBar 7 [(4, 7)]).expected 2).all fun g => g.id == 3 || decide ((c.bar 15).arrival g.id = some (c.bar 15).phase)) ∧
    sole0 (.barArv ⟨0, 63, 63⟩) ∧
    (soleE (.barWt ⟨15, 63, 63⟩) (withBar 7 [(3, 6)]) lane fun _ _ => (withBar 7 [(3, 6)]).crews.any fun c => decide ((c.bar 15).arrival 3 = some 6 ∧ 6 < (c.bar 15).phase)) ∧
    (soleE (.barWt ⟨15, 63, 63⟩) (withBar 7 [(3, 7)]) lane fun _ _ => (withBar 7 [(3, 7)]).crews.any fun c => decide ((c.bar 15).arrival 3 = some 7 ∧ (c.bar 15).phase ≤ 7)) ∧
    (soleE (.bar ⟨15, 63, 63⟩) (withBar 7 [(3, 7)]) lane fun _ _ => hasArrived (withBar 7 [(3, 7)]) lane 15) ∧
    (soleE (.barWt ⟨15, 63, 63⟩) (withBar 7 []) lane fun _ _ => (withBar 7 []).crews.any fun c => decide ((c.bar 15).arrival 3 = none)) ∧
    (let s : State := { withBar 0 [] with grids := [{ bootGrid 1 with groups := [⟨3, [0], 0, []⟩] }] }
     soleE (.gbar ⟨0, 6, 63⟩) s lane fun _ _ => groupOk s lane 3 && fibreQuiet s 5 3 && (s.expected 2).any fun g => g.id == 4 && decide (g.status ≠ .waitGbar 3)) ∧
    (soleE (.gbar ⟨0, 6, 63⟩) at0 lane fun _ _ => !groupOk at0 lane 3) ∧
    (let s : State := { at0 with fibres := [{ lane with status := .waitGbar 3 }], grids := [{ bootGrid 1 with groups := [⟨3, [0], 0, []⟩] }] }
     s.grid? 1 = some { bootGrid 1 with groups := [⟨3, [0], 0, []⟩] } ∧ groupLeft s { bootGrid 1 with groups := [⟨3, [0], 0, []⟩] } ⟨3, [0], 0, []⟩ = [0] ∧
      ∀ g ∈ s.expected 2, g.status = .waitGbar 3) := by decide
theorem witness_FenceResults :
    (soleE (.fence ⟨2 + 4 * 7, 63, 63⟩) at0 lane fun _ _ => fibreApplied at0 7 3) ∧ sole0 (.fence ⟨1 + 4 * 1, 63, 63⟩) ∧ sole0 (.vfence ⟨0, 0, 63, 63, 63⟩) ∧
    (∀ a ∈ at0.accesses, a.agent = .fibre lane.id → a.decodedWrite = false) := by decide
theorem witness_SignalResults :
    (let f : LF := ⟨0, 0, 0, 0, 0, 0, 63, 6, 4, 10⟩
     soleE (.sigAdd f) at0 lane (addrOk at0 lane f 8 .write) ∧ sigMet 0 3 3 = true ∧ sigMet 1 2 3 = false ∧ sigMet 2 (-1) (-1) = true) ∧
    (let f : LF := ⟨0, 0, 0, 0, 0, 0, 63, 63, 4, 10⟩
     soleE (.sigRead f) at0 lane (addrOk at0 lane f 8 .read)) ∧
    (let f : LF := ⟨0, 0, 0, 0, 0, 0, 63, 6, 4, 63⟩
     soleE (.sigSet f) at0 lane (addrOk at0 lane f 8 .write)) ∧
    (let f : LF := ⟨0, 4, 0, 0, 0, 0, 63, 6, 4, 63⟩
     let l := lane.setRegs [(6, 7)]
     soleE (.sigSet f) (having l) l (addrOk (having l) l f 8 .write) ∧ (l.src 6).toNat = 7) ∧
    (let f : LF := ⟨0, 4, 0, 0, 0, 0, 63, 6, 4, 63⟩
     let l := lane.setRegs [(6, 8)]
     soleE (.sigSet f) (having l) l fun _ _ => decide (7 < (l.src f.b.toNat).toNat)) ∧
    (let f : LF := ⟨0x5000, 0, 0, 0, 0, 0, 6, 12, 4, 10⟩
     soleE (.sigw f) at0 lane fun e u => addrOk at0 lane f 8 .read e u && decide ((lane.src f.c.toNat).toNat ≠ 0)) := by decide
/-- The pages behind 1 GiB lie in the coherent window. -/
def windowTables : List Host.Cell :=
  [(131072, 1), (131073, 16), (131074, 2), (135168, 1), (135169, 32), (135170, 2), (139264, 59), (139272, 59), (139277, 1), (147456, 1), (147457, 80),
   (147458, 2), (151552, 1), (151553, 96), (151554, 2), (155648, 59), (155656, 59), (155659, 64)]
theorem windowTables_spec :
    memWrite (memWrite tables (bootTables + 0x2008) (natBytes 8 (2 ^ 40 + 0x3B))) (bootTables + 0x6008) (natBytes 8 (2 ^ 30 + 0x3B)) = windowTables := by
  decide
def atW : State := { at0 with mem := windowTables }
/-- A queue of function 0 whose descriptor lies in the window, and a lane whose v4 names it. -/
def aQueue : Queue :=
  { qnum := 5, vf := 0, asid := 1, descVa := 0x4000_1000, desc := 2 ^ 40 + 0x1000, ring := 0x80000, logsz := 3, prio := 2, effPrio := 2, enqOk := true,
    state := .idle, rdidx := 0, abort := 0, abcid := 0, slot := none, waitSince := 0, mappedAt := 0, look := false, pubs := [] }
def atQ (q : Queue) : State := { atW with queues := [q] }
def enqLaneOf (header : Word) : Fibre := lane.setRegs [(4, 0x4000_1000), (16, header)]
def enqF : LF := ⟨0, 0, 0, 0, 0, 0, 63, 16, 4, 7⟩
set_option maxRecDepth 8000 in
theorem witness_EnqueueAndWakeResults :
    (let l := enqLaneOf 9
     let s := { atQ aQueue with fibres := [l] }
     soleE (.enq enqF) s l fun e u => fibreQuiet s 5 3 && !enqHeld e s l && decide ((l.src64 4).toNat % 64 = 0 ∧ (packetBytes e l).getD 0 0 ≠ 0 ∧
       (checkAddr (issueCounts e u s) l (l.src64 4) 64 .write).1 = .ok (2 ^ 40 + 0x1000) none ∧ queueAt s (2 ^ 40 + 0x1000) none = some aQueue ∧
       s.wridx aQueue - aQueue.rdidx < 2 ^ aQueue.logsz ∧ translateWalk s 0 1 (slotVa aQueue (s.wridx aQueue)).toNat .write = .ok 0x80000 none) &&
       match writable s 0x80000 64 with | .ok stor => decide (stor = (List.range 64).map (0x80000 + ·)) | .error _ => false) ∧
    (let l := enqLaneOf 9
     let s := { atQ aQueue with fibres := [l], mem := memWrite atW.mem (2 ^ 40 + 0x1008) [8] }
     soleE (.enq enqF) s l fun _ _ => decide (2 ^ aQueue.logsz ≤ s.wridx aQueue - aQueue.rdidx)) ∧
    (let l := enqLaneOf 9
     soleE (.enq enqF) { atW with fibres := [l] } l fun _ _ => decide (queueAt atW (2 ^ 40 + 0x1000) none = none)) ∧
    (let l := enqLaneOf 0x100
     soleE (.enq enqF) { atQ aQueue with fibres := [l] } l fun e _ => decide ((packetBytes e l).getD 0 0 = 0)) ∧
    (let f : LF := ⟨0, 0, 0, 0, 0, 0, 63, 10, 4, 7⟩
     soleE (.wwait f) at0 lane fun e u => wwaitReady at0 e lane &&
       decide ((checkAddr (issueCounts e u at0) lane (lAddr f lane) 8 .read).1 = .ok 0x40000 none ∧ at0.place 0x40000 = .hbm 0 0x40000) && okIs (readAt at0 0x40000 8) (List.replicate 8 0) && (wakeArm ((issueCounts e u at0).core 0) (0x40000 / 64) 1 3).isSome &&
       decide ((0 : DWord) ≠ lane.src64 10)) := by decide
set_option maxRecDepth 8000 in
theorem witness_CounterAndSendResults :
    (let f : LF := ⟨0, 0, 0, 0, 0, 0, 63, 63, 10, 20⟩
     soleE (.ctrRead f) at0 lane fun _ _ => counterOk at0 0 1) ∧
    (let f : LF := ⟨0, 0, 0, 0, 0, 0, 63, 6, 10, 20⟩
     soleE (.ctrAdd f) at0 lane fun _ _ => fibreQuiet at0 5 3 && decide (at0.sends = [])) ∧
    (let f : LF := ⟨0, 0, 0, 0, 0, 0, 63, 6, 10, 63⟩
     soleE (.ctrSet f) at0 lane fun _ _ => counterOk at0 0 1) ∧
    (let f : LF := ⟨0, 0, 0, 0, 0, 0, 63, 63, 4, 20⟩
     soleE (.ctrRead f) at0 lane fun _ _ => !counterOk at0 0 0x40000) ∧
    (let s := recording sendRecord
     soleE (.tsend ⟨0, 0, 0, 0, 0, 0, 63, 63, 8, 20⟩) s lane fun _ _ => !sendBad s 0 (scrRecord s lane 0x100) && !sendsFull s 0 0 &&
       decide ((s.counter 0).count < (sendOf sendRecord 0 0 0).thresh)) ∧
    (soleE (.tsend ⟨0, 0, 0, 0, 0, 0, 63, 63, 8, 20⟩) at0 lane fun _ _ => sendBad at0 0 (scrRecord at0 lane 0x100)) := by decide
set_option maxRecDepth 8000 in
theorem witness_GreenwareInstructionResults :
    (let f : LF := ⟨0, 0, 0, 0, 0, 0, 63, 63, 4, 10⟩
     soleE (.invoke f) at0 lane fun e u => fibreQuiet at0 6 3 && decide ((lane.src64 4).toNat < 2 ^ 57 ∧ (lane.src64 4).toNat % 64 = 0) &&
       match gwMint (issueCounts e u at0) 0 0 5 with | .ok _ => true | .error _ => false) ∧
    (let s : State := { at0 with fns := [{ bootFn with quotaGreen := 0 }] }
     soleE (.invoke ⟨0, 0, 0, 0, 0, 0, 63, 63, 4, 10⟩) s lane fun e u => match gwMint (issueCounts e u s) 0 0 5 with | .ok _ => false | .error _ => true) ∧
    (let l := lane.setRegs [(4, 1), (5, 0)]
     soleE (.hstat ⟨0, 0, 0, 0, 0, 0, 63, 63, 4, 7⟩) (having l) l (fun _ _ => decide ((l.src64 4).toNat % 256 ≠ 0)) ∧
     soleE (.hwait ⟨0, 0, 0, 0, 0, 0, 63, 63, 4, 7⟩) (having l) l fun _ _ => decide ((gwAnswer (having l) (l.src64 4) 0).toNat % 256 ≠ 0)) := by decide
set_option maxRecDepth 8000 in
theorem witness_SystemResults : sole0 (.timeI ⟨0, 0, 63, 63, 56⟩) ∧
    (soleE (.evt ⟨255, 0, 0, 0, 0, 0, 63, 10, 8, 63⟩) at0 lane fun _ _ => decide (at0.flue.find? (·.src == coreSrc (at0.fibreCore lane)) = none)) ∧
    sole0 (.perf ⟨15, 1, 0, 0, 0, 0, 63, 63, 63, 56⟩) ∧ (soleE (.sysr ⟨13, 63, 3⟩) at0 lane fun _ _ => (at0.fibreCrew lane).isSome && (at0.fibreGrid lane).isSome) ∧
    (soleE (.resreq ⟨0, 0, 0, 0, 0, 0, 63, 63, 4, 7⟩) at0 lane fun e u => decide (translateWalk (issueCounts e u at0) 0 1 0x40000 .read = .ok 0x40000 none)) ∧
    (soleE (.resreq ⟨0, 0, 0, 0, 0, 0, 63, 63, 4, 7⟩) at0NonRes lane fun e u =>
      match translateWalk (issueCounts e u at0NonRes) 0 1 0x40000 .read with | .ok _ _ => false | _ => true) := by decide

/-! ### Steps of the memory and of the cohorts -/

/-- A load of fibre 3 on its way. -/
def aRead : Access :=
  { ref := 7, agent := .fibre 3, pc := 0x10000, die := 0, vf := 0, asid := 1, gen := 0, va := 0x40000, spa := 0x40000, dev := none, op := .read 4,
    dest := some ⟨3, 7, 1, 0, none⟩, order := 0, scope := 0, nc := false, cpa := false, scrOff := 0, scrLen := 0, group := 0, needs := [], req := [],
    sent := false, done := 0, got := [], half := none, gotSt := [], seen := none, resp := .none, replays := 0, opid := 0 }
def withAccess (a : Access) : State := { at0 with accesses := [a] }
/-- The premises of `Performs` and of `PlainAnswer` as checks. -/
def performsB (s : State) (a : Access) : Bool :=
  decide (s.access? a.ref = some a) && canPerform s a && decide (apertureStore s a = none) && a.dev.isNone && decide (a.gen = s.gen a.asid) &&
  !isThrottled s a && s.served.isEmpty && decide (a.done = 0) && a.got.isEmpty
theorem performsB_spec {s : State} {a : Access} (h : performsB s a = true) : Performs s a.ref a := by
  simp only [performsB, Bool.and_eq_true, decide_eq_true_eq, Bool.not_eq_true', List.isEmpty_iff, Option.isNone_iff_eq_none] at h
  obtain ⟨⟨⟨⟨⟨⟨⟨⟨h1, h2⟩, h3⟩, h4⟩, h5⟩, h6⟩, h7⟩, h8⟩, h9⟩ := h
  exact ⟨h1, h2, h3, h4, h5, h6, by simp [h7], h8, h9⟩
def aWrite : Access := { aRead with op := .write ((List.range 4).zip [1, 2, 3, 4]) false, dest := none }
def anAtom : Access := { aRead with op := .atom .add 0 false 1 0 }
theorem witness_AccessPerformedResults :
    (performsB (withAccess aRead) aRead ∧ aRead.sel = 0 ∧ okIs (readAt (eccNote (withAccess aRead) (storageBytes (withAccess aRead) aRead 4)) 0x40000 4) [0, 0, 0, 0]) ∧
    (let a := { aRead with spa := 3 * 2 ^ 40 }
     performsB (withAccess a) a ∧ errIs (readAt (eccNote (withAccess a) (storageBytes (withAccess a) a 4)) a.spa 4) 0x47) ∧
    (performsB (withAccess aWrite) aWrite ∧ okIs (storageOf (withAccess aWrite) 0x40000 4) [0x40000, 0x40001, 0x40002, 0x40003]) ∧
    (performsB (withAccess anAtom) anAtom ∧ okIs (atomStorage (withAccess anAtom) 0x40000 4) [0x40000, 0x40001, 0x40002, 0x40003] ∧ opNew anAtom.op 0 = some 1) ∧
    (canPerform (withAccess { aRead with gen := 1 }) { aRead with gen := 1 } ∧ (withAccess { aRead with gen := 1 }).gen 1 ≠ 1) ∧
    (canPerform (withAccess { aRead with dev := some 9 }) { aRead with dev := some 9 } ∧
      apertureStore (withAccess { aRead with dev := some 9 }) { aRead with dev := some 9 } = none ∧ (9 ∉ at0.dev.lostDevs)) ∧
    ((withAccess { aRead with resp := .retry }).access? 7 = some { aRead with resp := .retry }) ∧
    (let s : State := { withAccess aRead with throttled := [⟨0, 8, 8⟩] }
     canPerform s aRead ∧ (rowsOf s aRead).find? s.throttled.contains = some ⟨0, 8, 8⟩ ∧ aRead.gen = s.gen 1 ∧ s.sideBuf = [] ∧ s.served = []) := by decide
/-- The answer of that load; an owed result; an error; a per-fibre copy. -/
theorem witness_AnswerResults :
    (let a := { aRead with resp := .ok [1, 2, 3, 4] [] [] }
     PlainAnswer (withAccess a) 7 a lane ∧ landTurn (withAccess a) a = true ∧ isStale (withAccess a) a [] = false ∧
      isStale { withAccess a with accesses := [{ a with req := [(0, 0, 1)] }] } { a with req := [(0, 0, 1)] } [] = true) ∧
    (let s : State := { at0 with owed := [⟨8, 3, 7, 1, false, some 1, none⟩] }
     s.access? 8 = none ∧ s.owed.find? (·.ref == 8) = some ⟨8, 3, 7, 1, false, some 1, none⟩ ∧ s.isSaved 3 = false ∧ s.fibre? 3 = some lane) ∧
    (let a := { aRead with resp := .err 0x48 }
     PlainAnswer (withAccess a) 7 a lane ∧ answerTurn (withAccess a) a = true ∧ lane.status = .ready) ∧
    (let a := { aRead with resp := .ok [1, 2, 3, 4] [] [], cpa := true, scrOff := 4092, scrLen := 4 }
     let s := { withAccess a with fibres := [{ lane with copies := [⟨0, 7, false, []⟩] }] }
     s.access? 7 = some a ∧ copyTurn s a = true ∧ isStale s a [] = false ∧ (s.crew? 2).isSome = true ∧ s.samples = []) := by
  refine ⟨⟨⟨by decide, by decide, by decide, by decide, by decide, by decide, by decide, by decide⟩, by decide⟩, by decide,
    ⟨⟨by decide, by decide, by decide, by decide, by decide, by decide, by decide, by decide⟩, by decide⟩, by decide⟩
def aSigWait : SigWait := ⟨0x40000, 0x40000, none, 0, 0, some 0, 10, 5, 3, 0x10008⟩
def sigLane (x : SigWait) : Fibre := { lane with status := .waitSig x }
theorem witness_WaitEventResults :
    (let s : State := { having { lane with status := .waitWake ⟨20, 0x1000, 0x40000, 0, 7, 0, 0x10008⟩ } with wakes := [⟨9, 0, 0x1000, 5, some [20]⟩] }
     NamesOk s ∧ s.wakes.find? (·.ref == 9) = some ⟨9, 0, 0x1000, 5, some [20]⟩) ∧
    (let s : State := { having (sigLane aSigWait) with notifs := [.packet 1 0, .fibre 3 5] }
     s.fibre? 3 = some (sigLane aSigWait) ∧ (signalNow s aSigWait).isSome = true ∧
     (s.notifs.find? fun y => match y with | .fibre g _ => g == 3 | _ => false) = some (.fibre 3 5)) ∧
    (aSigWait.deadline = some 0 ∧ 0 ≤ (having (sigLane aSigWait)).time.dtc ∧ (having (sigLane aSigWait)).accesses = []) ∧
    ((having { lane with status := .waitHandle ⟨1, some 0, 7, 0, 0x10008⟩ }).fibre? 3 = some { lane with status := .waitHandle ⟨1, some 0, 7, 0, 0x10008⟩ }) ∧
    (sigLane { aSigWait with dev := some 9 }).status = .waitSig { aSigWait with dev := some 9 } := by
  refine ⟨⟨by unfold NamesOk; decide, by decide⟩, by decide, by decide, by decide, by decide⟩
/-- Two cohorts of crew 2 that stand at one program counter; a lane whose destination is busy; a bank with a window. -/
theorem witness_CohortEventResults :
    (let s : State := { at0 with fibres := [lane, other] }
     s.fibres.filter (·.cohort == 3) = [lane] ∧ canMerge [lane] (s.fibres.filter (·.cohort == 4)) = true) ∧
    (let w : Enc := .w 2 ⟨0, 0, 2, 1, 7⟩
     laneGuard w { lane with busy := [(7, 9)] } && laneBusy w (wUse .dst .src .src) { lane with busy := [(7, 9)] } && !laneBusy w (wUse .dst .src .src) other) ∧
    (at0.fibreCore lane = 0 ∧ lane.hasWindow = true ∧ lane.wb < 64 * 0 + 64 ∧ 64 * 0 < lane.wb + lane.ws) := by decide
def aGrid : Grid := { bootGrid 1 with gx := 2, next := 1, queued := [] }
theorem witness_CrewEventResults :
    (let s : State := { at0 with grids := [aGrid] }
     NamesOk s ∧ (placeCrew s aGrid 1 1 1).isSome = true ∧ s.grid? 1 = some aGrid ∧ asidRuns s 1 = true ∧ tileOk s aGrid 1 = true ∧ aGrid.nextCrew = some 1) ∧
    (let s : State := { at0 with fibres := [], crews := [bootCrew 2 1, bootCrew 5 1] }
     s.crew? 2 = some (bootCrew 2 1) ∧ crewOwes s 2 = false ∧ (∃ x ∈ s.crews, x.grid = 1 ∧ x.id ≠ 2)) ∧
    (let s : State := { having { parkedLane with status := .parked { parked with started := false } } with grids := [{ bootGrid 1 with handler := 0x30000 }] }
     (fatalPark (having { parkedLane with status := .parked { parked with started := false } }) 1).isSome = true ∧
     (wantsHandler s { parkedLane with status := .parked { parked with started := false } }).isSome = true ∧
     (handlerPlace s 0 parkedLane).isSome = true ∧
     (let t : State := { s with
        fibres := s.fibres ++ (List.range 128).map fun i => { lane with id := 10 + i, part := i / 32, lane := i % 32, ws := 1024 }
        time := { s.time with dtc := usTicks 1000 } }
      (handlerPlace t 0 parkedLane).isNone = true ∧ parked.since + usTicks 1000 ≤ t.time.dtc)) := by
  refine ⟨⟨by unfold NamesOk; decide, by decide, by decide, by decide, by decide, by decide⟩, by decide, by decide⟩

/-! ### Queues and packets -/

/-- A packet of 64 bytes fetched from that queue. -/
def aPacket (n : Nat) : Packet :=
  { id := 9, queue := 5, vf := 0, asid := 1, index := 0, bytes := natBytes 64 n, op := 5, cause := 0, state := .fetched, watch := [], since := 0, deadline := none, lastOp := 0 }
def withPacket (k : Packet) : State := { atQ { aQueue with state := .active, slot := some 0 } with packets := [k] }
/-- A start that runs. -/
def startsB (s : State) (p typ : Nat) : Bool := (pktStart s p typ).isSome
theorem startsB_spec {s : State} {p typ : Nat} (h : startsB s p typ = true) : ∃ k s1, Starts s p typ k s1 := by
  obtain ⟨x, hx⟩ := Option.isSome_iff_exists.mp h
  exact ⟨x.1, x.2, hx⟩
set_option maxRecDepth 8000 in
theorem witness_SignalUpdatesAtHome :
    (okIs (atomStorage at0 0x40000 8) ((List.range 8).map (0x40000 + ·)) ∧ eccFails at0 ((List.range 8).map (0x40000 + ·)) = false ∧
      ((List.range 8).map (0x40000 + ·)).Nodup) ∧
    translateWalk at0 0 1 0x3FFF_FFF8 .write = .ok 0x3FFF_FFF8 none ∧
    (let k := aPacket (9 + 0x40000 * 2 ^ 224 * 2 ^ 224)
     (withPacket k).packet? 9 = some k ∧ k.csig ≠ 0 ∧ k.csig.toNat % 8 = 0 ∧
     (match sigUpdate (packetRelease (withPacket k) k) k.vf k.asid (queueDie (packetRelease (withPacket k) k) 5) k.csig .sigDec k.op with
      | .ok _ => true | .error _ => false) = true) := by decide
/-- A queue with packet 9 of type SIGNAL in its first slot. -/
def atFull (q : Queue) : State := { atQ q with mem := memWrite (memWrite atW.mem 0x80000 [9]) (2 ^ 40 + 0x1008) [1] }
set_option maxRecDepth 8000 in
theorem witness_QueueResults :
    ((atQ aQueue).queue? (5 : DWord).toNat = some aQueue ∧ (5 : DWord).toNat < 65536 ∧ 65536 ≤ (0x10005 : DWord).toNat) ∧
    (headFound (atFull aQueue) aQueue = true ∧ (freeHwSlot (atFull aQueue) 0).isSome = true ∧ headFound (atQ aQueue) aQueue = false) ∧
    (let q := { aQueue with state := .active, slot := some 0, look := true }
     mayFetch (atFull q) q = true ∧ okIs (headWord (atFull q) q) 9 ∧ pktMalformed (atFull q) 0 9 = false) ∧
    (let q := { aQueue with state := .active, slot := some 0, look := true, ring := 0x100_0000_0000 }
     mayFetch (atFull q) q = true ∧ (match headWord (atFull q) q with | .ok _ => false | .error _ => true) = true) ∧
    (let q := { aQueue with state := .aborted }
     let s : State := { atFull q with packets := [aPacket 9] }
     (s.packets.find? fun p => p.queue == 5 && decide (p.state = .fetched)) = some (aPacket 9) ∧ q.rdidx < (atFull q).wridx q ∧ okIs (headWord (atFull q) q) 9) ∧
    (let q := { aQueue with state := .unmapped }
     nextQueue (atFull q) = some q ∧ queueWaits (atFull q) q = true) ∧
    (let q := { aQueue with state := .active, slot := some 127 }
     let w := { aQueue with qnum := 6, state := .unmapped }
     let s : State := { atFull q with queues := [q, w], time := { atW.time with dtc := 4000 * quantumOf atW 0 } }
     s.queues.find? (fun q => q.slot == some 127) = some q ∧ q.mappedAt + 4000 * quantumOf s 0 ≤ s.time.dtc ∧ queueWaits s w = true ∧ effOf s q ≤ effOf s w) := by
  decide
set_option maxRecDepth 8000 in
theorem witness_PacketResults :
    ([1, 2, 3, 4, 5, 6, 7, 8, 9].all fun t => startsB (withPacket (aPacket t)) 9 t) = true ∧
    (let s := withPacket (aPacket (7 + 0x40000 * 2 ^ 64))
     let k := { aPacket (7 + 0x40000 * 2 ^ 64) with state := .waiting, watch := [0x40000], deadline := some 0 }
     let t : State := { s with packets := [k], notifs := [.packet 9 5] }
     t.packet? 9 = some k ∧ barrierActive t k = true ∧ Notif.packet 9 5 ∈ t.notifs ∧ (∀ o, Notif.packet 9 o ∈ t.notifs → o = 5)) ∧
    barrierDecides false [0, 0] = some 0 ∧ barrierDecides true [1, -1] = none ∧
    (let k := aPacket 9
     k.csig = 0 ∧ (withPacket k).packet? k.id = some k ∧ ((withPacket k).queue? k.queue).isSome = true) := by
  refine ⟨by decide, ⟨by decide, by decide, by decide, ?_⟩, by decide, by decide, by decide⟩
  intro o h
  simpa using h

/-! ### Commands -/

/-- Function `vf`, whose list holds a command with this code and these arguments at 1 GiB; function 1 shares the tables of function 0. -/
def cmdFn (vf : Nat) : Fn := { bootFn with vf := vf, cmds := [⟨0x4000_0000, 0, 0⟩], counterBase := none }
/-- The cells of some 64-bit words whose upper 40 bits are zero. -/
def blockCells (a : Nat) : List Nat → List Host.Cell
  | [] => []
  | n :: ns => (((List.range 4).map fun i => (a + i, BitVec.ofNat 8 (n / 256 ^ i))).filter (·.2 ≠ 0)) ++ blockCells (a + 8) ns
def cmdState (vf code : Nat) (args : List Nat) : State :=
  { atW with fns := [cmdFn vf], ctxs := [{ bootCtx with vf := vf }],
             mem := atW.mem ++ blockCells (2 ^ 40) (code :: args) }
/-- The premises of `Serves`, with a further one that may speak of the function and the block, as a check that runs. -/
def servesB (s : State) (vf code : Nat) (p : Fn → Cmd → CmdBlock → Bool) : Bool :=
  match headCmd s vf with
  | some (f, c, some b) => decide (b.code = code) && decide (b.zero = 0) && !cmdDenied s f code && p f c b
  | _ => false
theorem servesB_spec {s : State} {vf code : Nat} {p : Fn → Cmd → CmdBlock → Bool} (h : servesB s vf code p = true) :
    ∃ f c b, Serves s vf code f c b ∧ p f c b = true := by
  unfold servesB at h
  split at h
  · rename_i f c b hh
    simp only [Bool.and_eq_true, decide_eq_true_eq, Bool.not_eq_true'] at h
    exact ⟨f, c, b, ⟨hh, h.1.1.1, h.1.1.2, h.1.2⟩, h.2⟩
  · cases h
/-- A command with its arguments. -/
def served (code : Nat) (args : List Nat) (p : State → Fn → Cmd → CmdBlock → Bool) : Bool :=
  servesB (cmdState 0 code args) 0 code fun f c b => p (cmdState 0 code args) f c b
theorem witness_QueueCommandResults :
    (match headCmd (cmdState 1 0x39 [7]) 1 with | some (f, _, some b) => decide (b.zero = 0 ∧ b.code = 0x39) && cmdDenied (cmdState 1 0x39 [7]) f 0x39 | _ => false) = true ∧
    cmdKnown 0x3F = false ∧
    (served 1 [0x4000_1000, 0x1000, 16, 7, 1] fun s f _ b => decide (3 ≤ b.arg 2 ∧ b.arg 2 ≤ 16 ∧ b.arg 3 ≤ 7 ∧ b.arg 4 ≤ 1 ∧ b.arg 0 % 64 = 0 ∧
      (s.queues.filter (·.vf == 0)).length < f.quotaQueues) && (freeQueue s).1.isSome && inWindow s f (b.arg 0)) = true ∧
    (servesB { cmdState 0 2 [5] with queues := [{ aQueue with state := .aborted }] } 0 2 fun f _ b =>
      decide (({ cmdState 0 2 [5] with queues := [{ aQueue with state := .aborted }] }).queue? (b.arg 0) = some { aQueue with state := .aborted } ∧ aQueue.vf = f.vf)) = true ∧
    isDrained (atQ { aQueue with state := .aborted }) { aQueue with state := .aborted } 0 = true ∧
    -- a queue of another function
    (∀ q, ({ atW with queues := [{ aQueue with vf := 3 }] }).queue? 5 = some q → q.vf ≠ 0) := by
  refine ⟨by decide +kernel, by decide, by decide +kernel, by decide +kernel, by decide, ?_⟩
  intro q h
  have : some q = some { aQueue with vf := 3 } := h.symm.trans (by decide)
  simp at this
  simp [this]
/-- GEN_BUMP with nothing under way; REGION_SET of a free slot, its words at 0x40000; TEMPLATE_CLEAR of a template without entries; KILL of a context. -/
theorem witness_ObjectCommandResults :
    (served 9 [1] fun s f _ b => ownAsid s f (b.arg 0) && s.accesses.isEmpty) = true ∧
    (served 9 [2] fun s f _ b => !ownAsid s f (b.arg 0)) = true ∧
    (served 5 [15, 63, 0x40000] fun s f _ b => okIs (devNat s 0 f.asid (BitVec.ofNat 64 (b.arg 2)) 16) 0 && decide (b.arg 0 ≤ 15 ∧ b.arg 1 ≤ 63)) = true ∧
    (let s := (cmdState 0 8 [0, 3, 63]).setChannel 3 fun c => { c with templates := [⟨63, 0, 1, copyDescOf copyRecord⟩] }
     servesB s 0 8 fun _ _ b => !foreignCluster s 0 (b.arg 0) &&
       decide (((s.channel (4 * b.arg 0 + b.arg 1)).templates.find? (·.idx == b.arg 2)) = some ⟨63, 0, 1, copyDescOf copyRecord⟩)) = true ∧
    (served 12 [1, 0, 1] fun s f _ b => decide (b.arg 0 = 1) && ownAsid s f (b.arg 2)) = true := by
  refine ⟨by decide +kernel, by decide +kernel, by decide +kernel, by decide +kernel, by decide +kernel⟩
/-- TRACE_LEVEL at the last function and beyond, RING_SIZE of an empty ring, SAMPLE_SET at the ends of its range, COMM_ADMIT without communicator. -/
theorem witness_ObservingCommandResults :
    (served 0x10 [256, 1] fun _ _ _ b => decide (b.arg 0 ≤ 256 ∧ b.arg 1 ≤ 1)) = true ∧
    (served 0x11 [0, 2 ^ 24] fun s _ _ b => decide (b.arg 1 ≠ 0 ∧ b.arg 1 % 2 ^ 24 = 0 ∧ (s.ring (b.arg 0)).recs = [])) = true ∧
    (served 0x15 [0, 20, 0x40000, 4096] fun _ _ _ b => decide (6 ≤ b.arg 1 ∧ b.arg 1 ≤ 20 ∧ b.arg 3 = 2 ^ 12 ∧ b.arg 2 % 64 = 0)) = true ∧
    (served 0x21 [1, 0, 0, 0] fun s _ _ _ => s.comms.isEmpty) = true := by
  refine ⟨by decide +kernel, by decide +kernel, by decide +kernel, by decide +kernel⟩
/-- CKPT_SET to device 9, UNEXPORT of an exported range at its deadline. -/
theorem witness_CheckpointExportCommandResults :
    (served 0x22 [1, 9, 0x40000, 1] fun s f c b => ownAsid s f (b.arg 0) && decide (b.arg 1 ≤ 4095 ∧ b.arg 1 ≠ s.dev.dev ∧ 1 ≤ b.arg 3 ∧ b.arg 3 ≤ 64 ∧ c.phase = 0) &&
      match devRead s 0 f.asid (BitVec.ofNat 64 (b.arg 2)) (16 * b.arg 3) with | .ok _ => true | .error _ => false) = true ∧
    (let s : State := { cmdState 0 0x27 [0x10000, 0x10000] with fns := [{ cmdFn 0 with cmds := [⟨0x4000_0000, 1, 0⟩], exports := [(0x10000, 0x10000)] }] }
     servesB s 0 0x27 fun f c b => decide ((b.arg 0, b.arg 1) ∈ f.exports ∧ c.phase = 1 ∧ c.due ≤ s.time.dtc)) = true := by
  refine ⟨by decide +kernel, by decide +kernel⟩
/-- VF_SLICE at both ends and beyond, PROFILE_SET, IMAGE_ACTIVATE of a staged image. -/
theorem witness_PartitionCommandResults :
    (served 0x31 [256, 100000] fun _ _ _ b => decide (b.arg 0 ≤ 256 ∧ 100 ≤ b.arg 1 ∧ b.arg 1 ≤ 100000)) = true ∧
    (served 0x31 [0, 99] fun _ _ _ b => decide (b.arg 1 < 100)) = true ∧
    (let s : State := { cmdState 0 0x34 [2] with dev := { State.reset.dev with dstate := 1 } }
     servesB s 0 0x34 fun _ _ b => decide (b.arg 0 ≤ 3 ∧ (∀ a ∈ b.args.drop 1, a = 0) ∧ s.dev.dstate ≠ 2 ∧ s.dev.changing = none ∧ b.arg 0 ≠ s.dev.profile)) = true ∧
    (let s : State := { cmdState 0 0x39 [7] with dev := { State.reset.dev with dstate := 1, images := [⟨1, 7, 0, 0, []⟩] } }
     servesB s 0 0x39 fun _ _ b => decide (∃ i ∈ s.dev.images, i.kind = 1 ∧ i.version = b.arg 0)) = true := by
  refine ⟨by decide +kernel, by decide +kernel, by decide +kernel, by decide +kernel⟩

/-! ### Host, engines, memory, contexts, fabric, greenware, time -/

/-- The device in operation. -/
def up : State := { at0 with dev := { State.reset.dev with dstate := 1 } }
set_option maxRecDepth 8000 in
theorem witness_HostLinkResults :
    (up.fn? 0 = some bootFn ∧ hostUp up = true ∧ bootFn.resetting = false ∧ bootFn.cmds.length < 64 ∧ bootFn.featctl = 1) ∧
    (let f := { bootFn with featctl := 0, feat := [0, 15], counterBase := none, cmds := List.replicate 64 ⟨0, 0, 0⟩, flushes := [⟨3, 9, []⟩] }
     let s : State := { up with fns := [f] }
     s.fn? 0 = some f ∧ 64 ≤ f.cmds.length ∧ f.featctl ≠ 1 ∧ 0 ∈ f.feat ∧ (∀ b ∈ f.feat, b ∈ offered s) ∧ 15 ∈ f.feat ∧ (freeCounters s 0 f.quotaCounters).isSome = true) ∧
    ((0x2_0000_0007 : DWord).toNat / 2 ^ 34 = 0 ∧ (0x2_0000_0007 : DWord).toNat / 2 ^ 32 % 4 = 2 ∧ (0x4_0000_0000 : DWord).toNat / 2 ^ 34 ≠ 0) ∧
    hostUp { at0 with dev := { State.reset.dev with dstate := 0 } } = false ∧
    (barOpen up 0 0x40000 8 = true ∧ barOpen up 0 (2 ^ 40) 8 = false ∧ pagesOf 0x40000 8 = [(0x40000, 8)] ∧
      (match stage2 up 0 0x40000 with | .ok (e, _) => e.testBit 5 && e.testBit 3 && !e.testBit 11 | .error _ => false) = true ∧
      okIs (writable up 0x40000 8) ((List.range 8).map (0x40000 + ·))) ∧
    (2 ^ 23 - 8) + 8 ≤ 2 ^ 23 := by decide
/-- A copy of one row at the head of channel 0, a tile task at the head of core 0's queue. -/
def anEntry : ChanEntry :=
  { id := 7, kind := .copy (copyDescOf copyRecord), vf := 0, asid := 1, core := 0, crew := some 2, owner := some 2, op := 5, waiter := .nobody, detail := false,
    accepted := true, started := false, row := 0, status := 0, outstanding := [], tmpl := none }
def withEntry (e : ChanEntry) : State := { at0 with channels := [⟨0, [e], []⟩] }
def anOp : MxOp :=
  { id := 7, kind := .tile (tileRecOf tileRecord), crew := some 2, scrBase := 0, scrSize := 4096, vf := 0, asid := 1, op := 5, waiter := .token 3 20 9,
    started := false, chunk := 0, drain := none }
set_option maxRecDepth 8000 in
theorem witness_EngineEventResults :
    (headEntry (withEntry anEntry) 0 = some anEntry ∧ asidRuns at0 1 = true ∧ anEntry.kind = .copy (copyDescOf copyRecord)) ∧
    (let e := { anEntry with started := true }
     headEntry (withEntry e) 0 = some e ∧ (withEntry e).entry? 0 7 = some e ∧ e.row < (copyDescOf copyRecord).rows ∧ (copyDescOf copyRecord).dkind = 0 ∧
       pagesOf (srcAt (copyDescOf copyRecord) 0) 64 = [(srcAt (copyDescOf copyRecord) 0, 64)] ∧
       translateWalk (withEntry e) 0 1 (srcAt (copyDescOf copyRecord) 0) .read = .ok 0x40000 none ∧
       translateWalk (withEntry e) 0 1 (dstAt (copyDescOf copyRecord) 0) .write = .ok 0x50000 none ∧
       okIs (writable (withEntry e) 0x50000 64) ((List.range 64).map (0x50000 + ·))) ∧
    ((withEntry { anEntry with accepted := false }).channel 0).entries.find? (fun e => !e.accepted) = some { anEntry with accepted := false } ∧
    (let s := at0.setCore 0 fun c => { c with mxq := [anOp] }
     headOp s 0 = some anOp ∧ asidRuns s 1 = true ∧ anOp.drain = none ∧ anOp.waiter = .token 3 20 9) ∧
    (let a := { aWrite with spa := 2 ^ 41, op := .write ((List.range 4).zip (natBytes 4 63)) false }
     let s : State := { withAccess a with channels := [⟨0, [], [⟨63, 0, 1, copyDescOf copyRecord⟩]⟩] }
     s.accesses.find? (·.ref == 7) = some a ∧ canPerform s a = true ∧ a.gen = s.gen 1 ∧ apertureStore s a = some (0, 0, 63) ∧ chanRoom s 0 = true) := by decide
set_option maxRecDepth 8000 in
theorem witness_MemoryEventResults :
    (at0.core 0).boundary = 524288 ∧ (0 < 192 ∧ 458752 % 16384 = 0 ∧ (∀ r ∈ scrTaken at0 0, r.1 + r.2 ≤ 458752) ∧ 458752 ≤ topBoundary at0 0 0 ∧ (at0.core 0).boundary ≤ 458752 + 65536) ∧
    (15 < 16 ∧ (at0.backed / 1024 - 1) * 1024 < at0.backed) ∧ ((at0.stackSt? 15).bind (·.failed) = none) ∧
    (∃ c ∈ at0.ctxs, c.asid = 1) ∧ (∀ a ∈ at0.accesses, a.asid = 1 → a.gen = at0.gen 1) ∧
    (let r : ResReq := ⟨8, 0, 1, 0x40000, true, 0⟩
     let s : State := { at0 with resReqs := [r] }
     s.resReqs.find? (·.ref == 8) = some r ∧ r.asked = true ∧ r.deadline ≤ s.time.dtc) ∧
    (bumpReadyFn at0 0 = true ∧ isExported at0 0 0x40000 4096 = false ∧ (validLeaf at0 0 0x40000).isSome = true) ∧
    ((having parkedLane).fibre? 3 = some parkedLane ∧ firmwareFirst parked.frec = false ∧ firmwareFirst { parked.frec with code := 0x92, s2 := true } = true) ∧
    (24 ∉ at0.dev.badBoundaries ∧ ∀ d < 8, ∃ x ∈ boundariesOf d, x ≠ 24 ∧ x ∉ at0.dev.badBoundaries) := by decide
theorem witness_ContextResults :
    (at0.ctx? 1 = some bootCtx ∧ bootCtx.state = .running) ∧
    (let c := { bootCtx with state := .halting }
     let s : State := { at0 with ctxs := [c] }
     s.ctx? 1 = some c ∧ drained s 1 = true) ∧
    (let i : Image := ⟨3, true, 0, false, 5, 0, [bootCrew 2 1], [lane], [], [], []⟩
     let c := { bootCtx with state := .saved, image := some i }
     let s : State := { at0 with fibres := [], crews := [], ctxs := [c] }
     s.ctx? 1 = some c ∧ imageOk s c i = true ∧ coresFit s c i [] = true ∧ imageOk s c { i with digestOk := false } = false ∧ (∀ f ∈ i.fibres, f.status = .ready) ∧
       ∀ g ∈ s.grids, g.asid = 1 → g.killed = none) ∧
    (let e : FwdEntry := ⟨2, 1, 0, some 5, some 0, 7, [0x1000], [(0x1000, 5)]⟩
     let s := at0.setCore 0 fun c => { c with fwd := [e] }
     heldItem (s.core 0) = some (e, 5, 0x1000, 5) ∧ (s.core 0).fwd.find? (·.crew == 2) = some e ∧ e.since = some 0) ∧
    ((4096, 0, 5) ∈ ({ at0 with moves := [(4096, 0, 5)] }).moves) ∧ sliceOver { at0 with time := { at0.time with dtc := 2 ^ 40 } } bootFn = true := by decide
/-- A read request of device 9 for this device, on plane 23, the first of its sequence. -/
def aPkt : FabPkt :=
  { cid := 5, addr := 0x40000, srcdev := 9, dstdev := BitVec.ofNat 12 State.reset.dev.dev, pkey := 7, seq := 0xFFFFFF, op := 1, len := 0, vc := 0,
    homeOp := .read, size := 8, order := 0, scope := 0, plane := 23, tag := 3, zero7 := 0, svf := 0, zero16 := 0, payload := [] }
theorem witness_FabricResults :
    InOrder up aPkt 1 ∧ pktBad { aPkt with zero7 := 1 } = true ∧ pktBad { aPkt with op := 0x0F } = true ∧
    (let s : State := { up with reorder := [⟨9, 23, some 5, 0, []⟩] }
     (s.reorderOf 9 23).next = some 5 ∧ 5 ≠ aPkt.seq.toNat ∧ (s.reorderOf 9 23).held.length < 4096) ∧
    (up.place 0x40000 = .hbm 0 0x40000 ∧ exporter up 7 0x40000 = none ∧ up.place (2 ^ 40) = .window 0 ∧ up.place (2 ^ 41) = .aperture 0 0) ∧
    (let s : State := { up with fns := [{ bootFn with pkey := some 7, exports := [(0x40000, 0x10000)] }] }
     (s.fns.find? fun f => f.pkey == some 7 && counterOk s f.vf 0) = some { bootFn with pkey := some 7, exports := [(0x40000, 0x10000)] }) ∧
    (let r : RemoteReq := ⟨3, 9, 23, 0x40000, 8, 0, .access 7⟩
     let s : State := { withAccess { aRead with dev := some 9, sent := true } with remote := [r], dev := up.dev, time := { up.time with dtc := usTicks 200 } }
     requestOf s { aPkt with op := 5 } = some r ∧ s.remote.find? (·.tag == 3) = some r ∧ r.open = true ∧ r.since + usTicks 200 ≤ s.time.dtc) ∧
    (let s : State := { up with reorder := [⟨9, 23, some 5, 0, [aPkt]⟩], time := { up.time with dtc := usTicks 100 } }
     (s.reorderOf 9 23).held ≠ [] ∧ (s.reorderOf 9 23).since + usTicks 100 ≤ s.time.dtc) ∧
    (let s := (up.setPort 0 fun p => { p with lanes := 8 }).setPort 23 fun p => { p with lanes := 2 }
     ((s.port 0).lanes, 4) ∈ [(8, 4), (4, 2)] ∧ (s.port 23).lanes = 2 ∧ (s.port 23).lanes < 8) := by
  refine ⟨⟨by decide, by decide, by decide, by decide, by decide, by decide, by decide⟩, by decide, by decide, by decide, by decide, by decide, by decide, by decide, by decide⟩
/-- A participant whose cone has run out, an unfired handle, one that has fired and is retained, a query. -/
def aPart : CollPart :=
  { rank := 0, die := 0, src := 0, dst := 0, seq := 1, op := 5, arrived := true, deadline := 0, arrivals := [(0, 0, 5)], roster := none, doomed := false, sent := false,
    contrib := [], result := none, written := none, lastOp := 0, done := false, abort := 0 }
def aColl : Coll := { id := 7, comm := 1, vf := 0, asid := 1, src := .packet 9, op := 5, kind := 3, red := 0, ty := 0, count := 1, root := 0, tmo := 0, insw := false,
                      elastic := true, parts := [aPart] }
def anHandle (st : Nat) : GwEntry := { die := 0, idx := 4, state := st, code := 0, vf := 0, gen := 1, ldie := 0, ldev := 0, whenDtc := 0, op := 5, queue := [], deps := [] }
theorem witness_CollectiveGreenwareResults :
    (let s : State := { up with colls := [aColl] }
     s.coll? 7 = some aColl ∧ aColl.part? 0 = some aPart ∧ aPart.deadline ≤ s.time.dtc) ∧
    (let p := { aPart with roster := some [0], written := some [] }
     let c := { aColl with parts := [p] }
     ({ up with colls := [c] } : State).coll? 7 = some c ∧ c.part? 0 = some p ∧ partReady { c with } { p with sent := true, contrib := [] } false = false) ∧
    (({ up with green := [anHandle 1] } : State).gwEntry 0 4).state = 1 ∧ (({ up with green := [anHandle 2] } : State).gwEntry 0 4).state = 2 ∧
    (let s : State := { up with green := [anHandle 2], time := { up.time with dtc := usTicks bootFn.retention } }
     s.fn? 0 = some bootFn ∧ (anHandle 2).whenDtc + usTicks bootFn.retention ≤ s.time.dtc) ∧
    (keyFn up 7 = none ∧ keyFn { up with fns := [{ bootFn with pkey := some 7 }] } 7 = some 0) ∧
    (let q : GwQuery := ⟨6, some 0, 3, 1, false, none⟩
     let s : State := { up with gwQueries := [q], time := { up.time with dtc := usTicks 200 } }
     s.gwQueries.find? (fun q => q.ref == 6 && q.dev.isNone) = some q ∧ 0 + usTicks 200 ≤ s.time.dtc) := by decide
theorem witness_TimePowerDebugResults :
    ((-3999 : Int).natAbs < 4000 ∧ (4000 : Int) ≤ 4000 ∧ (-4000 : Int) ≤ -4000 ∧ anyLive at0 = true ∧ anyLive State.reset = false) ∧
    (let s : State := { at0 with flue := [⟨0x40, [⟨0x0901, 0, 0, 0x40, 5, 0, 0⟩]⟩] }
     s.flue.find? (·.src == 0x40) = some ⟨0x40, [⟨0x0901, 0, 0, 0x40, 5, 0, 0⟩]⟩ ∧ (s.ring 0).newDrops = 0) ∧
    (let s : State := { at0 with ctxs := [{ bootCtx with attached := true }], fibres := [{ lane with status := .debugHeld, b1 := ⟨.w64, 5⟩ }] }
     dbgFibre s 1 3 = some { lane with status := .debugHeld, b1 := ⟨.w64, 5⟩ } ∧ lane.hasWindow = true ∧ 59 < lane.ws ∧ lane.ws ≤ 60 ∧ lane.b0.mark = .void ∧
       isAttached s 1 = true ∧ heldLanes s 1 3 = [3]) ∧
    isAttached at0 1 = false ∧ heldLanes at0 1 3 = [] ∧
    (let s : State := { up with dev := { up.dev with dstate := 0, prevMonitor := some 1 }, time := { up.time with dtc := usTicks 2000000 } }
     s.dev.prevMonitor = some 1 ∧ s.dev.bootAt + usTicks 2000000 ≤ s.time.dtc) ∧
    isResetting at0 0 = false ∧ (profileWatts up.dev.profile < 5000 ∧ up.dev.overRun < 9) ∧
    (let p := { aPkt with op := 0x30, vc := 3 }
     p.op = 0x30 ∧ pktBad p = false ∧ p.dstdev.toNat = up.dev.dev) := by decide

/-! ### Further clauses -/

/-- The first 2 MiB of guest memory in small pages: the stage-1 tables, the page at 0x40000; nothing at 0x41000. -/
def smallMem : List Host.Cell :=
  let leaf (m : List Host.Cell) (n : Nat) : List Host.Cell := memWrite m (0x29000 + 8 * n) (natBytes 8 (4096 * n + 0x3B))
  leaf (leaf (leaf (leaf (memWrite (memWrite tables 0x22000 (natBytes 8 (0x28000 + 1))) 0x28000 (natBytes 8 (0x29000 + 1))) 0x24) 0x25) 0x26) 0x40
/-- The machine over them; its function has two free frames, and 0x41000 is assigned to it. -/
def atSmall : State := { at0 with mem := smallMem, fns := [{ bootFn with pool := [(0x50000, 0x2000)], assigned := [(0x41000, 0x1000, 0x60000), (0x40000, 0x1000, 0x40000)] }] }
set_option maxRecDepth 8000 in
theorem witness_PageEvents :
    (validLeaf atSmall 0 0x40000 = some (0x29200, 0x4003B, 1) ∧ (0x4003B).testBit 5 = true ∧ (0x4003B).testBit 9 = false ∧ (0x4003B).testBit 11 = false ∧
      isExported atSmall 0 0x40000 4096 = false ∧ bumpReadyFn atSmall 0 = true ∧ takeGiven [(0x50000, 0x2000)] 0x51000 4096 = some [(0x50000, 0x1000)]) ∧
    -- the second step of a migration
    (let s : State := { atSmall with mem := memWrite smallMem 0x29200 (natBytes 8 0x4023B), migrations := [⟨0, 0x40000, 0x51000⟩] }
     validLeaf s 0 0x40000 = some (0x29200, 0x4023B, 1) ∧ s.migrations.find? (fun m => m.vf == 0 && m.gpa == 0x40000 / 4096 * 4096) = some ⟨0, 0x40000, 0x51000⟩ ∧
       okIs (readAt { s with migrations := [] } (pfnOf 0x4023B) 4) [0, 0, 0, 0]) ∧
    -- a page that is not resident, an exported one
    (let s : State := { atSmall with mem := memWrite smallMem 0x29200 (natBytes 8 0x4001B) }
     validLeaf s 0 0x40000 = some (0x29200, 0x4001B, 1) ∧ (0x4001B).testBit 5 = false) ∧
    isExported { atSmall with fns := [{ bootFn with exports := [(0x40000, 0x1000)] }] } 0 0x40000 4096 = true ∧
    -- the frame of that page changes hands
    (let c := cutFrame [(0x41000, 0x1000, 0x60000), (0x40000, 0x1000, 0x40000)] 0x40000 4096
     c.1 = [(0x40000, 0x1000)] ∧ (∀ g ∈ c.1, isExported atSmall 0 g.1 g.2 = false) ∧
     (mapLeaf ((markFrame ((bumpFn (clearLeaves atSmall 0 0x40000 0x1000) 0).setFn 0 fun f => { f with assigned := c.2, pool := f.pool }) 0x40000 4096).setFn 0
        fun f => { f with assigned := f.assigned ++ [(0x42000, 4096, 0x40000)] }) 0 0x42000 1 (ownLeaf 0x40000)).isSome = true) ∧
    -- a leaf that the firmware rebuilds
    (translateWalk atSmall 0 1 0x41000 .read = .fail 0x92 2 ∧ faultGpa atSmall 0 1 0x41000 = some 0x41000 ∧ (rebuildLeaf atSmall 0 0x41000).isSome = true ∧
      translateWalk atSmall 0 1 0x40000 .read = .ok 0x40000 none ∧ (rebuildLeaf atSmall 0 0x43000).isNone = true) := by decide
set_option maxRecDepth 8000 in
/-- A line that parity rebuilds, a failed channel, an access that holds a bump up, requests for residency. -/
theorem witness_MemoryStates :
    (let s : State := { at0 with eccBad := [4096, 9], dev := { State.reset.dev with parity := true, dstate := 1 } }
     s.rebuilds (64 * 4096) = true ∧ 4096 ∈ s.eccBad ∧ 16 * 256 ≤ 4096 ∧ 256 * 1024 < s.backed) ∧
    (let s := at0.setStack 15 fun x => { x with failed := some 31 }
     (s.stackSt? 15).bind (·.failed) ≠ none ∧ s.stackSt? 15 = some { StackSt.fresh 15 with failed := some 31 } ∧ 0 < s.backed / 1024) ∧
    (∃ a ∈ (withAccess { aRead with gen := 255 }).accesses, a.asid = 1 ∧ (a.gen ≠ at0.gen 1 ∨ a.resp = .none ∧ (a.done ≠ 0 ∨ a.half ≠ none))) ∧
    (let r : ResReq := ⟨8, 0, 1, 0x40000, false, 0⟩
     (∀ s ∈ [{ at0 with resReqs := [r] }, { at0NoPages with resReqs := [r] }], s.resReqs.find? (·.ref == 8) = some r) ∧ resNext at0 r = .token 0 ∧
       resNext { at0NoPages with resReqs := [r] } r = .token 1 ∧ resNext at0NonRes r = .fill 0x24000 ∧ fillLeaf at0NonRes 0 0x24000 = none ∧
       r.covers at0 0 1 0x41000 = true ∧ r.covers at0 0 1 0x4000_0000 = false) := by decide
/-- Held accesses at a save; a plug-in at a slice's end; an item for a crew that has moved. -/
theorem witness_SavedAccess :
    (let a := { aWrite with resp := .held }
     heldAccesses (withAccess a) 1 = [a] ∧ a.owner = some lane.id ∧ lane ∈ (withAccess a).fibres ∧ lane.status = .ready ∧ drained (withAccess a) 1 = true) ∧
    (let f := { bootFn with pluginPin := 1 }
     let s : State := { at0 with fns := [f], time := { at0.time with dtc := 2 ^ 40 } }
     s.fn? 0 = some f ∧ sliceOver s f = true ∧ f.pluginPin ≠ 0) := by decide
/-- A ring whose writer has records to write, behind a drop and not; a record of the whole device. -/
theorem witness_RingWriter :
    (let x : Rec := ⟨0x0901, 0, 0, 0x40, 5, 0, 0⟩
     let s := at0.setRing 0 fun r => { r with backlog := [x] }
     let t := at0.setRing 0 fun r => { r with backlog := [x], newDrops := 1 }
     let u : State := { at0 with flue := [⟨1, [⟨0x0F03, 0, 0xFFFF, 1, 5, 0, 0⟩]⟩] }
     (s.ring 0).backlog = [x] ∧ (s.ring 0).newDrops = 0 ∧ (s.ring 0).recs.length < (s.ring 0).size ∧ (t.ring 0).newDrops ≠ 0 ∧ 2 ≤ (t.ring 0).size ∧
     u.flue.find? (·.src == 1) = some ⟨1, [⟨0x0F03, 0, 0xFFFF, 1, 5, 0, 0⟩]⟩ ∧ (u.ring 256).backlog.length ≤ 4096) := by decide
/-- A message that is refused, in a table that serves; a bank that a debugger's read wakes. -/
theorem witness_TableServes :
    (0 < 8 ∧ 0 ∉ up.dev.lostDies ∧ up.dev.dstate ≠ 2 ∧ up.gwNet = [] ∧ 9 ≠ up.dev.dev) ∧
    (let i : Invocation := { handle := 0, image := 0, tk := false, target := 0, argh := 0, vf := 0, pkey := 0, cid := 0 }
     let r : GwRetry := ⟨8, 0, 0, 5, false, true, i⟩
     ({ up with gwRetry := [r] } : State).gwRetry.find? (fun r => r.die == 0 && r.dst == 5) = some r ∧ r.refused = true) ∧
    (at0.fibre? lane.id = some lane ∧ lane.hasWindow = true ∧ 59 < lane.ws) := by decide
/-- A queue that is mapped into the last slot; a packet whose work still writes to another device; a wait of a flush. -/
theorem witness_QueueAndFlushStates :
    (let q := { aQueue with state := .unmapped }
     127 < 128 ∧ 127 / 16 ∉ (atFull q).dev.lostDies ∧ (∀ x ∈ (atFull q).queues, x.slot ≠ some 127) ∧ (∀ p ∈ (atFull q).packets, p.queue = q.qnum → p.state ≠ .waiting)) ∧
    (let k := aPacket (6 + 2 * 2 ^ 11)
     opWrites { withPacket k with accesses := [{ aWrite with agent := .engine, dev := some 9, sent := true, opid := 5 }] } 5 = true ∧ k.rel = 2 ∧
       opWrites (withPacket k) 5 = false ∧ mayStart (withPacket k) k = true) ∧
    (let x : FlushReq := ⟨1, 9, [7]⟩
     let s : State := { withAccess { aWrite with agent := .host 0 } with fns := [{ bootFn with flushes := [x] }] }
     (∃ r ∈ x.waits, ∃ a ∈ s.accesses, a.ref = r) ∧ s.fn? 0 = some { bootFn with flushes := [x] }) ∧
    (hasLine up 0 0x1000 = false ∧ okIs (readAt up 0x40000 64) (List.replicate 64 0) ∧ up.hostLines = []) := by decide
/-- An entry that waits for what its operation knows; a stale read of another device; a throttled row and a full side buffer. -/
theorem witness_EngineWaits :
    (clockNeeds (withEntry anEntry) 7 = [] ∧ MemCanonical (withEntry anEntry)) ∧
    (let s : State := { withEntry anEntry with clocks := [⟨.work 7, [], [7]⟩], accesses := [aRead] }
     clockNeeds s 7 ≠ []) ∧
    (let a := { aRead with dev := some 9, gen := 1 }
     canPerform (withAccess a) a = true ∧ a.gen ≠ (withAccess a).gen a.asid ∧ 9 ∉ (withAccess a).dev.lostDevs) := by
  refine ⟨⟨by decide, by unfold MemCanonical; decide⟩, by decide, by decide⟩
/-! ### Greenware between devices, holds, collective pieces -/
def anInv (h : DWord) : Invocation := { handle := h, image := 0x40, tk := true, target := 0x0003_0004_0001_0000, argh := 0, vf := 0, pkey := 7, cid := 9 }
def aHandle : DWord := 0x0000_0004_0001_0000
theorem witness_GreenwareMessages :
    (let s : State := { up with green := [anHandle 1] }
     let lost : State := { s with dev := { s.dev with lostDevs := [9] } }
     gwCurrent s aHandle = some (anHandle 1) ∧ (anHandle 1).state = 1 ∧ placeLost s 9 2 = false ∧ gwCurrent lost aHandle = some (anHandle 1) ∧
       placeLost lost 9 2 = true ∧ gwCurrent { up with green := [anHandle 2] } aHandle = some (anHandle 2)) ∧
    (let r : GwRetry := ⟨8, 0, 0, 5, false, true, anInv 0⟩
     let s : State := { up with gwRetry := [r], time := { up.time with dtc := 8000 } }
     s.gwRetry.find? (fun r => r.die == 0 && r.dst == 5) = some r ∧ r.since + usTicks 2 ≤ s.time.dtc ∧ up.time.dtc < r.since + usTicks 2) ∧
    (let p := { aPkt with op := 0x20, vc := 2, payload := gwPayload 3 (.run (anInv 5)) }
     InOrder up p 0x20 ∧ gwOf p.payload = some (3, .run (anInv 5)) ∧ gwOf (aPkt.payload ++ [11]) = none) ∧
    (let s : State := { up with dev := { up.dev with changing := some 2 } }
     s.dev.changing = some 2 ∧ memHeld s = true ∧ aRead.dev = none ∧ memHeld { up with dev := { up.dev with changing := some 1 } } = false) ∧
    (at0.ctx? 1).isSome = true ∧ at0.ctx? 7 = none := by
  refine ⟨by decide, by decide, ⟨⟨by decide, by decide, by decide, by decide, by decide, .inl (by decide), by decide⟩, by decide, by decide⟩, by decide, by decide, by decide⟩
/-- A retry list with `n` messages before the last one. -/
def retryList (n : Nat) : List GwRetry := List.replicate n ⟨7, 0, 0, 9, false, true, anInv 1⟩ ++ [⟨8, 0, 0, 9, false, true, anInv 5⟩]
theorem retryHolds_list (s : State) (n : Nat) (hs : s.gwRetry = retryList n) : retryHolds s 5 = decide (4096 ≤ n) := by
  have h : (retryList n).find? (·.inv.handle == 5) = some ⟨8, 0, 0, 9, false, true, anInv 5⟩ := by
    cases n with
    | zero => rfl
    | succ n => simp [retryList, List.replicate_succ, anInv]
  have t : ∀ n, (((retryList n).takeWhile (·.ref != 8)).filter fun x => x.die == 0 && x.refused).length = n := by
    intro n
    cases n with
    | zero => rfl
    | succ n => simp [retryList, List.replicate_succ]
  simp only [retryHolds, hs, h, t]
theorem witness_HeldResults :
    (let o : Owed := { ref := 8, fibre := 3, reg := 7, words := 2, isTime := true, val := some 5, token := none }
     let s : State := { at0 with owed := [o] }
     s.access? 8 = none ∧ s.owed.find? (·.ref == 8) = some o ∧ o.isTime = true ∧ s.time.dtc < (5 : DWord).toNat) ∧
    (let o : Owed := { ref := 8, fibre := 3, reg := 7, words := 2, isTime := false, val := some 5, token := none }
     let s : State := { at0 with owed := [o], gwRetry := retryList 4096 }
     s.access? 8 = none ∧ s.owed.find? (·.ref == 8) = some o ∧ o.words = 2 ∧ o.isTime = false ∧ retryHolds s 5 = true) :=
  ⟨by decide, by decide, by decide, rfl, rfl, (retryHolds_list _ 4096 rfl).trans (by decide)⟩
/-- A message between tables survives its payload; pieces of a contribution join in any order. -/
theorem test_gw_message_payload :
    gwOf (gwPayload 3 (.fire aHandle 9 2 5)) = some (3, .fire aHandle 9 2 5) ∧ gwOf (gwPayload 7 (.crack aHandle 4 5)) = some (7, .crack aHandle 4 5) ∧
    gwOf (gwPayload 0 (.query aHandle 6 1 true 2)) = some (0, .query aHandle 6 1 true 2) ∧ gwOf (gwPayload 1 (.busy 3 (anInv 5) true)) = some (1, .busy 3 (anInv 5) true) ∧
    (gwPayload 1 (.busy 3 (anInv 5) true)).length = 80 := by decide
set_option maxRecDepth 16000 in
theorem test_coll_pieces_join :
    let m : CollMsg := { vf := 0, comm := 1, flag := 1, kind := 2, red := 0, ty := 0, root := 0, count := 60, frm := 1, rcv := 0, n := 2, seq := 3, off := 0, total := 240,
                         data := (List.range 240).map (BitVec.ofNat 8), op := 5 }
    (collPieces m).length = 2 ∧ (collPieces m).reverse.foldl addMsg [] = [m] ∧ (collPieces m).foldl addMsg [] = [m] := by decide

/-! ### Forms beside the common ones -/
set_option maxRecDepth 8000 in
theorem witness_InstructionEdges :
    ((translate (walkView at0NoPages 3) (coreCluster (at0NoPages.fibreCore lane)) 0 1 0x40000 .read).1 = .fail 0x90 1) ∧
    (let l := lane.setRegs [(4, 0x1000), (6, 0)]
     let f : LF := ⟨0x2040, 3, 0, 0, 0, 0, 6, 8, 4, 63⟩
     soleE (.cpa f) (having l) l fun e u => decide (l.tag 2 < 63 ∧ (l.src 8).toNat % cpaSize e = 0 ∧
       (l.src 8).toNat + cpaSize e ≤ scrBytes (issueCounts e u (having l)) l ∧ cpaValid e l = 0)) ∧
    (let l := lane.setRegs [(4, 0x1001)]
     soleE (.lease ⟨1000, 0, 0, 0, 0, 0, 63, 6, 4, 7⟩) (having l) l fun _ _ => decide ((l.src64 4).toNat % 4096 ≠ 0)) ∧
    (let l := lane.setRegs [(4, 0), (5, 0x0200_0000)]
     soleE (.resreq ⟨0, 0, 0, 0, 0, 0, 63, 63, 4, 7⟩) (having l) l fun _ _ => decide (2 ^ 57 ≤ (l.src64 4).toNat)) ∧
    (let l := lane.setRegs [(4, 0), (5, 0x0010_0000)]
     soleE (.hstat ⟨0, 0, 0, 0, 0, 0, 63, 63, 4, 7⟩) (having l) l (fun _ _ => decide ((l.src64 4).toNat % 256 = 0 ∧ handleDev (l.src64 4) ≠ (having l).dev.dev)) ∧
     soleE (.hwait ⟨0, 0, 0, 0, 0, 0, 63, 63, 4, 7⟩) (having l) l fun _ _ => true) := by decide
set_option maxRecDepth 8000 in
theorem witness_WakeEdges :
    (let f : LF := ⟨0, 0, 0, 0, 0, 0, 63, 10, 4, 7⟩
     let s := at0.setCore 0 fun c => { c with wake := (List.range 16).map fun i => ⟨i, 9, [5]⟩ }
     soleE (.wwait f) s lane fun e u => wwaitReady s e lane &&
       decide ((checkAddr (issueCounts e u s) lane (lAddr f lane) 8 .read).1 = .ok 0x40000 none ∧ s.place 0x40000 = .hbm 0 0x40000) &&
       okIs (readAt s 0x40000 8) (List.replicate 8 0) && (wakeArm ((issueCounts e u s).core 0) (0x40000 / 64) 1 3).isNone) ∧
    (let f : LF := ⟨0, 0, 0, 0, 0, 0, 63, 10, 4, 7⟩
     let l := enqLaneOf 9
     let s := { atW with fibres := [l] }
     soleE (.wwait f) s l fun e u => wwaitReady s e l &&
       decide ((checkAddr (issueCounts e u s) l (lAddr f l) 8 .read).1 = .ok (2 ^ 40 + 0x1000) none) &&
       match s.place (2 ^ 40 + 0x1000) with | .hbm _ _ => false | _ => true) := by decide

end Sys2Proof.Tests
end

section
/-! PROOFS. What a read at the home sees after an operation of the memory or of a source of records: each writer said once, byte by byte. -/

namespace Sys2Proof.Machine

/-! ### Operations that leave every byte as it was -/

/-- A byte at its home depends on the memory and the scrub marks alone. -/
theorem State.getByte_congr {s t : State} (hm : t.mem = s.mem) (hk : t.scrubMarks = s.scrubMarks) (a : Nat) : t.getByte a = s.getByte a := by
  unfold State.getByte State.marked; rw [hm, hk]

theorem getByte_foldl {α : Type} {f : State → α → State} {a : Nat} (h : ∀ s x, (f s x).getByte a = s.getByte a) (l : List α) (s : State) :
    (l.foldl f s).getByte a = s.getByte a := by
  induction l generalizing s with
  | nil => rfl
  | cons x l ih => exact (ih _).trans (h s x)

@[simp] theorem getByte_heal (s : State) (bs : List Nat) (a : Nat) : (s.heal bs).getByte a = s.getByte a := by
  unfold State.heal; split <;> rfl

@[simp] theorem getByte_hostStale (s : State) (bs : List Nat) (a : Nat) : (hostStale s bs).getByte a = s.getByte a := by
  unfold hostStale; split <;> rfl

@[simp] theorem getByte_stampWrite (s : State) (die : Nat) (bs : List Nat) (st : Stamp) (a : Nat) :
    (stampWrite s die bs st).2.getByte a = s.getByte a := by
  cases bs <;> rfl

@[simp] theorem getByte_addClock (s : State) (k : ClockKey) (st : Stamp) (a : Nat) : (s.addClock k st).getByte a = s.getByte a :=
  State.getByte_congr (by simp) (by simp) a

@[simp] theorem getByte_setRing (s : State) (n : Nat) (f : Ring → Ring) (a : Nat) : (s.setRing n f).getByte a = s.getByte a :=
  State.getByte_congr rfl rfl a

@[simp] theorem getByte_emit (s : State) (src code : Nat) (op cause : DWord) (arg vf a : Nat) :
    (emit s src code op cause arg vf).getByte a = s.getByte a := by
  unfold emit emitRec
  split
  · rfl
  · split
    · rfl
    · exact getByte_foldl (fun t id => getByte_setRing t id _ a) _ s

@[simp] theorem getByte_pump (s : State) (n a : Nat) : (pump s n).getByte a = s.getByte a := by
  unfold pump; split <;> rfl

@[simp] theorem getByte_sendPkt (s : State) (p : FabPkt) (a : Nat) : (sendPkt s p).getByte a = s.getByte a :=
  getByte_pump _ _ a

@[simp] theorem getByte_notify (s : State) (bs : List Nat) (op : DWord) (a : Nat) : (notify s bs op).getByte a = s.getByte a :=
  getByte_foldl (fun _ _ => getByte_sendPkt _ _ a) _ _

/-! ### Operations that write bytes -/

/-- A zeroed range reads as zero; every other place reads as before. -/
theorem memGet_memZero {m : List Host.Cell} {a n : Nat} : ∀ {lo : Option Nat} {c : Nat}, memWfFrom lo m = true →
    memGet (memZero m a n) c = if a ≤ c ∧ c < a + n then 0 else memGet m c := by
  induction m with
  | nil => intro lo c _; simp [memZero, memGet]
  | cons d m ih =>
    obtain ⟨k, v⟩ := d
    intro lo c h
    obtain ⟨-, -, hm⟩ := (memWfFrom_cons ..).1 h
    have hrest : memGet (m.filter fun c => c.1 < a || a + n ≤ c.1) c = if a ≤ c ∧ c < a + n then 0 else memGet m c := ih hm
    simp only [memZero, List.filter_cons, Bool.or_eq_true, decide_eq_true_eq]
    split
    · next hkeep =>
      simp only [memGet, hrest]
      grind
    · next hdrop =>
      have hbelow : c ≤ k → memGet m c = 0 := memGet_below hm
      simp only [memGet, hrest]
      grind

/-- Scrubbing a marked granule changes no byte: the mark made them read as zero already (R275). -/
theorem getByte_scrubGranule {s : State} (hc : MemCanonical s) (g a : Nat) : (scrubGranule s g).getByte a = s.getByte a := by
  unfold scrubGranule
  split
  · next hg =>
    have hz : memGet (memZero s.mem (g * 1024) 1024) a = if g * 1024 ≤ a ∧ a < g * 1024 + 1024 then 0 else memGet s.mem a :=
      memGet_memZero (lo := none) hc
    by_cases ha : a / 1024 = g
    · have hin : g * 1024 ≤ a ∧ a < g * 1024 + 1024 := by omega
      subst ha
      have hmark : a / 1024 ∈ s.scrubMarks := by simpa using hg
      simp [State.getByte, State.marked, hz, hin, hmark]
    · have hout : ¬ (g * 1024 ≤ a ∧ a < g * 1024 + 1024) := by omega
      simp [State.getByte, State.marked, hz, hout, ha]
  · rfl

theorem scrubGranule_not_marked (s : State) (off : Nat) : (scrubGranule s (off / 1024)).marked off = false := by
  unfold scrubGranule State.marked
  split
  · simp
  · next hg => simpa using hg

/-- A write of one byte is read back at its place, and nowhere else. -/
theorem getByte_putByte {s : State} (hc : MemCanonical s) (off : Nat) (b : Byte) (a : Nat) :
    (s.putByte off b).getByte a = if a = off then b else s.getByte a := by
  have hset : (s.putByte off b).getByte a =
      if (scrubGranule s (off / 1024)).marked a then 0 else memGet (memSet (scrubGranule s (off / 1024)).mem off b) a := rfl
  rw [hset, memGet_memSet (lo := none) (scrubGranule_wf hc)]
  by_cases ha : a = off
  · have hm : ¬ (scrubGranule s (off / 1024)).marked a = true := by rw [ha, scrubGranule_not_marked]; exact Bool.false_ne_true
    rw [if_neg hm, if_pos ha, if_pos ha]
  · rw [if_neg ha, if_neg ha, ← getByte_scrubGranule hc (off / 1024) a, State.getByte]

/-! ### Words written at their bytes' homes -/

/-- Bytes written one after another, each at its own place. -/
def putAll (s : State) (ws : List (Nat × Byte)) : State := ws.foldl (fun s w => s.putByte w.1 w.2) s

theorem getByte_putAll_other {ws : List (Nat × Byte)} : ∀ {s : State} {a : Nat}, MemCanonical s → a ∉ ws.map (·.1) →
    (putAll s ws).getByte a = s.getByte a := by
  induction ws with
  | nil => intros; rfl
  | cons w ws ih =>
    intro s a hc ha
    obtain ⟨hw, hws⟩ : a ≠ w.1 ∧ a ∉ ws.map (·.1) := by simpa using ha
    exact (ih (putByte_wf hc) hws).trans (by rw [getByte_putByte hc, if_neg hw])

theorem map_getByte_putAll {ws : List (Nat × Byte)} : ∀ {s : State}, MemCanonical s → (ws.map (·.1)).Nodup →
    (ws.map (·.1)).map (putAll s ws).getByte = ws.map (·.2) := by
  induction ws with
  | nil => intros; rfl
  | cons w ws ih =>
    intro s hc hn
    obtain ⟨hw, hws⟩ := List.nodup_cons.1 hn
    have hhead : (putAll (s.putByte w.1 w.2) ws).getByte w.1 = w.2 := by
      rw [getByte_putAll_other (putByte_wf hc) hw, getByte_putByte hc, if_pos rfl]
    exact List.cons_eq_cons.2 ⟨hhead, ih (putByte_wf hc) hws⟩

/-- A write by position to as many places as there are bytes is a write of each byte at its place. -/
theorem writeStorage_eq_putAll {s : State} {bs : List Nat} {vs : List Byte} {n : Nat} (hb : bs.length = n) :
    writeStorage s bs ((List.range n).zip vs) = putAll s (bs.zip vs) := by
  have hpos : (List.range n).map (bs.getD · 0) = bs :=
    List.ext_getElem (by simp [hb]) fun i _ hi => by simp [hi]
  have hzip : ((List.range n).zip vs).map (fun p => (bs.getD p.1 0, p.2)) = bs.zip vs := by
    rw [← congrArg (List.zip · vs) hpos, List.zip_map_left]; rfl
  rw [← hzip, putAll, List.foldl_map]; rfl

theorem getByte_writeStorage_other {s : State} {bs : List Nat} {vs : List Byte} {n a : Nat} (hc : MemCanonical s) (hb : bs.length = n)
    (hv : vs.length = n) (ha : a ∉ bs) : (writeStorage s bs ((List.range n).zip vs)).getByte a = s.getByte a := by
  have hfst : (bs.zip vs).map (·.1) = bs := List.map_fst_zip (by omega)
  rw [writeStorage_eq_putAll hb, getByte_putAll_other hc (hfst.symm ▸ ha)]

theorem map_getByte_writeStorage {s : State} {bs : List Nat} {vs : List Byte} {n : Nat} (hc : MemCanonical s) (hb : bs.length = n)
    (hv : vs.length = n) (hn : bs.Nodup) : bs.map (writeStorage s bs ((List.range n).zip vs)).getByte = vs := by
  have hfst : (bs.zip vs).map (·.1) = bs := List.map_fst_zip (by omega)
  have hsnd : (bs.zip vs).map (·.2) = vs := List.map_snd_zip (by omega)
  have hread := map_getByte_putAll (s := s) hc (hfst.symm ▸ hn)
  rwa [hfst, hsnd, ← writeStorage_eq_putAll hb] at hread

@[simp] theorem getByte_applyWrite (s : State) (die : Nat) (bs : List Nat) (data : List (Nat × Byte)) (st : Stamp) (op : DWord) (a : Nat) :
    (applyWrite s die bs data st op).2.getByte a = (writeStorage s bs data).getByte a := by
  simp [applyWrite]

@[simp] theorem length_natBytes (n x : Nat) : (natBytes n x).length = n := by
  induction n generalizing x with
  | zero => rfl
  | succ n ih => simp [natBytes, ih]

theorem bytesNat_lt (bs : List Byte) : bytesNat bs < 256 ^ bs.length := by
  induction bs with
  | nil => simp [bytesNat]
  | cons b bs ih =>
    have hb := b.isLt
    rw [bytesNat, List.length_cons, Nat.pow_succ]
    omega

/-- Through selectors 0 to 2 a view names one storage byte for each byte of it. -/
theorem length_viewBytes {r : Region} {sel o n : Nat} (hs : sel < 3) : (viewBytes r sel o n).length = n := by
  rw [viewBytes, if_neg (by omega)]; simp

/-- Storage that is not refused is the bytes of a view of the address's selector, or the bytes from the address on. -/
theorem storageOf_ok {s : State} {spa n : Nat} {bs : List Nat} (h : storageOf s spa n = .ok bs) :
    (∃ r o, bs = viewBytes r (spa / 2 ^ 49) o n) ∨ bs = (List.range n).map (spa % 2 ^ 49 + ·) := by
  unfold storageOf at h
  simp only at h
  split at h
  · cases h
  · split at h
    · split at h
      · next r o _ =>
        split at h
        · cases h
        · cases h; exact .inl ⟨r, o, rfl⟩
      · cases h
    · next hsel =>
      have hzero : spa / 2 ^ 49 = 0 := by simpa using hsel
      split at h
      · cases h
      · cases h; exact .inr rfl
      · cases h
      · split at h
        · next r o _ =>
          split at h
          · cases h
          · cases h; exact .inl ⟨r, o, by rw [hzero]⟩
        · split at h
          · cases h
          · cases h; exact .inr rfl

/-- An access of `n` bytes through selectors 0 to 2 that is not refused reaches `n` storage bytes. -/
theorem length_storageOf {s : State} {spa n : Nat} {bs : List Nat} (hsel : spa / 2 ^ 49 < 3) (h : storageOf s spa n = .ok bs) :
    bs.length = n := by
  obtain ⟨r, o, rfl⟩ | rfl := storageOf_ok h
  · exact length_viewBytes hsel
  · simp

/-- The width check of an atomic changes nothing of the storage it is made at. -/
theorem storageOf_of_atomStorage {s : State} {spa n : Nat} {bs : List Nat} (h : atomStorage s spa n = .ok bs) : storageOf s spa n = .ok bs := by
  unfold atomStorage at h
  cases hst : storageOf s spa n with
  | error c => simp [hst] at h
  | ok l =>
    simp only [hst] at h
    split at h
    · split at h
      · split at h
        · split at h
          · exact h
          · cases h
        · cases h
      · cases h
    · exact h

end Sys2Proof.Machine
end

section
/-! PROOFS. The updates of a signal by packets (R11): what each leaves in the word, the update at the home, and the completion of a packet around it. -/

namespace Sys2Proof.Machine

/-! ### The word an update leaves -/

theorem sigVal_toNat (w : DWord) : sigVal w.toNat = w.toInt := by rw [sigVal, BitVec.ofNat_toNat, BitVec.setWidth_eq]

/-- A decrement is an add of minus one, which the clamp of `sig.add` keeps from going below zero. -/
theorem opNew_sigDec_eq_add (n : Nat) : opNew .sigDec n = some (sigAddVal n (-1)) := rfl

theorem opNew_sigAbort_eq (code n : Nat) :
    opNew (.sigAbort code) n = some (if sigVal n < 0 then n else (BitVec.ofInt 64 (-(code : Int))).toNat) := rfl

theorem opNew_sigDec (w : DWord) : opNew .sigDec w.toNat = some (if 0 < w.toInt then w - 1 else w).toNat := by
  have hone : (-1 : DWord).toInt = -1 := by decide
  have hbound : w.toInt < 2 ^ 63 := BitVec.toInt_lt
  rw [opNew_sigDec_eq_add, sigAddVal, sigVal_toNat, hone]
  dsimp only
  rcases Int.lt_trichotomy w.toInt 0 with hneg | hzero | hpos
  · rw [if_pos hneg, if_neg (by omega)]
  · have hw : w = 0 := BitVec.eq_of_toInt_eq hzero
    subst hw; decide
  · have hnat : w.toInt = w.toNat :=
      BitVec.toInt_eq_toNat_of_msb (by rw [BitVec.msb_eq_toInt]; exact decide_eq_false (Int.not_lt.2 (Int.le_of_lt hpos)))
    have hsub : (w - 1).toNat = w.toNat - 1 := by bv_omega
    rw [if_neg (by omega), if_pos hpos, if_neg (by omega), if_neg (by omega), hsub]
    congr 1; omega

theorem opNew_sigAbort (w : DWord) (code : Nat) :
    opNew (.sigAbort code) w.toNat = some (if 0 ≤ w.toInt then BitVec.ofInt 64 (-(code : Int)) else w).toNat := by
  rw [opNew_sigAbort_eq, sigVal_toNat]
  by_cases hneg : w.toInt < 0
  · rw [if_pos hneg, if_neg (Int.not_le.2 hneg)]
  · rw [if_neg hneg, if_pos (Int.not_lt.1 hneg)]

/-! ### The update at the home -/

/-- An update that leaves a word writes it to the signal's bytes; the clocks and the record SIG_WRITE touch no byte. -/
theorem sigAtHome_writes {s : State} {die spa vf new : Nat} {op : MemOp} {id : DWord} {bs : List Nat} (hsel : spa / 2 ^ 49 < 3)
    (hst : atomStorage s spa 8 = .ok bs) (hecc : eccFails s bs = false) (hnew : opNew op (bytesNat (bs.map s.getByte)) = some new) :
    ∃ t, sigAtHome s die spa op id vf = .ok t ∧
      ∀ a, t.getByte a = (writeStorage s bs ((List.range 8).zip (natBytes 8 new))).getByte a := by
  unfold sigAtHome
  rw [if_neg (by omega)]
  simp only [hst, hecc, hnew, Bool.false_eq_true, if_false]
  refine ⟨_, rfl, fun a => ?_⟩
  rw [sigRecord, getByte_emit]
  split <;> simp

/-- An update at the home leaves the new word in the signal's eight bytes and every other byte as before. -/
theorem sigAtHome_ok {s : State} {die spa vf new : Nat} {op : MemOp} {id : DWord} {bs : List Nat} (hc : MemCanonical s)
    (hsel : spa / 2 ^ 49 < 3) (hst : atomStorage s spa 8 = .ok bs) (hecc : eccFails s bs = false) (hn : bs.Nodup)
    (hnew : opNew op (bytesNat (bs.map s.getByte)) = some new) :
    ∃ t, sigAtHome s die spa op id vf = .ok t ∧ MemSameBut bs s t ∧ bs.map t.getByte = natBytes 8 new := by
  have hlen : bs.length = 8 := length_storageOf hsel (storageOf_of_atomStorage hst)
  obtain ⟨t, ht, hbytes⟩ := sigAtHome_writes (die := die) (id := id) (vf := vf) hsel hst hecc hnew
  refine ⟨t, ht, fun a ha => ?_, ?_⟩
  · rw [hbytes, getByte_writeStorage_other hc hlen (length_natBytes ..) ha]
  · rw [funext hbytes, map_getByte_writeStorage hc hlen (length_natBytes ..) hn]

/-- An update at an aligned address that translates to this device is the update at the home. -/
theorem sigUpdate_eq_sigAtHome {s : State} {vf asid die spa : Nat} {va id : DWord} {op : MemOp} (hal : va.toNat % 8 = 0)
    (hva : va.toNat < 2 ^ 57) (hx : translateWalk s vf asid va.toNat .write = .ok spa none) :
    sigUpdate s vf asid die va op id = sigAtHome s die spa op id vf := by
  have hal' : (va.toNat % 8 != 0) = false := by simp [hal]
  rw [sigUpdate, hal', if_neg Bool.false_ne_true, if_neg (Nat.not_le.2 hva), hx]

/-! ### The completion of a packet around it -/

/-- A packet that completes makes its decrement behind its release, and is then left out (R24). -/
theorem completePacket_done {s t : State} {k : Packet} {cause : DWord} (hk : s.packet? k.id = some k) (hsig : k.csig ≠ 0)
    (ht : sigUpdate (packetRelease s k) k.vf k.asid (queueDie (packetRelease s k) k.queue) k.csig .sigDec k.op = .ok t) :
    completePacket s k.id 0 cause =
      queueIdle (emit (dropPacket t k.id) (queueSrc (packetRelease s k) k.queue) 0x0102 k.op cause 0 k.vf) k.queue := by
  have hsig' : (k.csig == 0) = false := beq_false_of_ne hsig
  simp only [completePacket, hk, donePacket, hsig', ht, beq_self_eq_true, if_true, Bool.false_eq_true, if_false]

/-- A packet that aborts makes its abort write, and its queue becomes ABORTED with the same code (R32). -/
theorem completePacket_abort {s t : State} {k : Packet} {code : Nat} {cause : DWord} (hk : s.packet? k.id = some k) (hsig : k.csig ≠ 0)
    (hal : k.csig.toNat % 8 = 0) (hcode : code ≠ 0)
    (ht : sigUpdate s k.vf k.asid (queueDie s k.queue) k.csig (.sigAbort code) k.op = .ok t) :
    completePacket s k.id code cause =
      emit (abortQueue (dropPacket t k.id) k.queue code k.index k.op) (queueSrc s k.queue) 0x0103 k.op cause code k.vf := by
  have hsig' : (k.csig == 0) = false := beq_false_of_ne hsig
  have hal' : (k.csig.toNat % 8 != 0) = false := by simp [hal]
  have hcode' : (code == 0) = false := beq_false_of_ne hcode
  simp only [completePacket, hk, hcode', abortPacket, hsig', hal', ht, Bool.or_self, beq_self_eq_true, if_true, Bool.false_eq_true, if_false]

/-- Settles O47: each update is `sigAtHome` with the word of `opNew`, and a packet's completion or abort goes through it once. -/
theorem signalUpdatesAtHome : Obligations.SignalUpdatesAtHome := by
  unfold Obligations.SignalUpdatesAtHome
  refine ⟨?_, fun s vf asid die spa va id op => sigUpdate_eq_sigAtHome,
    fun s t k cause hk hsig hal => ⟨completePacket_done hk hsig, fun code hcode => completePacket_abort hk hsig hal hcode⟩⟩
  intro s die spa vf id bs hc hsel hst hecc hn old
  have hlt : bytesNat (bs.map s.getByte) < 2 ^ 64 := by
    have hbound := bytesNat_lt (bs.map s.getByte)
    rwa [List.length_map, length_storageOf hsel (storageOf_of_atomStorage hst)] at hbound
  have hold : bytesNat (bs.map s.getByte) = old.toNat := (Nat.mod_eq_of_lt hlt).symm
  exact ⟨sigAtHome_ok hc hsel hst hecc hn (hold ▸ opNew_sigDec old),
    fun code _ _ => sigAtHome_ok hc hsel hst hecc hn (hold ▸ opNew_sigAbort old code)⟩

end Sys2Proof.Machine
end

section
/-! PROOFS. Instructions that compute in their lanes, by format: what an issue of one leaves, and which of its fields are reserved (R41 to R45, R54). -/

namespace Sys2Proof.Machine

/-! ### The encoding and the effect of an instruction that computes in its lanes -/

/-- `i` is encoded as `e`, and computes `o` in each lane of `exec`. -/
def ComputesAs (i : Instr) (e : Enc) (o : Enc → Fibre → LaneOut) : Prop := i.enc = some e ∧ ∀ s, exec i s = lanewise i s o

theorem completes_of_computesAs {i : Instr} {e : Enc} {o : Enc → Fibre → LaneOut} {out : Fibre → LaneOut} (h : ComputesAs i e o)
    (ho : ∀ l, o e l = out l) : Completes i fun _ l => out l := by
  obtain ⟨henc, hexec⟩ := h
  refine completes_lanewise hexec fun e' l he => ?_
  obtain rfl : e = e' := Option.some.inj (henc.symm.trans he)
  exact ho l

/-- A 32-bit result goes to the destination of the format, and to `b0`. -/
theorem completes_word {i : Instr} {e : Enc} {v : Enc → Fibre → Word} {w : Fibre → Word} {d : Option Nat}
    (h : ComputesAs i e fun e l => out32 e (v e l)) (hd : dField e = d) (hv : ∀ l, v e l = w l) : Completes i fun _ l => word d (w l) :=
  completes_of_computesAs h fun l => by rw [out32_eq, hd, hv]

/-- A 64-bit result goes to the pair of the format, and to `b0`. -/
theorem completes_dword {i : Instr} {e : Enc} {v : Enc → Fibre → DWord} {w : Fibre → DWord} {d : Option Nat}
    (h : ComputesAs i e fun e l => out64 e (v e l)) (hd : dField e = d) (hv : ∀ l, v e l = w l) : Completes i fun _ l => dword d (w l) :=
  completes_of_computesAs h fun l => by rw [out64_eq, hd, hv]

/-! ### One and two sources

The encoding and the arm of `exec` of each instruction are read off by `rfl`; what a use of these lemmas says is the value. -/

theorem binH_of_intBin {c : HF → Instr} {op : BitVec 4} {x : Ext} {k : Bool → Word → Word → Word} {g : Word → Word → Word}
    (hk : ∀ a b, k false a b = g a b)
    (h : ∀ f, ComputesAs (c f) (.h op f) (intBin x k) := by exact fun _ => ⟨rfl, fun _ => rfl⟩) : BinH c g :=
  fun f => completes_word (h f) (dField_h op f) fun _ => hk _ _

theorem binW_of_intBin {c : WF → Instr} {op : BitVec 10} {x : Ext} {k : Bool → Word → Word → Word} {g : Word → Word → Word}
    (hk : ∀ a b, k false a b = g a b)
    (h : ∀ f, ComputesAs (c f) (.w op f) (intBin x k) := by exact fun _ => ⟨rfl, fun _ => rfl⟩) : BinW c g :=
  fun f => completes_word (h f) (dField_w op f) fun _ => hk _ _

theorem binWi_of_intBin {c : WIF → Instr} {op : BitVec 10} {x : Ext} {k : Bool → Word → Word → Word} {g : Word → Word → Word}
    (hk : ∀ a b, k false a b = g a b)
    (h : ∀ f, ComputesAs (c f) (.wi op f) (intBin x k) := by exact fun _ => ⟨rfl, fun _ => rfl⟩) : BinWi x c g :=
  fun f => completes_word (h f) (dField_wi op f) fun _ => hk _ _

theorem binL_of_intBin {c : LF → Instr} {op : BitVec 10} {x : Ext} {k g : Bool → Word → Word → Word}
    (hk : ∀ n a b, k n a b = g n a b)
    (h : ∀ f, ComputesAs (c f) (.l op f) (intBin x k) := by exact fun _ => ⟨rfl, fun _ => rfl⟩) : BinL x c g :=
  fun f => completes_word (h f) (dField_l op f) fun _ => hk _ _ _

theorem unW_of_intUn {c : WF → Instr} {op : BitVec 10} {k g : Word → Word}
    (hk : ∀ a, k a = g a)
    (h : ∀ f, ComputesAs (c f) (.w op f) (intUn k) := by exact fun _ => ⟨rfl, fun _ => rfl⟩) : UnW c g :=
  fun f => completes_word (h f) (dField_w op f) fun _ => hk _

theorem unL_of_intUn {c : LF → Instr} {op : BitVec 10} {k g : Word → Word}
    (hk : ∀ a, k a = g a)
    (h : ∀ f, ComputesAs (c f) (.l op f) (intUn k) := by exact fun _ => ⟨rfl, fun _ => rfl⟩) : UnL c g :=
  fun f => completes_word (h f) (dField_l op f) fun _ => hk _

/-! ### The checks of R54 that the word alone decides -/

theorem allFields_eq_false {e : Enc} {u : Usage} {t : FieldUse → Nat → Bool} :
    e.allFields u t = false ↔
      t u.d e.fields.1 = false ∨ t u.a e.fields.2.1 = false ∨ t u.b e.fields.2.2.1 = false ∨ t u.c e.fields.2.2.2 = false := by
  simp only [Enc.allFields, Bool.and_eq_false_iff, or_assoc]

/-- A word of 32 or 64 bits that breaks a rule of its fields is reserved, whatever else it breaks. -/
theorem staticCheck_eq_reserved {i : Instr} {e : Enc} {u : Usage} (he : i.enc = some e) (hu : i.usage = some u)
    (hop : e.opn ≠ none) (h : u.extra = true → e.commonOk u = true → e.allFields u FieldUse.reservedOk = false) :
    i.staticCheck = some .reserved := by
  have hbad : (u.extra && e.commonOk u && e.allFields u FieldUse.reservedOk) = false := by
    refine Bool.eq_false_iff.2 fun hall => ?_
    obtain ⟨hpre, hfields⟩ := Bool.and_eq_true_iff.1 hall
    obtain ⟨hextra, hcommon⟩ := Bool.and_eq_true_iff.1 hpre
    exact absurd (hfields.symm.trans (h hextra hcommon)) (by decide)
  simp only [Instr.staticCheck, he, hu, Enc.staticCheck, hbad]
  cases e with
  | h op f => exact absurd rfl hop
  | w op f | wi op f | l op f | li op f => rfl

theorem staticCheck_of_extra {i : Instr} {e : Enc} {u : Usage} (he : i.enc = some e) (hu : i.usage = some u) (hop : e.opn ≠ none)
    (h : u.extra = false) : i.staticCheck = some .reserved :=
  staticCheck_eq_reserved he hu hop fun hx => absurd (hx.symm.trans h) (by decide)

theorem staticCheck_of_reservedOk {i : Instr} {e : Enc} {u : Usage} (he : i.enc = some e) (hu : i.usage = some u) (hop : e.opn ≠ none)
    (h : e.allFields u FieldUse.reservedOk = false) : i.staticCheck = some .reserved :=
  staticCheck_eq_reserved he hu hop fun _ _ => h

/-- An unused field holds 63 (R43). -/
theorem reservedOk_unused {n : BitVec 6} (h : n ≠ 63) : FieldUse.unused.reservedOk n.toNat = false :=
  beq_false_of_ne fun h63 => h ((field63 n).1 h63)

theorem staticCheck_of_unused_b {i : Instr} {op : BitVec 10} {f : LF} {u : Usage} (he : i.enc = some (.l op f)) (hu : i.usage = some u)
    (huse : u.b = .unused) (hb : f.b ≠ 63) : i.staticCheck = some .reserved :=
  staticCheck_of_reservedOk he hu (Option.some_ne_none _)
    (allFields_eq_false.2 (.inr (.inr (.inl (huse ▸ reservedOk_unused hb)))))

theorem staticCheck_of_unused_c {i : Instr} {op : BitVec 10} {f : LF} {u : Usage} (he : i.enc = some (.l op f)) (hu : i.usage = some u)
    (huse : u.c = .unused) (hc : f.c ≠ 63) : i.staticCheck = some .reserved :=
  staticCheck_of_reservedOk he hu (Option.some_ne_none _)
    (allFields_eq_false.2 (.inr (.inr (.inr (huse ▸ reservedOk_unused hc)))))

/-- A word that passes the checks of its guard and NW fields sets NW only where the operation permits it (R44). -/
theorem nw_eq_false_of_commonOk {e : Enc} {u : Usage} (hop : e.opn ≠ none) (hnw : u.nwOk = false) (h : e.commonOk u = true) :
    e.nw = false := by
  cases e with
  | h op f => exact absurd rfl hop
  | w op f | wi op f | l op f | li op f => simpa [hnw] using (Bool.and_eq_true_iff.1 h).2

/-- An instruction with an odd pair field passes no check (R43); which of ILL_DEST and ILL_PAIR it raises is not said here. -/
theorem staticCheck_of_pairOk {i : Instr} {e : Enc} {u : Usage} (he : i.enc = some e) (hu : i.usage = some u)
    (h : e.allFields u FieldUse.pairOk = false) : i.staticCheck ≠ none := by
  simp only [Instr.staticCheck, he, hu, Enc.staticCheck, h]
  grind

end Sys2Proof.Machine
end

section
/-! PROOFS. The integer operations of two sources (R67). -/

namespace Sys2Proof.Machine

/-! ### Their values -/

theorem aluAdd_eq (n : Bool) (a b : Word) : aluAdd n a b = BitVec.ofNat 32 (a.toNat + b.toNat) := by
  rw [BitVec.ofNat_add, BitVec.ofNat_toNat, BitVec.ofNat_toNat, BitVec.setWidth_eq, BitVec.setWidth_eq]; rfl

theorem aluSub_eq (n : Bool) (a b : Word) : aluSub n a b = BitVec.ofInt 32 ((a.toNat : Int) - b.toNat) := by
  refine BitVec.eq_of_toInt_eq ?_
  rw [aluSub, BitVec.toInt_ofInt, BitVec.toInt_sub, BitVec.toInt_eq_toNat_bmod, BitVec.toInt_eq_toNat_bmod]
  simp

theorem aluMul_eq (n : Bool) (a b : Word) : aluMul n a b = BitVec.ofNat 32 (a.toNat * b.toNat) := by
  rw [BitVec.ofNat_mul, BitVec.ofNat_toNat, BitVec.ofNat_toNat, BitVec.setWidth_eq, BitVec.setWidth_eq]; rfl

/-- The upper half of a 64-bit pattern is the pattern of the quotient. -/
theorem extractLsb'_wrap64 (x : Int) : (wrap64 x).extractLsb' 32 32 = BitVec.ofInt 32 (x / 2 ^ 32) := by
  refine BitVec.eq_of_toNat_eq ?_
  rw [BitVec.extractLsb'_toNat, wrap64, BitVec.toNat_ofInt, BitVec.toNat_ofInt, Nat.shiftRight_eq_div_pow]
  omega

theorem aluMulhi_eq (n : Bool) (a b : Word) : aluMulhi n a b = BitVec.ofInt 32 (intT n a * intT n b / 2 ^ 32) :=
  extractLsb'_wrap64 _

theorem aluMin_eq (n : Bool) (a b : Word) : aluMin n a b = if intT n a ≤ intT n b then a else b := by
  rw [aluMin, ← ite_not]; simp only [Int.not_lt]

theorem aluMax_eq (n : Bool) (a b : Word) : aluMax n a b = if intT n b ≤ intT n a then a else b := by
  rw [aluMax, ← ite_not]; simp only [Int.not_lt]

theorem aluShl_eq (n : Bool) (a b : Word) : aluShl n a b = if 32 ≤ b.toNat then 0 else BitVec.ofNat 32 (a.toNat * 2 ^ b.toNat) := by
  rw [← Nat.shiftLeft_eq]; rfl

theorem aluShr_eq (n : Bool) (a b : Word) : aluShr n a b = if 32 ≤ b.toNat then 0 else BitVec.ofNat 32 (a.toNat / 2 ^ b.toNat) := by
  have hshift : a >>> b.toNat = BitVec.ofNat 32 (a.toNat / 2 ^ b.toNat) := by
    rw [← Nat.shiftRight_eq_div_pow, ← BitVec.toNat_ushiftRight, BitVec.ofNat_toNat, BitVec.setWidth_eq]
  rw [aluShr, hshift]

/-- An amount of 31 leaves the sign in every bit. -/
theorem getElem_sshiftRight_31 (a : Word) (i : Nat) (hi : i < 32) : (a.sshiftRight 31)[i] = a.getLsbD 31 := by
  rw [BitVec.getElem_sshiftRight]
  split
  · next hlow =>
    obtain rfl : i = 0 := by omega
    rfl
  · exact BitVec.msb_eq_getLsbD_last a

theorem sshiftRight_31 (a : Word) : a.sshiftRight 31 = if a.getLsbD 31 then 0xFFFFFFFF else 0 := by
  have hones : (0xFFFFFFFF : Word) = BitVec.allOnes 32 := rfl
  ext i hi
  rw [getElem_sshiftRight_31, hones]
  split
  · next hsign => exact hsign.trans (BitVec.getElem_allOnes i hi).symm
  · next hsign => simpa using hsign

theorem aluSar_eq (n : Bool) (a b : Word) : aluSar n a b =
    if 32 ≤ b.toNat then (if a.getLsbD 31 then 0xFFFFFFFF else 0) else BitVec.ofInt 32 (a.toInt / 2 ^ b.toNat) := by
  rw [aluSar]
  split
  · next hb => rw [Nat.min_eq_right (by omega), sshiftRight_31]
  · next hb => rw [Nat.min_eq_left (by omega), BitVec.sshiftRight, Int.shiftRight_eq_div_pow]; rfl

theorem aluRot_eq (n : Bool) (a b : Word) : aluRot n a b = (a <<< (b.toNat % 32)) ||| (a >>> (32 - b.toNat % 32)) := by
  rw [aluRot, BitVec.rotateLeft, Nat.mod_mod]; rfl

/-! ### Fields that must hold 63 or 0 -/

/-- The L form of a two-source operation without a third source is reserved unless C holds 63 and MOD[46:45] is 0 (R57). -/
theorem staticCheck_intUse {i : Instr} {op : BitVec 10} {f : LF} (he : i.enc = some (.l op f)) (hu : i.usage = some (intUse f .dst .unused))
    (h : f.c ≠ 63 ∨ f.mod.getLsbD 1 = true ∨ f.mod.getLsbD 2 = true) : i.staticCheck = some .reserved := by
  obtain hc | h1 | h2 := h
  · exact staticCheck_of_unused_c he hu rfl hc
  · exact staticCheck_of_extra he hu (Option.some_ne_none _) (by simp only [intUse, h1, Bool.not_true, Bool.false_and])
  · exact staticCheck_of_extra he hu (Option.some_ne_none _) (by simp only [intUse, h2, Bool.not_true, Bool.and_false, Bool.false_and])

/-- Settles O13: each form computes `intBin` of an operation of `Alu`, whose value is the one of its rule. -/
theorem integerResults : Obligations.IntegerResults := by
  unfold Obligations.IntegerResults
  refine ⟨?add, ?sub, ?mul, ?addSat, ?subSat, ?mulhi, ?min, ?max, ?and, ?or, ?xor, ?andn, ?shl, ?shr, ?sar, ?rot,
    ?reserved, ?opsW, ?opsL, ?opsWi⟩
  case add => exact ⟨binH_of_intBin (aluAdd_eq false), binW_of_intBin (aluAdd_eq false), binWi_of_intBin (aluAdd_eq false), binL_of_intBin aluAdd_eq⟩
  case sub => exact ⟨binH_of_intBin (aluSub_eq false), binW_of_intBin (aluSub_eq false), binL_of_intBin aluSub_eq⟩
  case mul => exact ⟨binH_of_intBin (aluMul_eq false), binW_of_intBin (aluMul_eq false), binWi_of_intBin (aluMul_eq false), binL_of_intBin aluMul_eq⟩
  case addSat => exact ⟨binW_of_intBin (k := aluAddSat) fun _ _ => rfl, binL_of_intBin (k := aluAddSat) fun _ _ _ => rfl⟩
  case subSat => exact ⟨binW_of_intBin (k := aluSubSat) fun _ _ => rfl, binL_of_intBin (k := aluSubSat) fun _ _ _ => rfl⟩
  case mulhi => exact ⟨binW_of_intBin (aluMulhi_eq false), binL_of_intBin aluMulhi_eq⟩
  case min => exact ⟨binW_of_intBin (aluMin_eq false), binWi_of_intBin (aluMin_eq false), binL_of_intBin aluMin_eq⟩
  case max => exact ⟨binW_of_intBin (aluMax_eq false), binWi_of_intBin (aluMax_eq false), binL_of_intBin aluMax_eq⟩
  case and =>
    exact ⟨binH_of_intBin (k := aluAnd) fun _ _ => rfl, binW_of_intBin (k := aluAnd) fun _ _ => rfl, binWi_of_intBin (k := aluAnd) fun _ _ => rfl,
      binL_of_intBin (k := aluAnd) fun _ _ _ => rfl⟩
  case or =>
    exact ⟨binH_of_intBin (k := aluOr) fun _ _ => rfl, binW_of_intBin (k := aluOr) fun _ _ => rfl, binWi_of_intBin (k := aluOr) fun _ _ => rfl,
      binL_of_intBin (k := aluOr) fun _ _ _ => rfl⟩
  case xor =>
    exact ⟨binH_of_intBin (k := aluXor) fun _ _ => rfl, binW_of_intBin (k := aluXor) fun _ _ => rfl, binWi_of_intBin (k := aluXor) fun _ _ => rfl,
      binL_of_intBin (k := aluXor) fun _ _ _ => rfl⟩
  case andn => exact ⟨binW_of_intBin (k := aluAndn) fun _ _ => rfl, binL_of_intBin (k := aluAndn) fun _ _ _ => rfl⟩
  case shl => exact ⟨binH_of_intBin (aluShl_eq false), binW_of_intBin (aluShl_eq false), binWi_of_intBin (aluShl_eq false), binL_of_intBin aluShl_eq⟩
  case shr => exact ⟨binH_of_intBin (aluShr_eq false), binW_of_intBin (aluShr_eq false), binWi_of_intBin (aluShr_eq false), binL_of_intBin aluShr_eq⟩
  case sar => exact ⟨binH_of_intBin (aluSar_eq false), binW_of_intBin (aluSar_eq false), binWi_of_intBin (aluSar_eq false), binL_of_intBin aluSar_eq⟩
  case rot => exact ⟨binW_of_intBin (aluRot_eq false), binWi_of_intBin (aluRot_eq false), binL_of_intBin aluRot_eq⟩
  case reserved =>
    repeat refine List.forall_mem_cons.2 ⟨fun _ => staticCheck_intUse rfl rfl, ?_⟩
    exact List.forall_mem_nil _
  case opsW | opsL | opsWi =>
    repeat refine List.forall_mem_cons.2 ⟨fun _ => rfl, ?_⟩
    exact List.forall_mem_nil _

end Sys2Proof.Machine
end

section
/-! PROOFS. The integer compares (R73). -/

namespace Sys2Proof.Machine

/-! ### The test -/

theorem condInt_lt (n : Bool) (a b : Word) : Cond.lt.int n a b = if n then a.ult b else a.slt b := by
  cases n
  · rfl
  · exact decide_eq_decide.2 Int.ofNat_lt

theorem condInt_le (n : Bool) (a b : Word) : Cond.le.int n a b = if n then a.ule b else a.sle b := by
  cases n
  · rfl
  · exact decide_eq_decide.2 Int.ofNat_le

theorem condInt_gt (n : Bool) (a b : Word) : Cond.gt.int n a b = if n then b.ult a else b.slt a := condInt_lt n b a

theorem condInt_ge (n : Bool) (a b : Word) : Cond.ge.int n a b = if n then b.ule a else b.sle a := condInt_le n b a

/-! ### Compares by format -/

/-- Without MOD the test combines with nothing. -/
theorem intCmp_of_modOf {k : Cond} {e : Enc} {l : Fibre} (hmod : modOf e = 0) :
    intCmp k e l = predicate (setBit l.pw e.fields.1 (k.int (isN32 e) (l.src (aField e)) (bVal .sign e l))) := by
  rw [intCmp, hmod]; rfl

theorem cmpW_of_intCmp {c : WF → Instr} {op : BitVec 10} {k : Cond} {g : Word → Word → Bool}
    (hk : ∀ a b, k.int false a b = g a b)
    (h : ∀ f, ComputesAs (c f) (.w op f) (intCmp k) := by exact fun _ => ⟨rfl, fun _ => rfl⟩) : CmpW c g :=
  fun f => completes_of_computesAs (h f) fun l => by
    rw [intCmp_of_modOf rfl]; exact congrArg (fun t => predicate (setBit l.pw f.d.toNat t)) (hk _ _)

theorem cmpWi_of_intCmp {c : WIF → Instr} {op : BitVec 10} {k : Cond} {g : Word → Word → Bool}
    (hk : ∀ a b, k.int false a b = g a b)
    (h : ∀ f, ComputesAs (c f) (.wi op f) (intCmp k) := by exact fun _ => ⟨rfl, fun _ => rfl⟩) : CmpWi c g :=
  fun f => completes_of_computesAs (h f) fun l => by
    rw [intCmp_of_modOf rfl]; exact congrArg (fun t => predicate (setBit l.pw f.d.toNat t)) (hk _ _)

theorem cmpL_of_intCmp {c : LF → Instr} {op : BitVec 10} {k : Cond} {g : Bool → Word → Word → Bool}
    (hk : ∀ n a b, k.int n a b = g n a b)
    (h : ∀ f, ComputesAs (c f) (.l op f) (intCmp k) := by exact fun _ => ⟨rfl, fun _ => rfl⟩) : CmpL c g :=
  fun f => completes_of_computesAs (h f) fun l =>
    congrArg (fun t => predicate (cmpPw l.pw f.d.toNat (f.mod.toNat / 2 % 4) t)) (hk _ _ _)

/-! ### Reserved words -/

/-- A word that names a bit number above the largest, or sets NW where no NW is permitted, is reserved (R44, R73). -/
theorem staticCheck_num {i : Instr} {e : Enc} {u : Usage} {m : Nat} (he : i.enc = some e) (hu : i.usage = some u) (hop : e.opn ≠ none)
    (hd : u.d = .num m) (hnw : u.nwOk = false) (h : m < e.fields.1 ∨ e.nw = true) : i.staticCheck = some .reserved := by
  obtain hbit | hset := h
  · have hout : u.d.reservedOk e.fields.1 = false := by rw [hd]; exact decide_eq_false (Nat.not_le.2 hbit)
    exact staticCheck_of_reservedOk he hu hop (allFields_eq_false.2 (.inl hout))
  · exact staticCheck_eq_reserved he hu hop fun _ hcommon =>
      absurd (hset.symm.trans (nw_eq_false_of_commonOk hop hnw hcommon)) (by decide)

/-- Settles O14: each compare computes `intCmp` of its condition, and W and WI combine with nothing. -/
theorem integerCompareResults : Obligations.IntegerCompareResults := by
  unfold Obligations.IntegerCompareResults
  refine ⟨?eq, ?ne, ?lt, ?le, ?gt, ?ge, ?reservedW, ?reservedWi, ?reservedL, ?whole, ?opsW, ?opsL, ?opsWi, ?worked⟩
  case eq =>
    exact ⟨cmpW_of_intCmp (k := .eq) fun _ _ => rfl, cmpWi_of_intCmp (k := .eq) fun _ _ => rfl,
      cmpL_of_intCmp (k := .eq) fun _ _ _ => rfl⟩
  case ne =>
    exact ⟨cmpW_of_intCmp (k := .ne) fun _ _ => rfl, cmpWi_of_intCmp (k := .ne) fun _ _ => rfl,
      cmpL_of_intCmp (k := .ne) fun _ _ _ => rfl⟩
  case lt => exact ⟨cmpW_of_intCmp (condInt_lt false), cmpWi_of_intCmp (condInt_lt false), cmpL_of_intCmp condInt_lt⟩
  case le => exact ⟨cmpW_of_intCmp (condInt_le false), cmpWi_of_intCmp (condInt_le false), cmpL_of_intCmp condInt_le⟩
  case gt => exact ⟨cmpW_of_intCmp (condInt_gt false), cmpWi_of_intCmp (condInt_gt false), cmpL_of_intCmp condInt_gt⟩
  case ge => exact ⟨cmpW_of_intCmp (condInt_ge false), cmpWi_of_intCmp (condInt_ge false), cmpL_of_intCmp condInt_ge⟩
  case reservedW =>
    repeat refine List.forall_mem_cons.2 ⟨fun _ h => staticCheck_num rfl rfl (Option.some_ne_none _) rfl rfl (h.imp_right beq_iff_eq.2), ?_⟩
    exact List.forall_mem_nil _
  case reservedWi =>
    repeat refine List.forall_mem_cons.2 ⟨fun _ h => staticCheck_num rfl rfl (Option.some_ne_none _) rfl rfl (.inl h), ?_⟩
    exact List.forall_mem_nil _
  case reservedL =>
    repeat refine List.forall_mem_cons.2 ⟨fun _ h => staticCheck_num rfl rfl (Option.some_ne_none _) rfl rfl (h.imp_right beq_iff_eq.2), ?_⟩
    exact List.forall_mem_nil _
  case whole =>
    intro f hd hnw
    have hdest : wDest f = some 0 := by simp [wDest, hd, hnw]
    have hmov : UnW .movW id := unW_of_intUn (k := aluMov) fun _ => rfl
    exact hdest ▸ hmov f
  case opsW | opsL | opsWi =>
    repeat refine List.forall_mem_cons.2 ⟨fun _ => rfl, ?_⟩
    exact List.forall_mem_nil _
  case worked => decide

end Sys2Proof.Machine
end

section
/-! PROOFS. The integer operations of one source, `li`, `bsel` and `sel` (R68, R69, R72). -/

namespace Sys2Proof.Machine

/-! ### Their values -/

theorem aluAbs_eq (a : Word) : aluAbs a = BitVec.ofNat 32 a.toInt.natAbs := BitVec.ofInt_natCast 32 _

theorem aluNeg_eq (a : Word) : aluNeg a = BitVec.ofInt 32 (-(a.toNat : Int)) := by
  rw [BitVec.ofInt_neg, BitVec.ofInt_natCast, BitVec.ofNat_toNat, BitVec.setWidth_eq]; rfl

theorem aluPopc_eq (a : Word) : aluPopc a = BitVec.ofNat 32 ((List.range 32).filter fun i => a.getLsbD i).length := by
  rw [aluPopc, List.countP_eq_length_filter]

/-- The places below `n` and below `k` are the lesser of both in number. -/
theorem length_filter_range_lt (n k : Nat) : ((List.range n).filter fun i => i < k).length = min n k := by
  induction n with
  | zero => exact (Nat.zero_min k).symm
  | succ n ih =>
    rw [List.range_succ, List.filter_append, List.length_append, ih, List.filter_cons, List.filter_nil]
    split
    · next hin =>
      have hlt : n < k := of_decide_eq_true hin
      rw [List.length_cons, List.length_nil]; omega
    · next hout =>
      have hge : ¬ n < k := fun hlt => hout (decide_eq_true hlt)
      rw [List.length_nil]; omega

/-- The places below `n` from `k` on are the rest in number. -/
theorem length_filter_range_le (n k : Nat) : ((List.range n).filter fun i => k ≤ i).length = n - k := by
  have hsplit := List.length_eq_countP_add_countP (l := List.range n) (fun i => decide (i < k))
  simp only [List.countP_eq_length_filter, length_filter_range_lt, List.length_range, decide_eq_true_eq, Nat.not_lt] at hsplit
  omega

/-- The leading zeros are the places from the highest set bit on (R68). -/
theorem aluClz_eq (a : Word) : aluClz a = BitVec.ofNat 32 ((List.range 32).filter fun i => a.toNat < 2 ^ i).length := by
  rw [aluClz]
  congr 1
  split
  · next hzero =>
    obtain rfl : a = 0 := eq_of_beq hzero
    rfl
  · next hpos =>
    have hne : a.toNat ≠ 0 := fun h => hpos (beq_iff_eq.2 (BitVec.eq_of_toNat_eq h))
    simp only [← Nat.log2_lt hne, Nat.lt_iff_add_one_le, length_filter_range_le]
    omega

/-- A number is a multiple of `2 ^ k` when none of its lower `k` bits is set. -/
theorem mod_two_pow_eq_zero_iff (x k : Nat) : x % 2 ^ k = 0 ↔ ∀ j < k, x.testBit j = false := by
  constructor
  · intro h j hj
    simpa [h, hj] using (Nat.testBit_mod_two_pow x k j).symm
  · intro h
    refine Nat.eq_of_testBit_eq fun j => ?_
    rw [Nat.testBit_mod_two_pow, Nat.zero_testBit]
    by_cases hj : j < k
    · rw [h j hj, Bool.and_false]
    · rw [decide_eq_false hj, Bool.false_and]

/-- The lowest set bit, or 32, bounds the places below which no bit is set. -/
theorem forall_getLsbD_eq_false_iff (a : Word) (i : Nat) (hi : i < 32) :
    (∀ j < i + 1, a.getLsbD j = false) ↔ i < ((List.range 32).find? fun i => a.getLsbD i).getD 32 := by
  cases hfind : (List.range 32).find? fun i => a.getLsbD i with
  | none =>
    have hclear : ∀ j < 32, a.getLsbD j = false := fun j hj => (Bool.not_eq_true' _).mp (List.find?_range_eq_none.1 hfind j hj)
    exact ⟨fun _ => hi, fun _ j hj => hclear j (by omega)⟩
  | some t =>
    obtain ⟨hset, -, hlow⟩ := List.find?_range_eq_some.1 hfind
    constructor
    · intro h
      exact Nat.lt_of_not_le fun hle : t ≤ i => Bool.false_ne_true ((h t (by omega)).symm.trans hset)
    · intro (h : i < t) j hj
      exact (Bool.not_eq_true' _).mp (hlow j (by omega))

/-- The trailing zeros are the places below the lowest set bit (R68). -/
theorem aluCtz_eq (a : Word) : aluCtz a = BitVec.ofNat 32 ((List.range 32).filter fun i => a.toNat % 2 ^ (i + 1) = 0).length := by
  have hplace (i : Nat) (hi : i ∈ List.range 32) : decide (a.toNat % 2 ^ (i + 1) = 0) =
      decide (i < ((List.range 32).find? fun i => a.getLsbD i).getD 32) :=
    decide_eq_decide.2 ((mod_two_pow_eq_zero_iff _ _).trans (forall_getLsbD_eq_false_iff a i (List.mem_range.1 hi)))
  have hle : ((List.range 32).find? fun i => a.getLsbD i).getD 32 ≤ 32 := by
    cases hfind : (List.range 32).find? fun i => a.getLsbD i with
    | none => exact Nat.le_refl 32
    | some t => exact Nat.le_of_lt (List.mem_range.1 (List.mem_of_find?_eq_some hfind))
  rw [List.filter_congr hplace, length_filter_range_lt, Nat.min_eq_right hle, aluCtz]

/-- The sum of the first `n` reversed bits has those bits and no others. -/
theorem getLsbD_sum_reversed (a : Word) (n : Nat) (hn : n ≤ 32) (j : Nat) (hj : j < 32) :
    (BitVec.ofNat 32 ((List.range n).foldl (fun r i => r + if a.getLsbD i then 2 ^ (31 - i) else 0) 0)).getLsbD j =
      (decide (31 - j < n) && a.getLsbD (31 - j)) := by
  induction n generalizing j with
  | zero => simp
  | succ n ih =>
    specialize ih (by omega)
    rw [List.range_succ, List.foldl_append, List.foldl_cons, List.foldl_nil, BitVec.ofNat_add]
    generalize BitVec.ofNat 32 ((List.range n).foldl _ 0) = r at ih ⊢
    have hbit (k : Nat) (hk : k < 32) : (BitVec.ofNat 32 (if a.getLsbD n then 2 ^ (31 - n) else 0)).getLsbD k =
        (decide (31 - k = n) && a.getLsbD n) := by
      have hplace : 31 - n = k ↔ 31 - k = n := by omega
      rw [BitVec.getLsbD_ofNat, decide_eq_true hk, Bool.true_and]
      split
      · next hset => rw [Nat.testBit_two_pow, hset, Bool.and_true]; exact decide_eq_decide.2 hplace
      · next hclear => rw [Nat.zero_testBit, Bool.eq_false_iff.2 hclear, Bool.and_false]
    generalize BitVec.ofNat 32 (if a.getLsbD n then 2 ^ (31 - n) else 0) = b at hbit ⊢
    have hdisjoint : r &&& b = 0#32 := BitVec.eq_of_getLsbD_eq fun k hk => by
      rw [BitVec.getLsbD_and, ih k hk, hbit k hk, BitVec.getLsbD_zero]
      grind
    rw [BitVec.add_eq_or_of_and_eq_zero _ _ hdisjoint, BitVec.getLsbD_or, ih j hj, hbit j hj]
    grind

theorem aluBrev_eq (a : Word) : aluBrev a = a.reverse := by
  refine BitVec.eq_of_getLsbD_eq fun j hj => ?_
  have hmirror : 31 - j < 32 := by omega
  rw [aluBrev, getLsbD_sum_reversed a 32 (by omega) j hj, BitVec.getLsbD_reverse, BitVec.getMsbD_eq_getLsbD, decide_eq_true hj,
    decide_eq_true hmirror]

/-! ### Fields that must hold 63 or 0 -/

/-- MOD with MOD[47] set is no type code of R65. -/
theorem two_le_toNat_of_getLsbD_three : ∀ m : BitVec 4, m.getLsbD 3 = true → 2 ≤ m.toNat := by decide

theorem natBits_eq (x hi lo : Nat) : natBits x hi lo = x / 2 ^ lo % 2 ^ (hi + 1 - lo) := by
  rw [natBits, Nat.shiftRight_eq_div_pow]

theorem staticCheck_li {f : LIF} (h : f.a ≠ 63 ∨ f.mod ≠ 0) : (Instr.li f).staticCheck = some .reserved := by
  obtain ha | hmod := h
  · exact staticCheck_of_reservedOk rfl rfl (Option.some_ne_none _) (allFields_eq_false.2 (.inr (.inl (reservedOk_unused ha))))
  · exact staticCheck_of_extra rfl rfl (Option.some_ne_none _) (beq_false_of_ne hmod)

theorem staticCheck_sel {f : LF} (h : 32 ≤ f.imm16.toNat ∨ f.c ≠ 63 ∨ f.mod.getLsbD 3 = true) :
    (Instr.sel f).staticCheck = some .reserved := by
  obtain himm | hc | hmod := h
  · have hbits : natBits f.imm16.toNat 15 5 ≠ 0 := by rw [natBits_eq]; omega
    exact staticCheck_of_extra rfl rfl (Option.some_ne_none _) (Bool.and_eq_false_iff.2 (.inr (beq_false_of_ne hbits)))
  · exact staticCheck_of_unused_c rfl rfl rfl hc
  · have hmod2 := two_le_toNat_of_getLsbD_three _ hmod
    exact staticCheck_of_extra rfl rfl (Option.some_ne_none _) (Bool.and_eq_false_iff.2 (.inl (decide_eq_false (by omega))))

theorem intPlain_eq_false {f : LF} (hmod : f.mod.getLsbD 3 = true) : intPlain f = false := by
  have hmod2 := two_le_toNat_of_getLsbD_three _ hmod
  exact Bool.and_eq_false_iff.2 (.inl (decide_eq_false (by omega)))

theorem lPlain_eq_false {f : LF} (hmod : f.mod.getLsbD 3 = true) : lPlain f = false := by
  have hmod2 := two_le_toNat_of_getLsbD_three _ hmod
  have hne : f.mod ≠ 0 := fun hzero => absurd (hzero ▸ hmod2) (by decide)
  exact Bool.and_eq_false_iff.2 (.inl (beq_false_of_ne hne))

theorem staticCheck_unaryW {i : Instr} {op : BitVec 10} {f : WF} (he : i.enc = some (.w op f)) (hu : i.usage = some (wUse .dst .src .unused))
    (hb : f.b ≠ 63) : i.staticCheck = some .reserved :=
  staticCheck_of_reservedOk he hu (Option.some_ne_none _) (allFields_eq_false.2 (.inr (.inr (.inl (reservedOk_unused hb)))))

/-- In the one-source operations MOD[47] is 0: there is no B for an immediate to replace. -/
theorem staticCheck_unaryL {i : Instr} {op : BitVec 10} {f : LF} {x : Bool} (he : i.enc = some (.l op f))
    (hu : i.usage = some (intUseR f .dst .src .unused .unused x)) (hx : f.mod.getLsbD 3 = true → x = false)
    (h : f.b ≠ 63 ∨ f.mod.getLsbD 3 = true) : i.staticCheck = some .reserved := by
  obtain hb | hmod := h
  · exact staticCheck_of_unused_b he hu rfl hb
  · exact staticCheck_of_extra he hu (Option.some_ne_none _) (hx hmod)

/-- Settles O15: each form computes `intUn` of an operation of `Alu`, or the value of its rule. -/
theorem oneSourceAndSelectResults : Obligations.OneSourceAndSelectResults := by
  unfold Obligations.OneSourceAndSelectResults
  refine ⟨?movH, ?mov, ?abs, ?neg, ?not, ?popc, ?clz, ?ctz, ?brev, ?li, ?bsel, ?sel, ?reservedW, ?reservedL, ?reservedLi, ?guardLi,
    ?reservedSel, ?opsW, ?opsL, ?opLi⟩
  case movH =>
    exact fun f => completes_word (v := fun e l => aluMov (l.src (bField e))) ⟨rfl, fun _ => rfl⟩ (dField_h _ f) fun _ => rfl
  case mov => exact ⟨unW_of_intUn (k := aluMov) fun _ => rfl, unL_of_intUn (k := aluMov) fun _ => rfl⟩
  case abs => exact ⟨unW_of_intUn aluAbs_eq, unL_of_intUn aluAbs_eq⟩
  case neg => exact ⟨unW_of_intUn aluNeg_eq, unL_of_intUn aluNeg_eq⟩
  case not => exact ⟨unW_of_intUn (k := aluNot) fun _ => rfl, unL_of_intUn (k := aluNot) fun _ => rfl⟩
  case popc => exact ⟨unW_of_intUn aluPopc_eq, unL_of_intUn aluPopc_eq⟩
  case clz => exact ⟨unW_of_intUn aluClz_eq, unL_of_intUn aluClz_eq⟩
  case ctz => exact ⟨unW_of_intUn aluCtz_eq, unL_of_intUn aluCtz_eq⟩
  case brev => exact ⟨unW_of_intUn aluBrev_eq, unL_of_intUn aluBrev_eq⟩
  case li => exact fun f => completes_word (v := fun _ _ => f.imm32) ⟨rfl, fun _ => rfl⟩ (dField_li _ f) fun _ => rfl
  case bsel =>
    exact fun f => completes_word (v := fun e l => aluBsel (l.src (aField e)) (bVal .sign e l) (l.src (cField e)))
      ⟨rfl, fun _ => rfl⟩ (dField_l _ f) fun _ => rfl
  case sel =>
    exact fun f => completes_word
      (v := fun e l => if l.pw.getLsbD (natBits (imm16Of e) 4 0) then l.src (aField e) else l.src (bField e))
      ⟨rfl, fun _ => rfl⟩ (dField_l _ f) fun _ => rfl
  case reservedW =>
    repeat refine List.forall_mem_cons.2 ⟨fun _ => staticCheck_unaryW rfl rfl, ?_⟩
    exact List.forall_mem_nil _
  case reservedL =>
    refine List.forall_mem_cons.2 ⟨fun _ => staticCheck_unaryL rfl rfl intPlain_eq_false, ?_⟩
    iterate 2 refine List.forall_mem_cons.2 ⟨fun _ => staticCheck_unaryL rfl rfl lPlain_eq_false, ?_⟩
    repeat refine List.forall_mem_cons.2 ⟨fun _ => staticCheck_unaryL rfl rfl intPlain_eq_false, ?_⟩
    exact List.forall_mem_nil _
  case reservedLi => exact fun f => staticCheck_li
  case guardLi =>
    intro f e l he
    obtain rfl := Option.some.inj he
    rfl
  case reservedSel => exact fun f => staticCheck_sel
  case opsW | opsL =>
    repeat refine List.forall_mem_cons.2 ⟨fun _ => rfl, ?_⟩
    exact List.forall_mem_nil _
  case opLi => exact fun _ => rfl

end Sys2Proof.Machine
end

section
/-! PROOFS. The wide multiplies, the bit fields and the 64-bit address operations (R70, R71, R74). -/

namespace Sys2Proof.Machine

/-! ### Their values -/

/-- A 64-bit pattern of a sum with a value of 64 bits is the sum of the patterns. -/
theorem wrap64_add_toNat (x : Int) (c : DWord) : wrap64 (x + c.toNat) = wrap64 x + c := by
  rw [wrap64, BitVec.ofInt_add, BitVec.ofInt_natCast, BitVec.ofNat_toNat, BitVec.setWidth_eq]; rfl

theorem aluMulw_zero (n : Bool) (a b : Word) : aluMulw n a b 0 = wrap64 (intT n a * intT n b) := by
  rw [aluMulw, wrap64_add_toNat]; exact BitVec.add_zero _

theorem aluMulw_eq (n : Bool) (a b : Word) (c : DWord) : aluMulw n a b c = wrap64 (intT n a * intT n b) + c :=
  wrap64_add_toNat _ c

theorem aluLea64_eq (n : Bool) (s : Nat) (a : DWord) (b : Word) : aluLea64 n s a b = a + wrap64 (intT n b * 2 ^ s) := by
  rw [aluLea64, Int.add_comm, wrap64_add_toNat, BitVec.add_comm]

theorem aluBfx_eq (n : Bool) (pos len : Nat) (a : Word) :
    aluBfx n pos len a =
      if n ∨ a.toNat / 2 ^ pos % 2 ^ len < 2 ^ (len - 1) then BitVec.ofNat 32 (a.toNat / 2 ^ pos % 2 ^ len)
      else BitVec.ofInt 32 (((a.toNat / 2 ^ pos % 2 ^ len : Nat) : Int) - 2 ^ len) :=
  ite_congr (by rw [Bool.or_eq_true, decide_eq_true_eq]) (fun _ => rfl) fun _ => rfl

/-- The place of the bit field is IMM16[4:0], its length IMM16[10:5] (R71). -/
theorem bitField_eq (x : Nat) : natBits x 4 0 = x % 32 ∧ natBits x 10 5 = x / 32 % 64 := ⟨rfl, natBits_eq x 10 5⟩

/-! ### Fields that must hold 63 or 0, and pairs -/

/-- An odd pair field other than `z` names no pair (R43). -/
theorem pairOk_odd {n : BitVec 6} (h : n.toNat % 2 = 1 ∧ n ≠ 63) :
    FieldUse.srcPair.pairOk n.toNat = false ∧ FieldUse.dstPair.pairOk n.toNat = false := by
  obtain ⟨hodd, hne⟩ := h
  have hbad : (n.toNat % 2 == 0 || n.toNat == 63) = false :=
    Bool.or_eq_false_iff.2 ⟨beq_false_of_ne (by omega), beq_false_of_ne fun h63 => hne ((field63 n).1 h63)⟩
  exact ⟨hbad, hbad⟩

theorem bfOk_eq_false {f : LF}
    (h : f.imm16.toNat / 32 % 64 = 0 ∨ 32 < f.imm16.toNat / 32 % 64 ∨ 32 < f.imm16.toNat % 32 + f.imm16.toNat / 32 % 64 ∨
      2048 ≤ f.imm16.toNat ∨ f.mod.getLsbD 3 = true) : bfOk f = false := by
  obtain ⟨hpos, hlen⟩ := bitField_eq f.imm16.toNat
  have hrest : natBits f.imm16.toNat 15 11 = f.imm16.toNat / 2048 := by rw [natBits_eq]; omega
  replace h := h.imp_right (Or.imp_right (Or.imp_right (Or.imp_right (two_le_toNat_of_getLsbD_three _))))
  refine Bool.eq_false_iff.2 fun hok => ?_
  simp only [bfOk, hpos, hlen, hrest, Bool.and_eq_true, decide_eq_true_eq, beq_iff_eq] at hok
  omega

theorem staticCheck_lea64 {f : LF} (h : 16 ≤ f.imm16.toNat ∨ f.mod.getLsbD 3 = true) : (Instr.lea64 f).staticCheck = some .reserved := by
  refine staticCheck_of_extra rfl rfl (Option.some_ne_none _) (Bool.and_eq_false_iff.2 ?_)
  obtain himm | hmod := h
  · have hbits : natBits f.imm16.toNat 15 4 ≠ 0 := by rw [natBits_eq]; omega
    exact .inr (beq_false_of_ne hbits)
  · have hmod2 := two_le_toNat_of_getLsbD_three _ hmod
    exact .inl (decide_eq_false (by omega))

theorem staticCheck_bfx_bfi {f : LF} (h : bfOk f = false ∨ f.c ≠ 63) :
    (Instr.bfx f).staticCheck = some .reserved ∧ (Instr.bfi f).staticCheck = some .reserved := by
  obtain hbf | hc := h
  · exact ⟨staticCheck_of_extra rfl rfl (Option.some_ne_none _) hbf, staticCheck_of_extra rfl rfl (Option.some_ne_none _) hbf⟩
  · exact ⟨staticCheck_of_unused_c rfl rfl rfl hc, staticCheck_of_unused_c rfl rfl rfl hc⟩

/-- Settles O16: each computes the operation of `Alu` that its rule names; the reserved words break one check each. -/
theorem wideAndBitFieldResults : Obligations.WideAndBitFieldResults := by
  unfold Obligations.WideAndBitFieldResults
  refine ⟨⟨?pairMulw, ?pairMadw, ?pairAdd64, ?pairLea64, ?immAdd64, ?unusedC, ?scaleLea64, ?bitFields⟩,
    ?mulwW, ?mulwL, ?mad, ?madw, ?bfx, ?bfi, ?add64, ?lea64, ?opW, ?opsL⟩
  case pairMulw =>
    intro f hd
    refine ⟨staticCheck_of_pairOk rfl rfl (allFields_eq_false.2 (.inl (pairOk_odd hd).2)), fun g hg => ?_⟩
    rw [← hg] at hd
    exact staticCheck_of_pairOk rfl rfl (allFields_eq_false.2 (.inl (pairOk_odd hd).2))
  case pairMadw =>
    exact fun f h => staticCheck_of_pairOk rfl rfl
      (allFields_eq_false.2 (h.imp (pairOk_odd · |>.2) fun hc => .inr (.inr (pairOk_odd hc).1)))
  case pairAdd64 =>
    intro f h
    refine staticCheck_of_pairOk rfl rfl (allFields_eq_false.2 ?_)
    obtain hd | ha | ⟨himm, hb⟩ := h
    · exact .inl (pairOk_odd hd).2
    · exact .inr (.inl (pairOk_odd ha).1)
    · have huse : (intUsePair f).b = .srcPair := by rw [intUsePair, himm]; rfl
      exact .inr (.inr (.inl (huse ▸ (pairOk_odd hb).1)))
  case pairLea64 =>
    exact fun f h => staticCheck_of_pairOk rfl rfl
      (allFields_eq_false.2 (h.imp (pairOk_odd · |>.2) fun ha => .inl (pairOk_odd ha).1))
  case immAdd64 =>
    intro f himm hb
    have huse : (intUsePair f).b = .unused := by rw [intUsePair, himm]; rfl
    exact staticCheck_of_unused_b rfl rfl huse hb
  case unusedC => exact fun f hc => ⟨staticCheck_of_unused_c rfl rfl rfl hc, staticCheck_of_unused_c rfl rfl rfl hc⟩
  case scaleLea64 => exact fun f => staticCheck_lea64
  case bitFields =>
    intro f
    refine ⟨fun h => staticCheck_bfx_bfi ?_, staticCheck_of_unused_b rfl rfl rfl⟩
    obtain hlen | hlong | hpast | himm | hmod | hc := h
    · exact .inl (bfOk_eq_false (.inl hlen))
    · exact .inl (bfOk_eq_false (.inr (.inl hlong)))
    · exact .inl (bfOk_eq_false (.inr (.inr (.inl hpast))))
    · exact .inl (bfOk_eq_false (.inr (.inr (.inr (.inl himm)))))
    · exact .inl (bfOk_eq_false (.inr (.inr (.inr (.inr hmod)))))
    · exact .inr hc
  case mulwW =>
    exact fun f => completes_dword (v := fun e l => aluMulw (isN32 e) (l.src (aField e)) (bVal .sign e l) 0) ⟨rfl, fun _ => rfl⟩
      (dField_w _ f) fun _ => aluMulw_zero false _ _
  case mulwL =>
    exact fun f => completes_dword (v := fun e l => aluMulw (isN32 e) (l.src (aField e)) (bVal .sign e l) 0) ⟨rfl, fun _ => rfl⟩
      (dField_l _ f) fun _ => aluMulw_zero (f.mod.getLsbD 0) _ _
  case mad =>
    exact fun f => completes_word (v := fun e l => aluMad (l.src (aField e)) (bVal .sign e l) (l.src (cField e))) ⟨rfl, fun _ => rfl⟩
      (dField_l _ f) fun _ => rfl
  case madw =>
    exact fun f => completes_dword (v := fun e l => aluMulw (isN32 e) (l.src (aField e)) (bVal .sign e l) (l.src64 (cField e)))
      ⟨rfl, fun _ => rfl⟩ (dField_l _ f) fun _ => aluMulw_eq (f.mod.getLsbD 0) _ _ _
  case bfx =>
    intro f
    obtain ⟨hpos, hlen⟩ := bitField_eq f.imm16.toNat
    exact completes_word
      (v := fun e l => aluBfx (isN32 e) (natBits (imm16Of e) 4 0) (natBits (imm16Of e) 10 5) (l.src (aField e)))
      ⟨rfl, fun _ => rfl⟩ (dField_l _ f) fun _ => by rw [imm16Of, hpos, hlen]; exact aluBfx_eq _ _ _ _
  case bfi =>
    intro f
    obtain ⟨hpos, hlen⟩ := bitField_eq f.imm16.toNat
    exact completes_word
      (v := fun e l => aluBfi (natBits (imm16Of e) 4 0) (natBits (imm16Of e) 10 5) (l.src (aField e)) (l.src (bField e)))
      ⟨rfl, fun _ => rfl⟩ (dField_l _ f) fun _ => by rw [imm16Of, hpos, hlen]; rfl
  case add64 =>
    exact fun f => completes_dword
      (v := fun e l => l.src64 (aField e) + (if f.mod.getLsbD 3 then f.imm16.signExtend 64 else l.src64 (bField e)))
      ⟨rfl, fun _ => rfl⟩ (dField_l _ f) fun _ => rfl
  case lea64 =>
    exact fun f => completes_dword
      (v := fun e l => aluLea64 (isN32 e) (natBits (imm16Of e) 3 0) (l.src64 (aField e)) (l.src (bField e)))
      ⟨rfl, fun _ => rfl⟩ (dField_l _ f) fun _ => aluLea64_eq _ _ _ _
  case opW => exact fun _ => rfl
  case opsL =>
    repeat refine List.forall_mem_cons.2 ⟨fun _ => rfl, ?_⟩
    exact List.forall_mem_nil _

end Sys2Proof.Machine
end

section
/-! PROOFS. The shuffles, votes and reductions over the lanes of `exec` (R146 to R149). -/

namespace Sys2Proof.Machine

/-! ### The encoding and the effect of an instruction that computes from the lanes of `exec` -/

/-- `i` is encoded as `e`, and computes `o` in each lane from the lanes of `exec`. -/
def ComputesAcross (i : Instr) (e : Enc) (o : Issue → Fibre → LaneOut) : Prop := i.enc = some e ∧ ∀ s, exec i s = crosswise i s o

theorem completes_of_computesAcross {i : Instr} {e : Enc} {o : Issue → Fibre → LaneOut} {out : List Fibre → Fibre → LaneOut}
    (h : ComputesAcross i e o) (ho : ∀ w l, w.enc = e → o w l = out w.exec l) : Completes i out := by
  obtain ⟨henc, hexec⟩ := h
  exact completes_crosswise hexec fun w l hw => ho w l (Option.some.inj (hw.symm.trans henc))

/-! ### Shuffles -/

theorem shufLane_up {l : Nat} (b : Nat) (hl : l < 32) :
    shufLane .up l b = if (l : Int) - b < 0 ∨ 31 < (l : Int) - b then none else some (l - b) := by
  have hinside : b ≤ l ↔ ¬ ((l : Int) - b < 0 ∨ 31 < (l : Int) - b) := by omega
  rw [← ite_not]
  exact ite_congr (propext hinside) (fun _ => rfl) fun _ => rfl

theorem shufLane_dn (l b : Nat) : shufLane .dn l b = if 31 < l + b then none else some (l + b) := by
  have hinside : l + b < 32 ↔ ¬ 31 < l + b := by omega
  rw [← ite_not]
  exact ite_congr (propext hinside) (fun _ => rfl) fun _ => rfl

theorem shufOut_w {k : ShufKind} {w : Issue} {op : BitVec 10} {f : WF} (l : Fibre) (hw : w.enc = .w op f) :
    shufOut k w l = word (wDest f) (laneValue w.exec l (shufLane k l.lane (l.src f.b.toNat).toNat) 0 fun g => g.src f.a.toNat) := by
  have hb : bField (.w op f) = f.b.toNat := rfl
  have hn : isN32 (.w op f) = false := rfl
  simp only [shufOut, hw, hb, hn, out32_eq, dField_w, laneValue, Bool.false_eq_true, if_false]
  cases shufLane k l.lane (l.src f.b.toNat).toNat with
  | none => rfl
  | some j => rfl

theorem shufOut_l {k : ShufKind} {w : Issue} {op : BitVec 10} {f : LF} (l : Fibre) (hw : w.enc = .l op f) :
    shufOut k w l =
      if f.mod.getLsbD 0 then
        dword (lDest f) (laneValue w.exec l (shufLane k l.lane (if f.mod.getLsbD 3 then f.imm16.toNat else (l.src f.b.toNat).toNat)) 0
          fun g => g.src64 f.a.toNat)
      else
        word (lDest f) (laneValue w.exec l (shufLane k l.lane (if f.mod.getLsbD 3 then f.imm16.toNat else (l.src f.b.toNat).toNat)) 0
          fun g => g.src f.a.toNat) := by
  have hb : bField (.l op f) = f.b.toNat := rfl
  have himm : imm16Of (.l op f) = f.imm16.toNat := rfl
  have hn : isN32 (.l op f) = f.mod.getLsbD 0 := rfl
  simp only [shufOut, hw, hb, himm, hn, out32_eq, out64_eq, dField_l, laneValue]
  cases shufLane k l.lane (if f.mod.getLsbD 3 then f.imm16.toNat else (l.src f.b.toNat).toNat) with
  | none => rfl
  | some j => rfl

theorem shufW_of_shufOut {c : WF → Instr} {op : BitVec 10} {k : ShufKind}
    (h : ∀ f, ComputesAcross (c f) (.w op f) (shufOut k) := by exact fun _ => ⟨rfl, fun _ => rfl⟩) : ShufW c k :=
  fun f => completes_of_computesAcross (h f) fun _ l hw => shufOut_w l hw

theorem shufL_of_shufOut {c : LF → Instr} {op : BitVec 10} {k : ShufKind}
    (h : ∀ f, ComputesAcross (c f) (.l op f) (shufOut k) := by exact fun _ => ⟨rfl, fun _ => rfl⟩) : ShufL c k :=
  fun f => completes_of_computesAcross (h f) fun _ l hw => shufOut_l l hw

/-- Under MOD[47] a shuffle has no B, and its immediate has five bits (R147). -/
theorem staticCheck_shufUse {i : Instr} {op : BitVec 10} {f : LF} (he : i.enc = some (.l op f)) (hu : i.usage = some (shufUse f))
    (himm : f.mod.getLsbD 3 = true) (h : f.b ≠ 63 ∨ 32 ≤ f.imm16.toNat) : i.staticCheck = some .reserved := by
  obtain hb | hwide := h
  · exact staticCheck_of_unused_b he hu (by rw [shufUse, himm]; rfl) hb
  · have hextra : (shufUse f).extra = false := by
      simp only [shufUse, himm, if_true, decide_eq_false (Nat.not_lt.2 hwide), Bool.and_false]
    exact staticCheck_of_extra he hu (Option.some_ne_none _) hextra

/-! ### Votes -/

theorem voteBit_eq_voteOf {e : Enc} {a : BitVec 6} (ha : aField e = a.toNat) : voteBit e = voteOf a := by
  have h63 : (a.toNat == 63) = (a == 63) := by rw [Bool.eq_iff_iff, beq_iff_eq, beq_iff_eq, field63]
  funext g
  rw [voteBit, voteOf, ha, h63]

/-- A vote writes bit D of `pw`: `v` of the sources' bits. -/
theorem completes_of_votePw {i : Instr} {e : Enc} {v : List Bool → Bool} {d a : BitVec 6} {q : List Fibre → Bool}
    (h : ComputesAcross i e (votePw v)) (hd : e.fields.1 = d.toNat) (ha : aField e = a.toNat)
    (hq : ∀ exec, v (exec.map (voteOf a)) = q exec) : Completes i fun exec l => predicate (setBit l.pw d.toNat (q exec)) :=
  completes_of_computesAcross h fun w l hw => by rw [votePw, hw, hd, voteBit_eq_voteOf ha, hq]; rfl

theorem completes_of_voteBal {i : Instr} {e : Enc} {a : BitVec 6} {d : Option Nat} (h : ComputesAcross i e voteBal)
    (hd : dField e = d) (ha : aField e = a.toNat) :
    Completes i fun exec _ => word d ((exec.filter (voteOf a)).foldl (fun m x => m ||| BitVec.ofNat 32 (2 ^ x.lane)) (0 : Word)) :=
  completes_of_computesAcross h fun w _ hw => by rw [voteBal, hw, voteBit_eq_voteOf ha, out32_eq, hd]; rfl

/-- A number above the largest other than 63 names no bit (R148). -/
theorem reservedOk_numOr63 {n : BitVec 6} {m : Nat} (hm : m < n.toNat) (h63 : n ≠ 63) : (FieldUse.numOr63 m).reservedOk n.toNat = false :=
  Bool.or_eq_false_iff.2 ⟨decide_eq_false (Nat.not_le.2 hm), reservedOk_unused h63⟩

/-- A vote has no B, and its A is a bit of `pw` or 63 (R148). -/
theorem staticCheck_vote {i : Instr} {e : Enc} {u : Usage} {a b : BitVec 6} {c : Nat} (he : i.enc = some e) (hu : i.usage = some u)
    (hop : e.opn ≠ none) (hfields : e.fields.2 = (a.toNat, b.toNat, c)) (hua : u.a = .numOr63 31) (hub : u.b = .unused)
    (h : b ≠ 63 ∨ 32 ≤ a.toNat ∧ a ≠ 63) : i.staticCheck = some .reserved := by
  refine staticCheck_of_reservedOk he hu hop (allFields_eq_false.2 ?_)
  rw [hfields, hua, hub]
  obtain hb | ⟨hhigh, ha⟩ := h
  · exact .inr (.inr (.inl (reservedOk_unused hb)))
  · exact .inr (.inl (reservedOk_numOr63 hhigh ha))

/-! ### Reductions -/

theorem completes_of_redOut {i : Instr} {e : Enc} {k : RedKind} {a : BitVec 6} {d : Option Nat} {ty : Nat}
    (h : ComputesAcross i e (redOut k)) (hd : dField e = d) (ha : aField e = a.toNat) (hty : modOf e % 4 = ty) :
    Completes i fun exec _ => word d (redValue k ty (exec.map fun x => x.src a.toNat)) :=
  completes_of_computesAcross h fun _ _ hw => by rw [redOut, hw, out32_eq, hd, ha, hty]

theorem redcW_of_redOut {c : WF → Instr} {op : BitVec 10} {k : RedKind}
    (h : ∀ f, ComputesAcross (c f) (.w op f) (redOut k) := by exact fun _ => ⟨rfl, fun _ => rfl⟩) (f : WF) :
    Completes (c f) fun exec _ => word (wDest f) (redValue k 0 (exec.map fun x => x.src f.a.toNat)) :=
  completes_of_redOut (h f) (dField_w op f) rfl rfl

theorem redcL_of_redOut {c : LF → Instr} {op : BitVec 10} {k : RedKind}
    (h : ∀ f, ComputesAcross (c f) (.l op f) (redOut k) := by exact fun _ => ⟨rfl, fun _ => rfl⟩) (f : LF) :
    Completes (c f) fun exec _ => word (lDest f) (redValue k (f.mod.toNat % 4) (exec.map fun x => x.src f.a.toNat)) :=
  completes_of_redOut (h f) (dField_l op f) rfl rfl

/-- Settles O20: each instruction computes `shufOut`, a vote or `redOut` from the lanes of `exec`, whose value is the one of its rule. -/
theorem crossLaneResults : Obligations.CrossLaneResults := by
  unfold Obligations.CrossLaneResults
  refine ⟨?lanes, ?reservedShuf, ?reservedVoteW, ?bitVoteW, ?reservedVoteL, ?bitVoteL, ?idx, ?up, ?dn, ?xor, ?any, ?all, ?bal, ?redc,
    ?opsW, ?opsL, ?workedW, ?workedL⟩
  case lanes => exact fun l b hl => ⟨rfl, rfl, shufLane_up b hl, shufLane_dn l b⟩
  case reservedShuf =>
    repeat refine List.forall_mem_cons.2 ⟨fun _ => staticCheck_shufUse rfl rfl, ?_⟩
    exact List.forall_mem_nil _
  case reservedVoteW | reservedVoteL =>
    exact fun _ h => ⟨staticCheck_vote rfl rfl (Option.some_ne_none _) rfl rfl rfl h,
      staticCheck_vote rfl rfl (Option.some_ne_none _) rfl rfl rfl h, staticCheck_vote rfl rfl (Option.some_ne_none _) rfl rfl rfl h⟩
  case bitVoteW | bitVoteL =>
    intro f h
    have hbad := h.symm.imp_right (beq_iff_eq (a := f.nw) (b := 1)).2
    exact ⟨staticCheck_num rfl rfl (Option.some_ne_none _) rfl rfl hbad, staticCheck_num rfl rfl (Option.some_ne_none _) rfl rfl hbad⟩
  case idx | up | dn | xor => exact ⟨shufW_of_shufOut, shufL_of_shufOut⟩
  case any =>
    exact ⟨fun f => completes_of_votePw (e := .w _ f) ⟨rfl, fun _ => rfl⟩ rfl rfl fun _ => List.any_map,
      fun f => completes_of_votePw (e := .l _ f) ⟨rfl, fun _ => rfl⟩ rfl rfl fun _ => List.any_map⟩
  case all =>
    exact ⟨fun f => completes_of_votePw (e := .w _ f) ⟨rfl, fun _ => rfl⟩ rfl rfl fun _ => List.all_map,
      fun f => completes_of_votePw (e := .l _ f) ⟨rfl, fun _ => rfl⟩ rfl rfl fun _ => List.all_map⟩
  case bal =>
    exact ⟨fun f => completes_of_voteBal ⟨rfl, fun _ => rfl⟩ (dField_w _ f) rfl,
      fun f => completes_of_voteBal ⟨rfl, fun _ => rfl⟩ (dField_l _ f) rfl⟩
  case redc =>
    exact ⟨⟨redcW_of_redOut, redcL_of_redOut⟩, ⟨redcW_of_redOut, redcL_of_redOut⟩, redcW_of_redOut, redcL_of_redOut⟩
  case opsW | opsL =>
    repeat refine List.forall_mem_cons.2 ⟨fun _ => rfl, ?_⟩
    exact List.forall_mem_nil _
  case workedW | workedL => decide

end Sys2Proof.Machine
end
